-- ==== Sys2Proof/Word.lean ====
section
/-! DEFINITION. The word types of the unit's registers and wires, and the index types of its resources (R9, R399, R422). -/

namespace Sys2Proof

abbrev Byte := BitVec 8
abbrev W16 := BitVec 16
abbrev W32 := BitVec 32
abbrev W64 := BitVec 64

/-- A sparse table: (index, record) pairs, indices strictly rising, no record equal to the table's default. -/
abbrev Tbl (α : Type) := List (Nat × α)

/-- Partition P0–P7 (R9). -/
abbrev PartId := Fin 8
/-- Segment SEG0–SEG63 (R9). -/
abbrev SegId := Fin 64
/-- Global drop index, segment × 32 + drop number (R9). -/
abbrev DropId := Fin 2048
/-- Ring pair 0–15 (R141). -/
abbrev RingId := Fin 16
/-- Decode core 0–15 (R271). -/
abbrev CodecCore := Fin 16
/-- Control core CC0–CC3 (R9). -/
abbrev CtlCore := Fin 4
/-- Customer core: 0 is CC2, 1 is CC3 (R467). -/
abbrev CustCore := Fin 2
/-- Stream unit slot 0–255 (R270). -/
abbrev StreamSlot := Fin 256
/-- Calendar index 0–511 (R225). -/
abbrev CalIndex := Fin 512
/-- Wafer lane 0–31 (R353). -/
abbrev LaneId := Fin 32
/-- Gate list 0–255 (R237). -/
abbrev GateId := Fin 256
/-- Shared event source 0–3,071 (R399). -/
abbrev SourceId := Fin 3072
/-- Hold-off group 0–95 (R408). -/
abbrev GroupId := Fin 96
/-- Guard bank pair 0–10 (R428). -/
abbrev PairId := Fin 11
/-- Host link: port × 2 + half; in the x8 modes half 0 is the port's one link (R116). -/
abbrev LinkId := Fin 8

end Sys2Proof
end

