-- ==== Sys2Proof/Syntax.lean ====
section
/-! DEFINITION. The commands: one constructor of Instr for each row of spec/opcode_table.json, with what comes from outside the
unit as its operands (bus accesses, words received, measurements, service operations). What the unit itself knows is in State. -/

namespace Sys2Proof

/-- Who makes a register access (R423, R508): a partition through its own BAR0, a control core (supervisor or task mode follows
from its state), or the service port. -/
inductive Requester where
  | host (p : PartId)
  | core (c : CtlCore)
  | service
  deriving DecidableEq, Repr

/-- A register access as it arrives: byte offset (BAR0) or byte address (control space), the DWords written (for a read, their
number is what matters), byte enables of the first and the last DWord (R123, R510). -/
structure RegAccess where
  isRead : Bool
  addr : W32
  data : List W32
  firstBE : BitVec 4
  lastBE : BitVec 4
  deriving DecidableEq, Repr

/-- The three AtomicOps (R127). -/
inductive AtomicKind where
  | fetchAdd | swap | cas
  deriving DecidableEq, Repr

/-- The BAR an AtomicOp lands in (R127). -/
inductive BarId where
  | bar0 | bar2 | bar4
  deriving DecidableEq, Repr

/-- How a read of host memory by the unit ends (R135, R209). -/
inductive ReadResult where
  | data (bytes : List Byte)
  | poisoned
  | timeout
  | unsupported
  | abort
  deriving DecidableEq, Repr

/-- What a link sees of its host (R41, R119): PERST# asserted or released, the half's reference clock lost or back, a hot reset, Link
Disable set or cleared, or L0 left otherwise than to L1. -/
inductive LinkEvent where
  | perst (asserted : Bool)
  | refClock (present : Bool)
  | hotReset
  | linkDisable (set : Bool)
  | leftL0
  deriving DecidableEq, Repr

/-- Something that happens to a host link. -/
structure LinkSignal where
  link : LinkId
  event : LinkEvent
  deriving DecidableEq, Repr

/-- The DWords of a function's configuration space that a host writes and that hold more than a power state (R117, R121, R125, R131, R133):
Command, a half of a BAR pair, Link Control, Device Control, Device Control 2, the MSI-X Message Control, AER's Uncorrectable Error Status and
its capabilities and control. -/
inductive CfgReg where
  | command
  | bar (n : Fin 3) (high : Bool)
  | linkControl
  | deviceControl
  | deviceControl2
  | msixControl
  | aerStatus
  | aerControl
  deriving DecidableEq, Repr

/-- A write of the power management control: PowerState, PME_En, and whether it clears PME_Status (R128, R130). -/
structure PmWrite where
  power : BitVec 2
  pmeEn : Bool
  clearPme : Bool
  deriving DecidableEq, Repr

/-- The write of the power management control that returns a function to D0 (R130). -/
structure D0Write where
  part : PartId
  pmeEn : Bool
  clearPme : Bool
  deriving DecidableEq, Repr

/-- One Colant word with its tag bits (R76). RSV is sent as 0 and only enters the parity. -/
structure ColWord where
  data : W16
  c : Bool
  p : Bool
  f : Bool
  rsv : Bool
  deriving DecidableEq, Repr

/-- Words that arrive on a segment, the first of them sinceNs after the last word of the outstanding request left (R84). -/
structure ColAnswer where
  sinceNs : Nat
  words : List ColWord
  deriving DecidableEq, Repr

/-- A memory error (R13): a corrected one, or an uncorrectable one and, where it lies in data being sent to a host, the place among the
unit's outputs of the TLP that carries it (R135). -/
inductive MemError where
  | corrected
  | uncorrectable (sent : Option Nat)
  deriving DecidableEq, Repr

/-- The eleven descriptor words of a drop, 0xFFFF00–0xFFFF0A (R109). -/
structure Descriptor where
  ident : W16
  model : W16
  caps : W16
  width : W16
  height : W16
  mode : W16
  status : W16
  attnCause : W16
  attnEn : W16
  qdelay : W16
  keepalive : W16
  deriving DecidableEq, Repr

/-- What a drop sends back to the commands of a negotiation, each as the words received (none: nothing came): to the LEVEL write, to each
MEASURE of the series, and to the DD_MODE write for each WAFER value tried, from the highest (R113, R329). -/
structure NegoAnswers where
  level : List ColWord
  measures : List (List ColWord)
  wafer : List (List ColWord)
  deriving DecidableEq, Repr

/-- What a drop number sends back when it is read and measured (R112, R456, R514): the words received in the span of each RDB of the
descriptor, the turnaround in ns that the delay-only MEASURE measures (none: no answer), the words received in answer to the
read of its telemetry static words (R394), and its negotiation answers. -/
structure Discovery where
  attempts : List (List ColWord)
  turnaroundNs : Option Nat
  telemetry : List ColWord
  nego : NegoAnswers
  deriving DecidableEq, Repr

/-- What one drop number sends back in enumeration (R112). -/
structure EnumFinding where
  number : Fin 32
  answers : Discovery
  deriving DecidableEq, Repr

/-- What an Announce says of its grandmaster, in the order in which the default best master clock algorithm compares it (R57). -/
structure ClockQuality where
  priority1 : Nat
  clockClass : Nat
  accuracy : Nat
  variance : Nat
  priority2 : Nat
  grandmaster : Nat
  stepsRemoved : Nat
  deriving DecidableEq, Repr

/-- A PTP message as the timing port receives it, with its hardware timestamp (R57). -/
inductive PtpMsg where
  | announce (domain : Byte) (master : Nat) (quality : ClockQuality) (intervalTicks : Nat) (utcOffset : W16) (utcValid : Bool)
  | sync (domain : Byte) (master : Nat) (twoStep : Bool) (originNs : Nat) (rxNs : Nat)
  | followUp (domain : Byte) (master : Nat) (originNs : Nat)
  | delayResp (domain : Byte) (master : Nat) (reqTxNs : Nat) (reqRxNs : Nat)
  | management
  deriving DecidableEq, Repr

/-- The kinds of error the parser or the reference lists report for a picture (R285), and a tool or format that R265 excludes or an AV1
operating point beyond the created one (R288). Damaged areas are lists of 16 × 16 luma blocks by raster index. -/
inductive StreamError where
  | syntaxDamage (blocks : List Nat)
  | truncated (blocks : List Nat)
  | lostPicture
  | missingReference
  | badParameterSet (id : Nat)
  | unsupported
  | operatingPoint
  deriving DecidableEq, Repr

/-- The colour description of a bitstream, by H.273 code points; 2 and unlisted points are unspecified or unsupported (R309). -/
structure ColourInfo where
  primaries : Nat
  transfer : Nat
  matrix : Nat
  full : Option Bool
  siting : Option Nat       -- 0 left, 2 top left
  deriving DecidableEq, Repr

/-- A frame of an AV1 temporal unit that is decoded and not shown (R283): the frames it references, its damaged blocks, whether a reference is
missing. -/
structure HiddenFrame where
  refs : List Nat
  damaged : List Nat
  missing : Bool
  deriving DecidableEq, Repr

/-- What a decode core reports of the access unit it has just worked on: what its headers say and what the standard's process makes of it.
The samples are not in it: they are what the codec's standard defines (R266) and stand behind Config. Frames are named by their number in
decode order since STREAM_START. -/
structure PictureInfo where
  randomAccess : Bool
  leadingSkipped : Bool     -- a RASL picture or one before the recovery point (R277)
  refs : List Nat           -- the frames it is decoded with reference to (R287)
  refsAfter : List Nat      -- the frames that references hold once it is decoded, itself included (R283)
  field : Option Bool       -- a field of H.264: false the first or only one of its frame, true the second of a pair (R276)
  bottom : Bool             -- a field is its frame's bottom field
  forOutput : Bool          -- the standard outputs it at some time (R283)
  outputs : List Nat        -- the frames the standard marks for output with this access unit
  profile : Nat             -- as R268 codes it; 0 for any other
  width : Nat
  height : Nat
  depth : Nat
  chroma : Nat              -- 0 monochrome, 1 4:2:0, 2 4:2:2, 3 4:4:4
  framesNeeded : Nat        -- reference and reorder frames its parameter sets ask for (R267)
  colour : ColourInfo
  errors : List StreamError
  pictureTicks : Nat        -- core time, ticks of 10 ns
  sequenceStart : Bool      -- it begins a coded sequence (R281)
  setsUsed : List Nat       -- parameter sets and sequence headers it refers to, each named by a number (R285)
  setsValid : List Nat      -- valid ones that the unit carries
  hidden : List HiddenFrame -- frames of an AV1 temporal unit before its shown one, decoded and not shown (R283)
  existing : Option Nat     -- AV1: its shown frame is this earlier one, by show_existing_frame; it decodes none to show (R283)
  deriving DecidableEq, Repr

/-- An access unit that was fed, as the samples after it depend on it (R266, R285, R286): its bytes, whether decoding began afresh with it, whether
it was skipped, its damaged blocks, whether a reference was missing, its hidden frames, and the number of the frame that concealed the first of its
frames that needed it; a later frame of the unit has the one before it for its source. -/
structure CodedUnit where
  data : List Byte
  restart : Bool
  skipped : Bool
  damaged : List Nat
  missing : Bool
  hidden : List HiddenFrame
  source : Option Nat
  deriving DecidableEq, Repr

/-- An image for a page or a layer: format 1 ARGB8888, 2 A2R10G10B10 (R300), pixels in raster order. -/
structure Image where
  format : Nat
  colour : Nat
  width : Nat
  height : Nat
  pixels : List W32
  deriving DecidableEq, Repr

/-- A calibration set (R512): matrix Q2.13 row by row, OETF tables by channel, gains in raster order of grid points. -/
structure CalSet where
  width : Nat
  height : Nat
  chan : Bool
  reservedZero : Bool
  matrix : List Int
  oetf : List (List Nat)
  gains : List Nat
  deriving DecidableEq, Repr

/-- A calibration set as CAL LOAD writes it, with the CRC-32 that comes with it (R328, R492). -/
structure CalWrite where
  set : CalSet
  crc : W32
  deriving DecidableEq, Repr

/-- IPv4 settings of the timing or service port (R45). -/
structure PortAddr where
  dhcp : Bool
  addr : W32
  prefixLen : Nat
  gateway : W32
  deriving DecidableEq, Repr

/-- The partition map (R23, R28, R45, R116, R121, R122, R221, R329, R401, R408, R438, R263, R467, R470, R472, R473, R478, R484, R486). -/
structure PartMap where
  portMode : Tbl Nat            -- port -> 0 X8_ONE, 1 X8_TWO, 2 X4X4
  owner : List (Nat × Nat × Nat)-- (first drop, last drop, partition) ranges; others unassigned
  cycle : Tbl (Nat × Nat × Nat) -- segment -> CYCLE_US, PHASE_US, LEAD_US
  bootCal : Tbl (Tbl W64)       -- segment -> index -> entry (R225)
  bar2Log2 : Tbl Nat
  ceilDecode : Tbl Nat
  ceilDram : Tbl Nat
  ceilPower : Tbl Nat
  tbWr : Tbl Bool
  page : Tbl (BitVec 9)         -- drop -> page, 0x100 NONE
  defFallback : Tbl Bool        -- partition -> FALLBACK 0x1
  waferLimit : Tbl Nat
  segRoute : Tbl (Nat × Nat)    -- segment -> (partition, vector); absent: CC0
  holdoff : Tbl Nat             -- group -> HOLDOFF
  filterEn : Tbl Bool
  rdMask : Tbl W32
  wrMask : Tbl W32
  guestMask : Tbl W32
  prot0 : Tbl (Nat × Nat)
  prot1 : Tbl (Nat × Nat)
  arbClass : Tbl W32
  arbLeash : Tbl (Nat × Nat × Nat × Nat)
  arbTenure : Tbl W32
  cmemMiB : Tbl Nat             -- customer core -> MiB
  ccKeys : Tbl (List Nat)       -- customer core -> enrolled P-384 public keys, each as the number its encoding spells
  ccMinVer : Tbl Nat
  ccWdogMs : Tbl Nat
  ccFbFormat : Tbl Bool
  assigned : Tbl Nat            -- drop -> customer core (0 CC2, 1 CC3)
  timing : PortAddr
  servicePort : PortAddr
  deriving DecidableEq, Repr

/-- A vendor firmware image as FW WRITE carries it (R489): its version, and whether its signature verifies. -/
structure FwImage where
  version : Nat
  signatureOk : Bool
  deriving DecidableEq, Repr

/-- A customer firmware image as CC WRITE carries it and flash keeps it: a header of 256 bytes, then the body (R470). -/
structure CustImage where
  bytes : List Byte
  deriving DecidableEq, Repr

/-- An access of a customer core as the guard checks it (R422): kind 0 read, 1 write, 2 fetch, 3 locked; space and address. -/
structure TaskAccess where
  kind : Fin 4
  space : BitVec 2
  addr : W64
  deriving DecidableEq, Repr

/-- What TASK_EXIT leaves task mode by (R468); of a bus error the access that the guard refused (R437). -/
inductive TaskCause where
  | interrupt
  | supervisorCall
  | busError (access : TaskAccess)
  deriving DecidableEq, Repr

/-- What the service operation FLT does (R487, R446); the clears of trace and store that R487 names stand here too, since the table's
rows TRACE and STORE are the reads (log entry 148). -/
inductive FltOp where
  | read (index : Nat)
  | clear (index : Nat)
  | clearTrace
  | clearStore
  deriving DecidableEq, Repr

/-- One drop access of SEG ACCESS (R487): RD, WR, RDB or WRB of 1–64 words. -/
structure SegAccess where
  isWrite : Bool
  addr : BitVec 24
  len : Nat
  data : List W16
  deriving DecidableEq, Repr

/-- The addressed Ethernet ports (R45). -/
inductive NetPort where
  | timing | service
  deriving DecidableEq, Repr

/-- What a network client asks of a port (R45). -/
inductive NetQuery where
  | arp | icmpEcho
  deriving DecidableEq, Repr

/-- The commands and events of the unit, in the table's order. Ring commands name the ring whose oldest fetched entry they are. -/
inductive Instr where
  | hostWrite (p : PartId) (off : BitVec 34) (data : List W32) (firstBE lastBE : BitVec 4)
  | hostRead (p : PartId) (off : BitVec 34) (dwords : Nat) (firstBE lastBE : BitVec 4) (tag : Nat)
  | zeroLengthRead (p : PartId) (off : BitVec 34) (tag : Nat)
  | atomicOp (p : PartId) (bar : BarId) (off : BitVec 34) (kind : AtomicKind) (bytes : Nat) (operand compare : Nat) (tag : Nat)
  | poisonedWrite (p : PartId)
  | dmaReadCompletion (id : Nat) (result : ReadResult)
  | linkReset (x : LinkSignal)
  | partitionReady (p : PartId)
  | functionLevelReset (p : PartId)
  | linkDegraded (l : LinkId) (speed : BitVec 4) (width : BitVec 6)
  | d3hotEntry (p : PartId) (w : PmWrite)
  | d0Return (w : D0Write)
  | pmeResend (p : PartId)
  | pmeTurnOff (l : LinkId)
  | aspmL1Entry (l : LinkId)
  | busMasterEnableSet (p : PartId) (reg : CfgReg) (value : W32) (be : BitVec 4)
  | msixUnmask (p : PartId) (off : BitVec 13) (write : Option W32) (tag : Nat)
  | registerWrite (who : Requester) (acc : RegAccess)
  | sqTailDoorbell (p : PartId) (r : RingId) (v : W32)
  | cqHeadDoorbell (p : PartId) (r : RingId) (v : W32)
  | sqFetchRetry (p : PartId) (r : RingId)
  | adminRingEnable (p : PartId) (v : W32)
  | heartbeat (p : PartId)
  | heartbeatLapse (p : PartId)
  | openSession (p : PartId) (r : RingId)
  | closeSession (p : PartId) (r : RingId)
  | handback (p : PartId) (r : RingId)
  | ringCreate (p : PartId) (r : RingId)
  | ringDelete (p : PartId) (r : RingId)
  | admissionQuery (p : PartId) (r : RingId)
  | streamCreate (p : PartId) (r : RingId)
  | streamStart (p : PartId) (r : RingId)
  | streamFeed (p : PartId) (r : RingId)
  | streamFeedSpace (p : PartId) (r : RingId)
  | streamStop (p : PartId) (r : RingId)
  | streamDestroy (p : PartId) (r : RingId)
  | streamQuery (p : PartId) (r : RingId)
  | dropQuery (p : PartId) (r : RingId)
  | dropRestore (p : PartId) (r : RingId)
  | dropRestoreEnd (p : PartId) (r : RingId) (answers : Discovery)
  | imageCreate (p : PartId) (r : RingId)
  | imageWrite (p : PartId) (r : RingId)
  | imageDestroy (p : PartId) (r : RingId)
  | layerSet (p : PartId) (r : RingId)
  | surfaceSet (p : PartId) (r : RingId)
  | surfaceQuery (p : PartId) (r : RingId)
  | canvasCreate (p : PartId) (r : RingId)
  | canvasDestroy (p : PartId) (r : RingId)
  | commandReadEnd (p : PartId) (r : RingId)
  | windowCreate (p : PartId) (r : RingId)
  | windowSet (p : PartId) (r : RingId)
  | windowEnable (p : PartId) (r : RingId)
  | windowDisable (p : PartId) (r : RingId)
  | windowDrained (p : PartId) (r : RingId)
  | windowDestroy (p : PartId) (r : RingId)
  | writeFence (p : PartId) (r : RingId)
  | writeFenceHolds (p : PartId) (r : RingId)
  | calWrite (p : PartId) (r : RingId)
  | calDiscard (p : PartId) (r : RingId)
  | calCommit (p : PartId) (r : RingId)
  | gateListCreate (p : PartId) (r : RingId)
  | gateListWrite (p : PartId) (r : RingId)
  | gateListStart (p : PartId) (r : RingId)
  | gateListStop (p : PartId) (r : RingId)
  | gateListDestroy (p : PartId) (r : RingId)
  | shaperCreate (p : PartId) (r : RingId)
  | shaperSet (p : PartId) (r : RingId)
  | shaperDestroy (p : PartId) (r : RingId)
  | guardWrite (p : PartId) (r : RingId)
  | guardSwap (p : PartId) (r : RingId)
  | guardQuery (p : PartId) (r : RingId)
  | timebaseTick
  | ptpMessage (m : PtpMsg)
  | ppsEdge (stampNs : Nat)
  | referenceLoss
  | srcWrite (who : Requester) (v : W32)
  | tbRateWrite (who : Requester) (v : W32)
  | stepGo (who : Requester) (v : W32)
  | stepApply
  | ppsOut
  | tbTimeLoRead (who : Requester)
  | pathDelayRemeasure (g : DropId) (turnaroundNs : Nat)
  | segmentReset (s : SegId)
  | segmentEnumeration (s : SegId) (findings : List EnumFinding)
  | negotiation (g : DropId) (answers : NegoAnswers)
  | negotiationFailWait (g : DropId) (answer : Option W16)
  | dropRenewal (g : DropId) (answers : Discovery)
  | colantResponse (s : SegId) (answer : ColAnswer)
  | colantTimeout (s : SegId)
  | attnAsserted (s : SegId)
  | pollRound (s : SegId)
  | statReceived (s : SegId)
  | strayAttention (s : SegId)
  | stuckAttn (s : SegId)
  | noAnswerReset (s : SegId)
  | cycleStart (s : SegId)
  | calendarSwap (s : SegId)
  | linkHoldWindow (s : SegId)
  | slotStart (s : SegId) (i : CalIndex)
  | whistle (s : SegId) (i : CalIndex)
  | grant (s : SegId) (i : CalIndex)
  | guestCommand (s : SegId) (words : List ColWord)
  | guestReadCompletion (s : SegId) (result : ReadResult)
  | guestPostedEntry (s : SegId)
  | holdCeiling (s : SegId)
  | guestReturn (s : SegId)
  | tenureEnd (s : SegId)
  | sync (s : SegId)
  | presentationInstant (s : SegId)
  | arbitrationPhase (s : SegId)
  | wheelBucket (p : PartId) (sh : Fin 32)
  | keepaliveOverdue (g : DropId)
  | schArbFreeze (who : Requester) (s : SegId) (v : W32)
  | schArbClassWrite (who : Requester) (s : SegId) (v : W32)
  | schArbLeashWrite (who : Requester) (s : SegId) (n : Fin 4) (v : W32)
  | schArbTenureWrite (who : Requester) (s : SegId) (v : W32)
  | gateBaseReached (i : GateId)
  | gateEntryDue (i : GateId)
  | gateBaseLoRead (p : PartId)
  | gateNextLoRead (p : PartId)
  | composeInstant (g : DropId)
  | composePassEnd (g : DropId)
  | composeLate (g : DropId)
  | waferJobStart (g : DropId) (i : CalIndex)
  | waferJobEnd (lane : LaneId)
  | waferLate (g : DropId) (i : CalIndex)
  | wafDropRefresh (who : Requester) (v : W32)
  | pictureDecoded (slot : StreamSlot) (info : PictureInfo)
  | streamPauseEnd (slot : StreamSlot)
  | coreUpset (n : CodecCore) (slot : StreamSlot)
  | stale (p : PartId)
  | prefetchExpiry (p : PartId) (w : Fin 256)
  | claim (p : PartId)
  | release (p : PartId)
  | semaphoreExpiry (p : PartId)
  | brgJrnAckWrite (p : PartId) (v : W32)
  | doorbell (who : Requester) (v : W32)
  | holdoffExpiry (grp : GroupId)
  | deliveryWindowClose
  | evcMaskWrite (who : Requester) (v : W32)
  | evcVectorWrite (p : PartId) (v : W32)
  | evcSrcAck (p : PartId) (v : W32)
  | evcGrpHoldoffWrite (who : Requester) (grp : GroupId) (v : W32)
  | evcRouteWrite (who : Requester) (v : W32)
  | evcCoreClaim (who : Requester) (c : CtlCore)
  | evcImaskWrite (who : Requester) (c : CtlCore) (v : W32)
  | evcPcntWrite (who : Requester) (c : CtlCore) (v : W32)
  | grdEntrySelWrite (who : Requester) (b : PairId) (v : W32)
  | grdEntryLoad (who : Requester) (b : PairId) (v : W32)
  | grdBankSwap (who : Requester) (b : PairId) (v : W32)
  | grdCapClear (who : Requester) (b : PairId) (v : W32)
  | grdCapAddrLoRead (who : Requester) (b : PairId)
  | grdSegEnWrite (who : Requester) (s : SegId) (v : W32)
  | stickyClear (who : Requester) (addr v : W32)
  | fltFirstLoRead (who : Requester)
  | bucketStart (cls : Nat)
  | coalesceIntervalEnd (isFault : Bool) (cls index : Nat)
  | segmentRestore (who : Requester) (v : W32)
  | coreRestore (who : Requester) (v : W32)
  | fltLogCfgEn (p : PartId) (v : W32)
  | fltLogHeadWrite (p : PartId) (v : W32)
  | powerFailWarning (lineDv : Nat)
  | mainsRestored
  | dcRegulationLoss
  | mainsCycle (lineDv : Nat)
  | psuLimitChange (quarterWatts : Nat)
  | powerGrantPeriod (requests draws : List Nat)
  | thermalWarning (tenths : Int)
  | thermalTrip (tenths : Int)
  | thermalRestart (tenths : Int)
  | fanFailure (m : Fin 4) (failed : Bool)
  | memoryError (addr : BitVec 35) (kind : MemError)
  | vendorCoreRestart (c : Fin 2)
  | vendorCoreRunning (c : Fin 2)
  | crcReport (s : SegId)
  | thumbnailDue (g : DropId)
  | captureResponse (s : SegId)
  | chunkResponse (s : SegId)
  | thumbnailEncoded (g : DropId) (bitstreamLens : List Nat)
  | telemetryDue (g : DropId)
  | telemetryResponse (s : SegId)
  | rtvRingCfgEn (p : PartId) (v : W32)
  | rtvRingHeadWrite (p : PartId) (v : W32)
  | rtvDropCfgWrite (p : PartId) (v : W32)
  | coreStart (c : CustCore)
  | ccTaskGo (c : CustCore) (v : W32)
  | taskExit (c : CustCore) (cause : TaskCause)
  | kick (c : CustCore) (v : W32)
  | watchdogHalf (c : CustCore)
  | watchdogExpiry (c : CustCore)
  | customerRestart (c : CustCore)
  | ccFbPublish (c : CustCore) (v : W32)
  | ccTimer (c : CustCore) (n : Fin 4)
  | ccTmrLoWrite (c : CustCore) (n : Fin 4) (v : W32)
  | ccTmrLoRead (who : Requester) (c : CustCore) (n : Fin 4)
  | dcGood (serviceModePinLow : Bool) (rtcNs : Nat)
  | startUpComplete
  | bootCalendarInstall (s : SegId)
  | standbyPageCopy
  | trialTimeout
  | trialEnd
  | mapWrite (m : PartMap) (formatOk : Bool)
  | mapRead
  | mapFactory
  | mapCapture
  | fwWrite (img : FwImage)
  | fwActivate
  | fwCommit (fuse : Bool)
  | ccWrite (c : CustCore) (img : CustImage)
  | ccActivate (c : CustCore)
  | calLoad (g : DropId) (w : CalWrite)
  | calRevert (g : DropId)
  | pageWrite (i : Fin 256) (page : Image)
  | restartCold
  | restartWarm
  | segReset (s : SegId)
  | segAccess (g : DropId) (acc : SegAccess)
  | coreRun (c : CustCore) (run : Bool)
  | flt (op : FltOp)
  | trace
  | store
  | attnReleased (s : SegId)
  | powerFailWarningClear
  | thermalWarningClear (tenths : Int)
  | dhcpAnswer (port : NetPort) (addr : W32) (prefixLen : Nat) (gateway : W32)
  | dhcpRequestTimer (port : NetPort)
  | leaseLost (port : NetPort)
  | arpIcmpEchoRequest (port : NetPort) (query : NetQuery) (payload : Nat)
  | servicePortClient (opening : Bool) (chainOk : Bool)
  deriving DecidableEq, Repr

end Sys2Proof
end

