-- ==== Sys2Proof/Config.lean ====
section
/-! DEFINITION. The free values: constants without a body for what the spec leaves open or takes from a standard it only names. -/

namespace Sys2Proof

/-- A sample that a codec's standard defines for a frame of the newest of the access units fed since STREAM_START, newest first: codec, AV1
operating point, film grain applied; which frame of the unit; the samples of the concealment source, which stands in for a missing reference
(R285); plane (0 luma, 1 Cb, 2 Cr) and position. The spec fixes it only by naming the standard (R266). -/
opaque Config.decodedSample (codec op : Nat) (grain : Bool) (history : List CodedUnit) (frame : Nat) (source : Nat → Nat → Nat → Nat)
    (plane x y : Nat) : Nat

/-- A sample copied from a concealment source of another depth, or that has no such position: the spec says only "the same positions" (R286). -/
opaque Config.unlikeSource (source : Nat → Nat → Nat → Nat) (depth plane x y : Nat) : Nat

/-- The wanted correction in units of 10^-3 ppb that the servo derives from an offset measurement; the law is not stated (R55). -/
opaque Config.servoCorrection (draw : Nat) (offsetNs : Int) : Int

/-- The OCXO control voltage that the servo asks for with a measurement, as the pull it makes in units of 10^-3 ppb; no law is stated
(R53). -/
opaque Config.servoVoltage (draw : Nat) (offsetNs : Int) : Int

/-- The fan speed at the hottest measured temperature; that it follows the temperature is stated, its law is not (R34). -/
opaque Config.fanSpeed (tenths : Int) : Nat

/-- The MAC address that Lamorun assigned to an Ethernet port of this unit (R45). -/
opaque Config.macAddress (timingPort : Bool) : BitVec 48

/-- The bytes of the object pool that a drop of this size takes for its surface's buffers (0), its uniformity map (1), its Wafer reference copy
(2), its thumbnail (3); the spec states none (R12). -/
opaque Config.dropMemory (kind width height : Nat) : Nat

/-- A byte of the H.265 bitstream made at a QP of a 4:2:0 picture given as its luma, Cb and Cr samples; the encoder's choices are not
stated (R391). -/
opaque Config.thumbnailByte (draw qp : Nat) (picture : List Int) (index : Nat) : Byte

/-- A pixel of what customer firmware has drawn into a fallback image by the time its publication is taken (R474). -/
opaque Config.customerPixel (draw index : Nat) : W32

/-- Silicon and board revision of this unit, coded as R120 says (R136: per unit). -/
opaque Config.siliconRev : Byte

/-- Board revision of this unit (R136: per unit). -/
opaque Config.boardRev : Byte

/-- The codec clocks and fabric clocks a job keeps its unit busy, counted in units of 1,024; the spec gives only bounds (R291, R327, R358). -/
opaque Config.busyClocks (draw : Nat) : Nat

/-- Which private source of 16–31 carries a vendor event of CC0 and CC1: 0 fault collector, 1 power arbiter, 2 timebase (R404, log entry 140). -/
opaque Config.vendorEvent (kind : Nat) : Nat

end Sys2Proof
end

