-- ==== Sys2Proof/Machine/Bits.lean ====
section
/-! DEFINITION. Arithmetic and bit helpers: rounding and saturation (R6, R7), little-endian bytes (R2), bit fields, CRCs (R87, R379). -/

namespace Sys2Proof.Machine

/-! ### Rounding and saturation -/

/-- n ÷ d rounded half to even, d > 0 (R6). -/
def roundHalfEven (n : Int) (d : Nat) : Int :=
  let q := n.fdiv d
  let r := n - q * d
  if 2 * r < d then q
  else if 2 * r > d then q + 1
  else if q % 2 = 0 then q else q + 1

/-- x limited to lo … hi. -/
def clampInt (lo hi x : Int) : Int := if x < lo then lo else if x > hi then hi else x

/-- ⌈a ÷ b⌉. -/
def ceilDiv (a b : Nat) : Nat := (a + b - 1) / b

/-- A count of w bits that holds at all ones (R7). -/
def satInc {w : Nat} (x : BitVec w) : BitVec w := if x = BitVec.allOnes w then x else x + 1

/-- A count of w bits increased by n that holds at all ones. -/
def satAdd {w : Nat} (x : BitVec w) (n : Nat) : BitVec w := BitVec.ofNat w (min (x.toNat + n) (2 ^ w - 1))

/-! ### Bit fields of naturals -/

/-- Bits [hi:lo] of x. -/
def field (x hi lo : Nat) : Nat := (x / 2 ^ lo) % 2 ^ (hi + 1 - lo)

/-- Bit i of x. -/
def bitOf (x i : Nat) : Bool := x.testBit i

/-- The value of a bit. -/
def b2n (b : Bool) : Nat := if b then 1 else 0

/-- A list of (value, lowest bit) fields as one number. -/
def packFields (fs : List (Nat × Nat)) : Nat := fs.foldl (fun a f => a + f.1 * 2 ^ f.2) 0

/-- The signed value of the low w bits of x. -/
def signedOf (x w : Nat) : Int :=
  let m := x % 2 ^ w
  if m < 2 ^ (w - 1) then (m : Int) else (m : Int) - (2 ^ w : Nat)

/-- x as w bits of two's complement. -/
def unsignedOf (x : Int) (w : Nat) : Nat := (x % (2 ^ w : Nat)).toNat

/-! ### Little-endian bytes (R2) -/

/-- The n low bytes of x, lowest first. -/
def leBytes (x n : Nat) : List Byte := (List.range n).map (fun i => BitVec.ofNat 8 (x / 256 ^ i))

/-- The value of bytes given lowest first. -/
def ofLe (bs : List Byte) : Nat := bs.foldr (fun b a => b.toNat + 256 * a) 0

/-- A record of bytes from its DWords, in order. -/
def recordBytes (ws : List Nat) : List Byte := ws.flatMap (fun w => leBytes w 4)

/-- The DWords of a byte list, the last one filled with zeros. -/
def dwordsOf (bs : List Byte) : List Nat :=
  (List.range (ceilDiv bs.length 4)).map (fun i => ofLe ((bs.drop (4 * i)).take 4))

/-- The bytes of a QWord as two DWords, low first. -/
def qword (x : Nat) : List Nat := [x % 2 ^ 32, x / 2 ^ 32 % 2 ^ 32]

/-! ### CRC-16 of Colant-2 (R87) -/

/-- One byte into the CRC-16 with polynomial 0x1021. -/
def crc16Byte (crc : W16) (b : Byte) : W16 :=
  (List.range 8).foldl (fun c _ => if c.msb then (c <<< 1) ^^^ 0x1021 else c <<< 1) (crc ^^^ (b.zeroExtend 16 <<< 8))

/-- The CRC-16 over words, each as its high byte and then its low byte. -/
def crc16 (ws : List W16) : W16 :=
  ws.foldl (fun c w => crc16Byte (crc16Byte c (w.extractLsb' 8 8)) (w.extractLsb' 0 8)) 0xFFFF

/-! ### CRC-32 of IEEE 802.3 (R328, R379) -/

/-- One byte into the reflected CRC-32. -/
def crc32Byte (crc : W32) (b : Byte) : W32 :=
  (List.range 8).foldl (fun c _ => if c.getLsbD 0 then (c >>> 1) ^^^ 0xEDB88320 else c >>> 1) (crc ^^^ b.zeroExtend 32)

/-- The CRC-32 of bytes. -/
def crc32 (bs : List Byte) : W32 := (bs.foldl crc32Byte 0xFFFFFFFF) ^^^ 0xFFFFFFFF

/-! ### Lists -/

/-- The first index at which f holds. -/
def firstIdx {α : Type} (f : α → Bool) (l : List α) : Option Nat := l.findIdx? f

/-- The elements from a to b, as naturals. -/
def natRange (a b : Nat) : List Nat := (List.range (b + 1 - a)).map (· + a)

/-- The smallest of a list, if any. -/
def minNat? (l : List Nat) : Option Nat := l.foldl (fun m x => match m with | none => some x | some y => some (min x y)) none

/-- The largest of a list, 0 of none. -/
def maxNat (l : List Nat) : Nat := l.foldl max 0

/-- The sum of a list. -/
def sumNat (l : List Nat) : Nat := l.foldl (· + ·) 0

/-- l with element i replaced. -/
def setAt {α : Type} (l : List α) (i : Nat) (a : α) : List α := l.set i a

end Sys2Proof.Machine
end

