-- ==== Sys2Proof/Machine/Tbl.lean ====
section
/-! DEFINITION. Sparse tables: registers (every index has a value, a default is not listed) and objects (an index may not exist). -/

namespace Sys2Proof.Machine

/-- The record listed at index k, if any. -/
def tblFind {α : Type} (t : Tbl α) (k : Nat) : Option α :=
  match t with
  | [] => none
  | (i, a) :: rest => if i = k then some a else tblFind rest k

/-- List record a at index k, in place of what was there; the rising order is kept. -/
def tblPut {α : Type} (t : Tbl α) (k : Nat) (a : α) : Tbl α :=
  match t with
  | [] => [(k, a)]
  | (i, b) :: rest =>
    if k < i then (k, a) :: (i, b) :: rest
    else if k = i then (k, a) :: rest
    else (i, b) :: tblPut rest k a

/-- Drop index k from the table. -/
def tblErase {α : Type} (t : Tbl α) (k : Nat) : Tbl α :=
  match t with
  | [] => []
  | (i, b) :: rest => if i = k then rest else (i, b) :: tblErase rest k

/-- The record of a register table: what is listed, and the default d otherwise. -/
def tblGet {α : Type} (d : α) (t : Tbl α) (k : Nat) : α := (tblFind t k).getD d

/-- Set a register table's record; the default is never listed. -/
def tblSet {α : Type} [DecidableEq α] (d : α) (t : Tbl α) (k : Nat) (a : α) : Tbl α :=
  if a = d then tblErase t k else tblPut t k a

/-- The canonical form: indices strictly rising. -/
def tblRising {α : Type} : Tbl α → Bool
  | [] => true
  | [_] => true
  | (i, _) :: (j, b) :: rest => decide (i < j) && tblRising ((j, b) :: rest)

/-- The canonical form of a register table: strictly rising, and the default not listed. -/
def tblWf {α : Type} [DecidableEq α] (d : α) (t : Tbl α) : Bool :=
  tblRising t && t.all (fun e => decide (e.2 ≠ d))

/-- Change every record of a table. -/
def tblMap {α : Type} (f : Nat → α → α) (t : Tbl α) : Tbl α := t.map (fun e => (e.1, f e.1 e.2))

/-- Keep the records for which f holds. -/
def tblFilter {α : Type} (f : Nat → α → Bool) (t : Tbl α) : Tbl α := t.filter (fun e => f e.1 e.2)

end Sys2Proof.Machine
end

