-- ==== Sys2Proof/Machine/State.lean ====
section
/-! DEFINITION. The state of the unit: every register, queue, object and mode the spec gives it, as plain data. A record's default
field values are its reset values; where the spec gives none the log entry 1 names them (zero, empty, none). -/

namespace Sys2Proof.Machine

/-- Why the unit stops with a fault: never. The spec gives every condition an outcome in which the unit goes on, so no constructor
exists; a fault of the unit's own fault collector (R444) is state, not a stop. -/
inductive Fault where
  deriving DecidableEq, Repr

/-- Why a command has no meaning. -/
inductive Refusal where
  /-- Raised by an arm of exec whose command has no meaning yet. Safe: the run stops. -/
  | notModelled (mnemonic : String)
  deriving DecidableEq, Repr

/-! ### Timebase (R51–R69) -/

inductive TbState where
  | freeRun | acquiring | locked | holdover
  deriving DecidableEq, Repr

/-- A foreign master heard (R57): its domain, what its last Announce said, when it and the one before it arrived, and its announce interval
in ticks. -/
structure Foreign where
  id : Nat
  domain : Nat
  quality : ClockQuality
  tick : Nat
  before : Option Nat
  interval : Nat
  deriving DecidableEq, Repr

/-- The last offset measured by PTP, with the unit time and the local tick of its measurement (R58). -/
structure PtpFix where
  off : Int
  ns : Nat
  tick : Nat
  deriving DecidableEq, Repr

structure Timebase where
  tick : Nat := 0                 -- local 10 ns ticks since the model's start (model's own clock for intervals)
  acc : BitVec 96 := 0            -- unit time: ns in [95:32], fraction in [31:0] (R54)
  rate : W32 := 0
  src : BitVec 2 := 1
  stepEn : Bool := false
  stepLo : W32 := 0
  stepHi : W32 := 0
  stepArmed : Option (Int × Nat) := none
  ppsReject : W16 := 0
  taiValid : Bool := false
  ppsPresent : Bool := false
  ptpPresent : Bool := false
  state : TbState := .freeRun
  offset : W32 := 0
  domain : Byte := 0
  transport : BitVec 2 := 0
  delayReqLog : BitVec 4 := 0
  ppsInDelay : W16 := 0
  ppsOutEn : Bool := true
  ppsInTerm : Bool := false
  utcValid : Bool := false
  utcOffset : W16 := 0
  satCount : W32 := 0
  hiLatch : Tbl W32 := []
  goodRun : Nat := 0
  badRun : Nat := 0
  firstOffsets : List Int := []
  initStepDone : Bool := false
  lockedEver : Bool := false
  initStep : Option Int := none           -- a step of R61, applied at the next tick
  ptpFix : Option PtpFix := none          -- last offset measured by PTP from the selected master
  roundTrip : Option Int := none          -- twice the mean path delay to the selected master, ns
  transit : Option Int := none            -- transit of the last Sync: received less origin, ns
  syncUsed : Bool := false                -- that Sync has given an offset
  delayReqTick : Option Nat := none       -- when the last Delay_Req was sent
  rateLog : List (Int × Int) := []        -- RATE and control voltage at each whole second of lock, newest first, at most 1,000
  ocxoVolt : Int := 0                     -- control voltage, as the pull it makes in 10^-3 ppb
  masters : List Foreign := []            -- foreign masters heard
  master : Option Nat := none
  ppsTick : Option Nat := none
  twoStepWait : Option (Nat × Nat) := none         -- (master, received ns) of a two-step Sync awaiting its Follow_Up
  lastSyncTick : Option Nat := none
  ppsOutSecond : Nat := 0                 -- the last whole second PPS OUT has passed
  deriving DecidableEq, Repr

/-! ### Supply, thermal, fans, network ports (R32–R50, R372–R377) -/

structure NetState where
  addr : Option (W32 × Nat × W32) := none   -- address, prefix length, gateway
  leased : Bool := false
  requestTick : Option Nat := none          -- start of the present run of DHCP requests
  lastRequest : Option Nat := none
  deriving DecidableEq, Repr

structure Plant where
  warn : Bool := false
  lineReadings : List (Nat × Nat) := []     -- (tick, RMS in 0.1 V), newest first
  lineDv : Nat := 0
  restoreTick : Option Nat := none          -- since when the input has stayed at or above 80 V
  psuLimit : W16 := 0x3C0
  pool : W16 := 0
  short : Bool := false
  overrun : Bool := false
  grants : Tbl Nat := []
  overRuns : Tbl Nat := []
  grantTick : Option Nat := none
  junction : Int := 0
  fans : Tbl Bool := []                     -- module -> failed or absent
  halted : Bool := false                    -- FREEZE of a power fail in force, output awaits mains restoration (R39)
  timing : NetState := {}
  service : NetState := {}
  svcClient : Bool := false
  svcBusy : Bool := false
  svcEpoch : W32 := 0                 -- epoch of bank pair 10 when the access in flight was checked (R435)
  deriving DecidableEq, Repr

/-! ### Rings and sessions (R141–R164) -/

inductive RingState where
  | absent | active | error
  deriving DecidableEq, Repr

/-- What a ring's present command waits for (R153, R498). -/
inductive Wait where
  | feedSpace (slot : Nat) (bytes : Nat)
  | drain (w : Nat)
  | fence (items : List Nat)
  | restore (g : Nat)
  | reads (ids : List Nat) (got : List (Nat × List Byte)) (failed : Bool)
  | close
  deriving DecidableEq, Repr

structure Fetched where
  index : Nat
  entry : BitVec 512
  deriving DecidableEq, Repr

structure Ring where
  state : RingState := .absent
  sqAddr : W64 := 0
  cqAddr : W64 := 0
  sqLog2 : Nat := 4
  cqLog2 : Nat := 4
  sqTail : Nat := 0          -- last accepted doorbell
  sqHead : Nat := 0          -- next entry to fetch
  cqHead : Nat := 0          -- last accepted doorbell
  cqTail : Nat := 0          -- next completion to write
  unreleased : Nat := 0      -- completions written and not released
  phase : Bool := true
  reading : Nat := 0         -- entries whose read is outstanding
  announced : Tbl Nat := []  -- SQ index -> next item number at the doorbell that announced the entry (R202)
  fetched : List Fetched := []
  wait : Option Wait := none
  validNs : Nat := 0         -- validation time of the waiting command
  retryTick : Option Nat := none
  retried : Bool := false
  descs : List (Nat × Nat) := []   -- bus addresses and lengths a waiting feed reads, once known (R167)
  deriving DecidableEq, Repr

inductive Session where
  | closed | opened | lapsed
  deriving DecidableEq, Repr

/-! ### Bridge (R180–R220) -/

inductive WinState where
  | disabled | enabled | draining
  deriving DecidableEq, Repr

structure ReadAhead where
  words : List (Nat × W16)     -- unreturned words, by word address
  destructive : Bool
  tick : Nat
  deriving DecidableEq, Repr

structure Window where
  state : WinState := .disabled
  guest : Bool := false
  isSet : Bool := false
  haddr : W64 := 0
  sizeLog2 : Nat := 0
  cbase : Nat := 0
  swap : BitVec 2 := 0
  prefetch : Bool := false
  force : Bool := false
  hold : Nat := 0
  drop : Nat := 0
  seg : Nat := 0
  failCnt : W16 := 0
  pfSuspended : Bool := false
  discard : Bool := false
  ahead : Option ReadAhead := none
  deriving DecidableEq, Repr

structure JrnEntry where
  seq : W32
  cause : BitVec 4
  nowin : Bool
  dir : Bool
  seg : Nat
  drop : Nat
  window : Nat
  words : Nat          -- words minus 1
  nak : Byte
  addr : Nat           -- word address, or BAR2 offset bits [33:1] for NO_WINDOW
  time : W32
  deriving DecidableEq, Repr

inductive ColOp where
  | rd | wr | rdb | wrb | lockrd | unlockwr
  deriving DecidableEq, Repr

/-- One Colant command of a bridge item (R188), with the window it came through. For a read, halves are the 16-bit host positions
(BAR2 offset ÷ 2) that its words answer, in order; a word nobody asked for has none. -/
structure ColCmd where
  op : ColOp
  window : Nat
  seg : Nat
  drop : Nat
  swap : BitVec 2
  addr : Nat
  len : Nat
  data : List W16
  halves : List (Option Nat)
  fill : Bool                  -- a read-ahead block: what is not returned stays in the window's buffer (R204)
  deriving DecidableEq, Repr

/-- A failed part of a host read or AtomicOp (R198, R199). -/
structure FailRec where
  key : Nat                    -- place in address order
  cause : Nat
  nak : Byte
  window : Nat
  addr : Nat
  deriving DecidableEq, Repr

/-- The host read an item answers (R187, R203). -/
structure ReadReq where
  off : Nat
  dwords : Nat
  tag : Nat
  got : List (Nat × W16)       -- host halves read so far, as the host orders their two bytes
  fails : List FailRec
  parts : Nat := 0             -- RDATAs received for it: places of the Colant-to-host completion buffer (R191)
  deriving DecidableEq, Repr

/-- An AtomicOp under way (R211): step 0 waits for the semaphore, 2–6 are the numbered steps. -/
structure AtomicRun where
  kind : AtomicKind
  n : Nat                      -- Colant words
  operand : Nat
  compare : Nat
  tag : Nat
  step : Nat
  window : Nat
  seg : Nat
  drop : Nat
  swap : BitVec 2
  addr : Nat
  got : List (Nat × W16)       -- words read, by position 0 … n − 1
  fail : Option FailRec
  deriving DecidableEq, Repr

/-- A host item in the bridge's buffers (R191): a posted write command, a read request or an AtomicOp. -/
structure Item where
  id : Nat
  arrival : Nat
  cmds : List ColCmd           -- not yet performed; the head is next
  issued : Bool                -- the head is on the wires
  retries : Nat
  read : Option ReadReq
  atomic : Option AtomicRun
  epoch : W32
  windows : List Nat           -- windows it was accepted through (R171)
  write : Nat := 0             -- number of the host write it is a command of (R196)
  captured : Bool := false     -- a part of that host access has been refused and captured: one access is one violation (R437)
  staleSeen : Bool := false    -- a command of that write has counted in BRG_STAT.STALE (R220)
  deriving DecidableEq, Repr

/-- A waiting zero-length read: its tag, its window, and the items it waits for (R171, R190). -/
structure ZeroRead where
  tag : Nat
  window : Nat
  items : List Nat
  deriving DecidableEq, Repr

structure ReadErr where
  valid : Bool := false
  cause : BitVec 4 := 0
  nowin : Bool := false
  window : Nat := 0
  offsetHi : Nat := 0
  nak : Byte := 0
  addr : Nat := 0
  deriving DecidableEq, Repr

inductive SemOwner where
  | none | host | atomic | guest
  deriving DecidableEq, Repr

/-- Who waits for the bridge semaphore, in order of arrival (R210). -/
inductive SemWaiter where
  | atomic (item : Nat)
  | guest (seg : Nat)
  deriving DecidableEq, Repr

/-- A guest write with a Colant-to-host posted entry: what is sent, and where it came from (R191, R208). -/
structure GuestPost where
  pieces : List (Nat × List Byte)   -- the runs of enabled bytes of the one memory write: bus address and bytes
  seg : Nat
  drop : Nat
  window : Nat
  word : Nat
  len : Nat
  unlock : Option Nat               -- an UNLOCKWR's hold of the semaphore (R210)
  epoch : W32                       -- epoch of its check (R435)
  deriving DecidableEq, Repr

structure Bridge where
  windows : Tbl Window := []
  winSel : Byte := 0
  journal : Tbl JrnEntry := []
  jrnNext : W32 := 1
  jrnAck : W32 := 0
  jrnLost : W32 := 0
  kept : List JrnEntry := []          -- failures kept between sessions (R200)
  keptLost : Nat := 0
  fenceSeqs : List W32 := []          -- DIR 0 SEQs since the last fence (R202)
  semOwner : SemOwner := .none
  semExpiry : Option Nat := none
  semSeg : Nat := 0
  semDrop : Nat := 0                  -- the guest owner's drop number (R219)
  semField : Nat := 0                 -- the DROP field and address of its LOCKRD
  semAddr : Nat := 0
  semHold : Nat := 0                  -- holds granted to guests so far
  semExpired : Bool := false
  semWaiting : List SemWaiter := []
  rdErr : ReadErr := {}
  lateCpl : W16 := 0
  staleCnt : W16 := 0
  items : List Item := []
  zeroReads : List ZeroRead := []     -- waiting zero-length reads (R190)
  guestPosted : List GuestPost := []  -- Colant-to-host posted entries, oldest first (R191, R208)
  deriving DecidableEq, Repr

/-! ### Shapers, images, report and log rings of a partition -/

structure Shaper where
  rate : Nat := 0
  burst : Nat := 0
  credit : Int := 0                   -- 10^-5 w2 (R253)
  bucket : Option Nat := none         -- ns of the wheel bucket (R255)
  deriving DecidableEq, Repr

structure HostImage where
  format : Nat
  colour : Nat
  width : Nat
  height : Nat
  visible : List W32
  pending : Option (List W32)
  completed : Bool                    -- the pending copy holds a completed IMAGE_WRITE (R301)
  uid : Nat                           -- a number of its own: an index can be used again while a pass still reads its last image (R302)
  deriving DecidableEq, Repr

structure LogRec where
  type : Nat
  cls : Nat
  index : Nat
  threshHit : Bool
  time : Nat
  count : Nat
  detail : W32
  window : Nat
  part : Nat                              -- owning partition, for the trace buffer (R462)
  deriving DecidableEq, Repr

structure RecRing where
  addr : W64 := 0
  en : Bool := false
  log2 : Nat := 6
  head : Nat := 0
  tail : Nat := 0
  rseq : W32 := 1
  lost : W32 := 0
  lostSince : Nat := 0
  waiting : List LogRec := []         -- decided log records not yet in host memory (R461)
  deriving DecidableEq, Repr

structure Rtv where
  thumbAddr : W64 := 0
  qp : Nat := 0x1E
  slots : Nat := 0
  stale : W16 := 0
  thumbLost : Byte := 0
  tlmSat : Byte := 0
  dropSel : BitVec 11 := 0
  usedSlots : List (Nat × Nat) := []  -- (thumbnail slot, ring index of its record)
  deriving DecidableEq, Repr

structure MsixVec where
  addr : W64 := 0
  data : W32 := 0
  mask : Bool := true
  pending : Bool := false
  deriving DecidableEq, Repr

inductive DState where
  | d0 | d3hot
  deriving DecidableEq, Repr

/-- A completion entry held in D3hot or with Bus Master Enable 0 (R129, R130): ring, address and bytes. -/
structure HeldCpl where
  ring : Nat
  addr : Nat
  bytes : List Byte
  deriving DecidableEq, Repr

/-- Memory of a destroyed object that passes begun with it still read (R29, R302): its bytes, the index it held where that was a stream's, and
the passes by drop and presentation instant. -/
structure Gone where
  bytes : Nat
  stream : Option Nat
  readers : List (Nat × Nat)
  deriving DecidableEq, Repr

/-- What holds a link down: PERST# asserted, no reference clock, Link Disable (R41, R119). -/
structure LinkHolds where
  perst : Bool := false
  noClock : Bool := false
  disabled : Bool := false
  deriving DecidableEq, Repr

/-- Errors a function has reported through AER (R117, R133, R135). -/
structure Aer where
  poisoned : Bool := false
  timeout : Bool := false
  unsupported : Bool := false
  abort : Bool := false
  deriving DecidableEq, Repr

/-- Device Control, Device Control 2 and AER's control of a function (R117): encodings as PCI Express has them. -/
structure DevCtl where
  mps : BitVec 3 := 0
  mrrs : BitVec 3 := 2
  timeoutRange : BitVec 4 := 0
  timeoutOff : Bool := false
  ecrcGenerate : Bool := false
  ecrcCheck : Bool := false
  deriving DecidableEq, Repr

structure Partition where
  ready : Bool := false               -- configuration requests are answered (R119)
  l0Tick : Option Nat := none         -- when the link came back to L0
  linkUp : Bool := false
  holds : LinkHolds := {}
  inL1 : Bool := false
  mse : Bool := false
  bme : Bool := false
  aspmEn : Bool := false
  speed : BitVec 4 := 0
  width : BitVec 6 := 0
  degraded : Bool := false
  downCnt : Byte := 0
  idleTick : Nat := 0                 -- last tick with anything to send or outstanding (R131)
  dstate : DState := .d0
  pmeEn : Bool := false
  pmeStatus : Bool := false
  pmeSent : W16 := 0
  pmeTick : Option Nat := none
  held : List HeldCpl := []
  hstErr : BitVec 5 := 0
  bars : Tbl W64 := []                -- addresses the host has written to the BARs
  dev : DevCtl := {}
  aer : Aer := {}
  vectors : Tbl MsixVec := []
  funcMask : Bool := false
  msixEn : Bool := false              -- MSI-X Enable, as written (log entry 126)
  admSq : W64 := 0
  admCq : W64 := 0
  admEn : Bool := false
  admSqLog2 : Nat := 4
  admCqLog2 : Nat := 4
  rings : Tbl Ring := []
  dbErr : W32 := 0
  lastRing : Nat := 15
  session : Session := .closed
  sessNum : W16 := 0
  level : Nat := 0
  hbMs : Nat := 0
  hbTick : Nat := 0                   -- tick of the last restart of the timer
  hbPaused : Bool := false
  fallback : Bool := false            -- FALLBACK of the latest session that has lapsed or ended, or the map's default (R476)
  sessFallback : Bool := false        -- FALLBACK as the latest OPEN_SESSION gave it
  opened : Bool := false              -- an OPEN_SESSION completed OK since start-up (R476)
  bridge : Bridge := {}
  shapers : Tbl Shaper := []
  schSel : BitVec 9 := 0              -- [8] COPY, [5:0] SEG (R258)
  gateSel : Byte := 0
  gateBaseHi : Tbl W32 := []          -- latches of GATE_BASE_HI and GATE_NEXT_HI by requester (R56, R509)
  gateNextHi : Tbl W32 := []
  evcSel : BitVec 12 := 0
  rtvRing : RecRing := {}
  rtv : Rtv := {}
  logRing : RecRing := {}
  images : Tbl HostImage := []
  memGone : List Gone := []           -- destroyed images and streams that passes begun still read (R29, R302)
  deriving DecidableEq, Repr

/-! ### Segments (R70–R115, R221–R263, R438–R443) -/

/-- The engine or duty a transaction on the wires belongs to. -/
inductive TxFor where
  | bridge (p item : Nat)
  | poll
  | keepalive
  | rtvCrc
  | rtvCapture
  | rtvChunk (c : Nat)
  | telemetry
  | qdelay
  | service
  deriving DecidableEq, Repr

structure Tx where
  who : TxFor
  requester : Nat
  drop : Nat
  op : Nat
  addr : Nat
  len : Nat
  data : List W16
  colant2 : Bool
  busy : Nat
  startTick : Nat
  predicted : Nat              -- predicted cost, w2 (R244)
  shaper : Option Nat          -- a bridge transaction's shaper
  epoch : W32 := 0             -- of bank pair 10, when a hardware block's access was checked (R435)
  deriving DecidableEq, Repr

/-- A housekeeping, telemetry or emergency item waiting for a grant. -/
structure HkItem where
  who : TxFor
  drop : Nat
  op : Nat
  addr : Nat
  len : Nat
  data : List W16
  emg : Bool
  epoch : W32 := 0             -- of bank pair 10, when it was checked (R435)
  deriving DecidableEq, Repr

inductive CalState where
  | clean | staged | pending
  deriving DecidableEq, Repr

structure Staged where
  state : CalState := .clean
  changes : Tbl W64 := []
  due : Nat := 0               -- unit time of the swap boundary (R173)
  deriving DecidableEq, Repr

/-- A vendor change of a calendar: a retired drop's entries become idle (R231), and the Whistle entries are derived again for a
segment that is mixed or not (R233). A commit brings one with its own derivation. -/
structure VendorChange where
  due : Nat                    -- unit time of the boundary
  idle : Option Nat            -- drop number
  mixed : Bool
  deriving DecidableEq, Repr

/-- What the segment's present stretch of words is (R223, R226). -/
inductive Region where
  | openTime
  | slot (i : Nat)
  deriving DecidableEq, Repr

structure GuestCmd where
  op : Nat
  drop : Nat
  addr : Nat
  len : Nat
  window : Nat
  arrival : Nat
  hold : Nat                   -- hold ceiling of the window, 100 ns units
  swap : BitVec 2
  base : Nat                   -- CBASE of the window
  bus : Nat                    -- the one memory read of a read: bus address and bytes
  busLen : Nat
  early : List (Nat × Nat)     -- reads of a split command performed beside it (R203)
  pieces : List (Nat × List Byte)   -- the one memory write of a write
  refused : Bool               -- a part was refused: NAK ACCESS once the rest is performed (R203)
  epoch : W32 := 0             -- of bank pair p, when it was checked (R435)
  deriving DecidableEq, Repr

inductive GuestWait where
  | read (cmd : GuestCmd) (id : Nat)
  | semaphore (cmd : GuestCmd)
  | posted (cmd : GuestCmd)
  | room (cmd : GuestCmd)        -- a read for which no Colant-to-host non-posted entry is free (R191, R208)
  deriving DecidableEq, Repr

structure Tenure where
  drop : Nat
  part : Nat
  colant2 : Bool
  startTick : Nat
  words : Nat
  returned : Bool
  frozen : Bool
  wait : Option GuestWait
  deriving DecidableEq, Repr

structure Arb where
  freeze : Bool := false
  holder : Nat := 0x1F
  usedW2 : Nat := 0
  holderLimit : Nat := 0
  last : Bool := false         -- the transaction on the wires is marked the last of its tenure (R247)
  next : Option Nat := none    -- winner registered and not yet on the wires
  nextLimit : Nat := 0         -- its tenure limit, fixed with the grant (R251)
  regionEnd : Nat := 0         -- offset at which the holder's region ends, and its tenure with it (R247)
  phaseTick : Option Nat := none -- the last grid point at which idle wires had a phase (R246)
  tail : Option Nat := none    -- requester whose last transaction, one without a response, the wires carry (R246, R247)
  preempt : W16 := 0
  cls : W32 := 0xAAAA0014
  leash : Tbl W32 := [(0, 0x00080800), (2, 0x10101010), (3, 0x10101010)]
  tenure : W32 := 0x20202020
  wait : Tbl Nat := []
  lastWin : Tbl Nat := []      -- group (0 forced, 1 + class) -> requester that last won
  deriving DecidableEq, Repr

structure Filter where
  en : Bool := true
  loadErr : Bool := false
  rdMask : W32 := 0xFFFFFFFF
  wrMask : W32 := 0xFFFFFFFF
  guestMask : W32 := 0
  prot0Base : Nat := 0xFFFF00
  prot0Last : Nat := 0xFFFF06
  prot1Base : Nat := 0xFFFF09
  prot1Last : Nat := 0xFFFF1F
  deriving DecidableEq, Repr

/-- A Retriever or telemetry answer received and not yet dealt with. -/
structure RtvIn where
  who : TxFor
  drop : Nat
  words : List W16
  tick : Nat
  deriving DecidableEq, Repr

/-- The FRAMEs of a picture slot that wait for a link-hold window, and the offset at which the next word of the slot goes (R235, R352). -/
structure SlotRun where
  drop : Nat
  colant2 : Bool
  off : Nat
  frames : List (List ColWord)
  deriving DecidableEq, Repr

structure Segment where
  clk : Bool := false
  clkStopTick : Option Nat := none
  resetDue : Bool := false              -- a segment reset has been decided (R457, R458, R487)
  enumerated : Bool := false
  started : Bool := false               -- a cycle runs
  cycleStartNs : Nat := 0               -- nominal start: the previous presentation instant
  beginNs : Nat := 0                    -- unit time at which the cycle began
  endNs : Nat := 0                      -- T, the presentation instant that ends the cycle
  cycleTick : Nat := 0
  wordsEnd : Nat := 0                   -- offset at which the words the wires carry without a response end
  calendar : Tbl W64 := []              -- active entries; an idle index is not listed
  staged : Tbl Staged := []             -- by partition
  vendor : List VendorChange := []      -- vendor changes in order of decision
  whistled : Bool := false              -- the active calendar's Whistle entries were derived for a mixed segment
  retired : Bool := false
  conflict : BitVec 32 := 0
  chargeC2 : Bool := false              -- a drop was in Colant-2 mode when its drivers were charged last (R362, R370)
  chargeDmax : Nat := 0                 -- Dmax when they were
  tx : Option Tx := none
  region : Region := .openTime
  whistleEnd : Option Nat := none       -- tick at which a Whistle period ends
  rate2 : Bool := false                 -- CLK runs at the Colant-2 frequency (R75)
  tenure : Option Tenure := none
  seq : Byte := 0
  syncNs : Option Nat := none           -- presentation instant of the SYNC launched and not yet reached
  syncC2 : Bool := false                -- that SYNC went at Colant-2 rate: the wires keep it up to the switch (R96)
  syncNow : Bool := false               -- a step of unit time jumped over the SYNC's time: it is due at once (R62)
  frozen : Bool := false
  freezeDue : Bool := false             -- FREEZE follows the response of the transaction on the wires (R83, R101)
  freezeAgain : Bool := false           -- a second FREEZE is due after a Whistle period or tenure (R101)
  resumeDue : Bool := true
  attn : Bool := false
  attnTick : Nat := 0
  pollLast : Nat := 31                   -- the drop polled last (R107); before the first, so that drop 0 is first (log entry 157)
  roundTick : Option Nat := none
  fullPollTick : Nat := 0
  zeroSince : Option Nat := none        -- since when every STAT has shown ATTN 0 while ATTN is asserted
  stray : Option Nat := none            -- since when the stray-attention condition lasts
  causes : BitVec 4 := 0                -- live causes: bit k-1 for cause k (R444)
  noAnswerTick : Option Nat := none
  stats : List (Nat × W16) := []        -- STATs received and not yet dealt with, oldest first
  rtvIn : List RtvIn := []              -- Retriever and telemetry answers not yet dealt with, oldest first
  rtvStep : Nat := 0                    -- next step of the Retriever slot: 0 CRC report, 1 capture, 2 + c chunk c (R385)
  hk : List HkItem := []
  arb : Arb := {}
  filter : Filter := {}
  linkHold : Nat := 0                   -- next link-hold point of the cycle
  run : Option SlotRun := none          -- the picture slot's FRAMEs between its link-hold windows
  deriving DecidableEq, Repr

/-! ### Drops, surfaces, Wafer (R169, R292–R358) -/

inductive DropState where
  | absent | active | fallback | retired
  deriving DecidableEq, Repr

/-- A resolved colour description (R309). prim: 0 BT.709, 1 BT.601 625-line, 2 BT.601 525-line, 3 BT.2020; trans: 0 BT.1886, 1 sRGB, 2 PQ,
3 HLG, 4 linear; matrix: 0 BT.709, 1 BT.601, 2 BT.2020, 3 identity. -/
structure ColourDesc where
  prim : Nat
  trans : Nat
  matrix : Nat
  full : Bool
  topLeft : Bool
  deriving DecidableEq, Repr

/-- The source of a page (R293). -/
inductive PageSource where
  | stream | image | solid
  deriving DecidableEq, Repr

structure Page where
  source : PageSource
  fit : Bool
  filter : Nat
  srcIndex : Nat
  opacity : Nat
  srcX : Nat
  srcY : Nat
  srcW : Nat
  srcH : Nat
  dstX : Int
  dstY : Int
  dstW : Nat
  dstH : Nat
  solid : List Nat
  solidColour : Nat
  gone : Bool                     -- its stream or image no longer exists (R168, R302)
  deriving DecidableEq, Repr

/-- The state of a surface or of a canvas (R292, R304). -/
structure Surface where
  background : List Nat := [0, 0, 0]
  pages : Tbl Page := []          -- layer × 16 + page
  sel : W16 := 0                  -- PAGES
  layerEn : BitVec 4 := 1
  bright : Byte := 255
  deriving DecidableEq, Repr

/-- A picture as coded: the access units since STREAM_START, newest first, which frame of the newest it is, its damaged blocks (of a frame coded in
fields those of the top field and of the bottom field, each counted in its field), its size and depth (R286). -/
structure CodedPicture where
  coded : List CodedUnit
  frame : Nat
  damaged : List Nat
  bottom : Option (List Nat)
  width : Nat
  height : Nat
  depth : Nat
  deriving DecidableEq, Repr

/-- A frame in memory (R282): what its samples are decoded from. Its pictures are its own and then its concealment sources, each standing in
for the one before where that is damaged and for its missing references (R285, R286). -/
structure Frame where
  uid : Nat                     -- rises in decode order
  slot : Nat                    -- unit slot of its stream
  n : Nat                       -- number in decode order since STREAM_START
  codec : Nat
  op : Nat
  grain : Bool
  pictures : List CodedPicture
  pts : Nat
  width : Nat
  height : Nat
  depth : Nat
  mono : Bool
  colour : ColourDesc
  concealed : Bool
  tainted : Bool
  chosen : Bool
  availTick : Nat
  deriving DecidableEq, Repr

/-- What a compose pass latched at K (R296). -/
structure Pass where
  kNs : Nat
  tNs : Nat
  surface : Surface
  frames : List (Nat × Frame)     -- layer -> frame chosen
  images : List (Nat × Image)     -- layer -> visible version
  imageIds : List Nat             -- the images it reads, by their numbers (R302)
  size : Nat × Nat                -- coordinate space of the layers: the surface, or the canvas (R304)
  origin : Int × Int              -- the drop's pixel (0, 0) in it
  fbImage : Option Image          -- fallback content, should the drop show it (R476)
  cal : CalSet
  deriving DecidableEq, Repr

structure SatCounters where
  scale : W32 := 0
  inmat : W32 := 0
  gamut : W32 := 0
  cal : W32 := 0
  unif : W32 := 0
  oetf : W32 := 0
  dither : W32 := 0
  deriving DecidableEq, Repr

/-- What a slice holds (R348, R350, R351). -/
inductive SliceKind where
  | changed | refined | fill
  deriving DecidableEq, Repr

/-- A slice: its payload words, the tiles it carries and their shifts, and what it leaves in the reference copy. -/
structure WafSlice where
  kind : SliceKind
  payload : List W16
  carried : List (Nat × Nat)           -- (tile, shift) (R333)
  out : List (Nat × List Nat)          -- pixel position × channel codes reconstructed
  deriving DecidableEq, Repr

/-- A finished Wafer job's slices for a slot, in the order of R352. -/
structure WafOut where
  index : Nat
  ver : Nat                        -- the Wafer version they are coded under
  slices : List WafSlice
  budget : Nat
  sent : Bool                      -- the slot's frames go out, or have gone
  deriving DecidableEq, Repr

structure WaferDrop where
  prevCodes : List Nat := []       -- the picture of the latest pass
  beforeCodes : List Nat := []     -- the picture that the latest pass's tiles were compared with (R332)
  ref : List Nat := []
  unknown : List Nat := []         -- tiles marked UNKNOWN
  changed : List Nat := []
  unsettled : List Nat := []
  lastShift : Tbl Nat := []
  pointer : Tbl Nat := []          -- slot ordinal -> refinement pointer
  outs : List WafOut := []
  sinceLastPoll : List Nat := []   -- tiles carried in frames since the last POLL
  force : Bool := false
  refreshCount : W16 := 0
  unsettledCnt : Nat := 0          -- UNSETTLED tiles after the last commit (R358)
  budget : Nat := 0
  changedCnt : W16 := 0
  refinedCnt : W16 := 0
  fillCnt : Nat := 0
  deriving DecidableEq, Repr

structure FbArea where
  visible : List W32 := []
  pendingHalf : List W32 := []
  queued : Bool := false
  queuedTick : Nat := 0
  pendingBuf : Bool := false
  overCnt : W16 := 0
  published : Bool := false        -- a publication taken since the core's last start
  supplying : Bool := false
  deriving DecidableEq, Repr

structure Thumb where
  due : Bool := false              -- a capture is due (R390)
  next : Option Nat := none        -- tick at which the next one falls due
  seq : Option Byte := none        -- SEQ of the capture in progress
  chunks : Tbl (List W16) := []
  deriving DecidableEq, Repr

structure Drop where
  state : DropState := .absent
  activeAt : Option Nat := none       -- hand-back presentation time (R163)
  fallbackFrom : Option Nat := none   -- unit time from which cycles carry fallback content (R161)
  desc : Option Descriptor := none    -- as last enumerated
  charge : Option Descriptor := none  -- as admission last charged its entries (R362)
  attnEn : W16 := 0
  qdelay : Nat := 0
  colant2 : Bool := false             -- mode on record (R88)
  wafer : Nat := 0
  depth : Nat := 6
  delay : Option Nat := none          -- one-way delay p, ns
  latched : BitVec 13 := 0            -- [12:8] and CAUSE (R213)
  lastStat : BitVec 3 := 0            -- bits [15:13] of the last STAT
  discardLoss : Bool := false         -- LINK_LOST and REVERTED of the next POLL are discarded (R514)
  renewDue : Bool := false
  pollTimeouts : Nat := 0             -- POLLs in a row that ended in a Colant timeout (R444)
  c2Silent : Nat := 0                 -- of these, those at Colant-2 rate since the drop is on record in that mode (R88)
  refreshTick : Nat := 0
  negoFail : Option Nat := none       -- tick of a failed negotiation (R113)
  pMeasTick : Nat := 0
  restoring : Bool := false
  surface : Surface := {}
  latchedSurface : Surface := {}
  canvas : Option Nat := none
  lastFrames : Tbl Frame := []        -- layer -> last frame used (R15)
  passes : List Pass := []            -- passes begun and not ended, oldest first
  lastK : Nat := 0
  lastT : Option Nat := none          -- the presentation instant of the latest pass begun
  instantT : Option Nat := none       -- the presentation instant of the latest compose instant, of a pass or not (R296)
  back : List Nat := []
  front : List Nat := []
  backFor : Option Nat := none        -- the presentation instant whose finished pass back holds
  lateFor : Option Nat := none        -- the presentation instant whose pass was late (R298)
  third : List Nat := []              -- the partition's own layers, composed beside fallback content (R299); empty: none
  sat : SatCounters := {}
  composeLate : W32 := 0
  calNow : Option CalSet := none      -- none: the default set
  calPrev : Option (Option CalSet) := none
  calNext : Option (Option CalSet) := none
  waf : WaferDrop := {}
  fb : FbArea := {}
  expected : List (Byte × List W32) := []  -- newest first, at most 4 (R387)
  crcEn : Bool := false
  thumbInt : Nat := 0
  tlmInt : Nat := 0
  mismatch : W16 := 0
  lastSeq : Byte := 0
  tlmStatic : List W16 := []          -- descriptor, gain, offset words of K channels
  tlmDue : Option Nat := none
  tlmLater : Option (List ColWord) := none   -- the answer to the static words' read, where that waits for the end of a failed negotiation's 3 ms (R113, R514)
  thumb : Thumb := {}
  presentedSeq : Byte := 0
  deriving DecidableEq, Repr

/-! ### Decode engine (R264–R291) -/

inductive StreamState where
  | idle | running | failed
  deriving DecidableEq, Repr

/-- A frame of which only the first field is decoded: whether it is to be output, and whether the field is a random access point (R276). -/
structure OpenField where
  frame : Frame
  output : Bool
  rap : Bool
  deriving DecidableEq, Repr

structure AccessUnit where
  bytes : Nat
  data : List Byte
  retries : Nat := 0                   -- times its decoding has begun again (R274)
  pts : Nat
  discontinuity : Bool
  endOfStream : Bool
  readFailed : Bool
  doneNs : Nat
  deriving DecidableEq, Repr

structure Stream where
  part : Nat
  index : Nat
  state : StreamState := .idle
  failReason : Nat := 0
  codec : Nat
  profile : Nat
  level : Nat
  flags : Nat
  maxW : Nat
  maxH : Nat
  maxFps : Nat
  dpb : Nat
  outFrames : Nat
  depth : Nat
  op : Nat
  inBuf : Nat
  frameDur : Nat
  colourDefault : Nat
  alloc : Nat
  q : Nat
  firstCore : Nat
  cores : Nat
  coreList : List Nat
  inUsed : Nat := 0
  queue : List AccessUnit := []
  lastPts : Option Nat := none
  needRap : Bool := true
  leading : Bool := false              -- since the random access point that started decoding, no other (R277)
  badSets : List Nat := []             -- invalid parameter sets no valid one has replaced (R285)
  freshPts : Bool := true              -- the next feed is the first after STREAM_START or END_OF_STREAM
  afterEos : Bool := false             -- the next feed follows an END_OF_STREAM (R279)
  pictures : Nat := 0                  -- pictures decoded since STREAM_START: n of R272
  avail : List Frame := []             -- available frames, oldest first
  heldForEos : List Frame := []
  paused : Bool := false
  errRun : Nat := 0
  taint : Bool := false
  maxPtsSeen : Option Nat := none
  frames : Nat := 0                    -- frames decoded since STREAM_START
  coded : List CodedUnit := []         -- access units since STREAM_START, newest first
  refs : List Frame := []              -- frames that references hold
  fieldOpen : Option OpenField := none
  firstUid : Nat := 0                  -- frames decoded before the stream was created have lower numbers
  startUid : Nat := 0                  -- those decoded before STREAM_START
  lastField : Bool := false            -- the last picture decoded was a field (R280)
  nextS : Nat := 0                     -- S of the next picture at the earliest (R280), in ns × 2 × MAX_FPS
  readyNs : Nat := 0                   -- since when the stream's next picture could be worked on
  decoded : W32 := 0
  concealed : W32 := 0
  cblocks : W32 := 0
  taintedCnt : W32 := 0
  skipped : W32 := 0
  unused : W32 := 0
  late : W32 := 0
  reorder : W32 := 0
  lastAvailPts : Nat := 0
  lastAvailTime : Nat := 0
  lastW : Nat := 0
  lastH : Nat := 0
  lastDepth : Nat := 0
  deriving DecidableEq, Repr

structure DecCore where
  retired : Bool := false
  upsets : W16 := 0
  retries : W16 := 0
  busy : Nat := 0                      -- codec clocks spent decoding
  deriving DecidableEq, Repr

/-! ### Canvases, gate lists, Wafer lanes -/

structure Canvas where
  part : Nat
  width : Nat
  height : Nat
  members : List (Nat × Int × Int)
  surface : Surface := {}
  lastFrames : Tbl Frame := []
  latched : Option Pass := none    -- what the members' passes for one presentation instant share
  deriving DecidableEq, Repr

inductive GateState where
  | idle | armed | running
  deriving DecidableEq, Repr

structure GateEntry where
  offset : Nat
  action : Nat
  target : Nat
  value : Nat
  deriving DecidableEq, Repr

structure GateList where
  part : Nat
  cycle : Nat
  group : List Nat
  entries : Tbl GateEntry := []
  state : GateState := .idle
  base : Nat := 0
  rep : Nat := 0
  next : Nat := 0
  applied : Tbl Nat := []          -- drop, or 2048 + canvas -> last presentation instant a pass has taken entries for
  deriving DecidableEq, Repr

structure WafJob where
  drop : Nat
  index : Nat
  out : Option WafOut              -- none: late, its frames are not sent (R354)
  deriving DecidableEq, Repr

structure WafUnit where
  late : W32 := 0
  csh : BitVec 2 := 1
  sel : BitVec 11 := 0
  busy : Tbl Nat := []             -- lane -> 15ths of a fabric clock spent encoding (R358)
  running : Tbl WafJob := []                 -- lane -> job
  released : List (Nat × Nat) := []          -- (drop, calendar index) jobs released and not started
  deriving DecidableEq, Repr

structure CmpUnit where
  late : W32 := 0
  busy : W32 := 0
  surfSel : BitVec 11 := 0
  canvasSel : BitVec 6 := 0
  clrSel : BitVec 11 := 0
  deriving DecidableEq, Repr

/-! ### Event controller (R399–R421) -/

/-- Where a source delivers (R405). -/
inductive Target where
  | vector (p v : Nat)
  | core (c : Nat)
  deriving DecidableEq, Repr

/-- The fields of a source's EVC_ROUTE, each as last written (R3, R421). -/
structure Route where
  tkind : Bool := false                 -- false: a partition vector; true: a core
  core : Nat := 0
  part : Nat := 0
  vector : Nat := 0
  deriving DecidableEq, Repr

structure Source where
  mask : Bool := true
  route : Option Route := none          -- none: the reset route (own partition's vector 0, or CC0)
  count : Byte := 0
  pending : Bool := false
  saturated : Bool := false
  window : Option (Nat × Target) := none -- close tick and the target the window resolved
  fired : Bool := false
  deriving DecidableEq, Repr

structure Group where
  holdoff : W16 := 0
  expiry : Option Nat := none
  deriving DecidableEq, Repr

structure PrivSource where
  mask : Bool := true
  count : Byte := 0
  pending : Bool := false
  saturated : Bool := false
  window : Option Nat := none
  delivered : Bool := false
  ripe : Bool := false                   -- a delivery window of that delivered bit has closed (R414)
  deriving DecidableEq, Repr

structure EvcCore where
  imask : Bool := true
  sleeping : Bool := false
  priv : Tbl PrivSource := []
  delivered : List Nat := []             -- shared sources delivered, ascending
  ripe : List Nat := []                  -- of these, those whose delivery window has closed (R414)
  intr : Bool := false
  cntSel : BitVec 6 := 0
  deriving DecidableEq, Repr

structure Evc where
  sources : Tbl Source := []
  groups : Tbl Group := []
  cores : Tbl EvcCore := []
  routeSel : BitVec 12 := 0
  deriving DecidableEq, Repr

/-! ### Guard (R422–R443) -/

structure Capture where
  valid : Bool := false
  partialAcc : Bool := false
  level : Bool := false
  kind : BitVec 2 := 0
  space : BitVec 2 := 0
  req : Byte := 0
  count : W16 := 0
  addr : W64 := 0
  time : W32 := 0
  epoch : W32 := 0
  deriving DecidableEq, Repr

structure BankPair where
  bankA : Tbl (BitVec 128) := []
  bankB : Tbl (BitVec 128) := []
  activeB : Bool := false
  epoch : W32 := 0
  view : Bool := false
  index : BitVec 9 := 0
  buffer : BitVec 128 := 0
  err : Bool := false
  errCode : BitVec 3 := 0
  errOther : BitVec 9 := 0
  cap : Capture := {}
  addrHi : Tbl W32 := []
  deriving DecidableEq, Repr

/-! ### Faults and logs (R444–R466) -/

structure FaultRec where
  sticky : Bool := false
  live : Bool := false
  rep : W16 := 0
  firstTime : W64 := 0
  firstDetail : W32 := 0
  deriving DecidableEq, Repr

structure WinCfg where
  thresh : Nat
  bucketMs : Nat
  next : Option (Nat × Nat × Nat) := none -- (unit time, thresh, bucketMs) of a change due at the next bucket start
  deriving DecidableEq, Repr

/-- An error window's buckets: (start ns, count), newest first (R451). -/
abbrev ErrWindow := List (Nat × Nat)

structure Coalesce where
  until_ : Nat                            -- tick at which the interval ends
  count : Nat
  detail : W32
  deriving DecidableEq, Repr

structure Flt where
  faults : Tbl FaultRec := []
  retrySeg : Nat := 2
  retryCore : Nat := 1
  winDrop : WinCfg := { thresh := 0x40, bucketMs := 1000 }
  winSeg : WinCfg := { thresh := 0x20, bucketMs := 1000 }
  winCore : WinCfg := { thresh := 8, bucketMs := 8000 }
  winStream : WinCfg := { thresh := 0x100, bucketMs := 1000 }
  selClass : BitVec 3 := 4
  selIndex : BitVec 11 := 0
  coalesceMs : Nat := 100
  ecc : W32 := 0
  sel : BitVec 12 := 0
  firstHi : Tbl W32 := []
  windows : Tbl ErrWindow := []           -- class × 4096 + index
  bucketStartNs : Tbl Nat := []           -- class -> start of the present bucket
  coalesce : Tbl Coalesce := []           -- class × 4096 + index, class 0 for a fault index
  trace : List LogRec := []               -- newest first, at most 524,288
  traceHead : BitVec 19 := 0
  traceWrap : W32 := 0
  store : List LogRec := []               -- newest first, at most 4,096
  storeRestored : Bool := false           -- mains restored since the last stored record (R448)
  storeTick : Tbl Nat := []               -- fault index -> tick of its last stored record
  deriving DecidableEq, Repr

/-! ### Customer cores, start-up, flash -/

inductive CcState where
  | stopped | running | verifyFail | gaveUp
  deriving DecidableEq, Repr

structure CcTimer where
  cmp : W64 := 0
  hiPending : Option W32 := none
  hiLatch : Tbl W32 := []
  deriving DecidableEq, Repr

structure CustomerCore where
  run : Bool := false
  fbFormat : Bool := false
  state : CcState := .stopped
  task : Bool := false
  loadErr : Nat := 0
  restarts : W16 := 0
  imgVer : W32 := 0
  taskEntry : W32 := 0
  taskCause : BitVec 4 := 0
  taskAddr : BitVec 28 := 0
  wdogTick : Nat := 0
  wdogHalf : Bool := false
  expiries : List Nat := []
  restartAt : Option Nat := none
  startDue : Bool := false             -- a start of R471 has been decided
  timers : Tbl CcTimer := []
  tmrEn : BitVec 4 := 0
  takeover : Byte := 0
  fbSel : BitVec 11 := 0
  slotA : Option CustImage := none
  slotB : Option CustImage := none
  useB : Bool := false
  activatedTick : Option Nat := none
  mem : Tbl Byte := []                 -- customer memory, by offset; a byte not listed is 0 (R471)
  began : Nat := 0                     -- ENTRY at which the core last began
  areas : Tbl Nat := []                -- drop -> bytes of the fallback image area carved for it at start-up (R467)
  deriving DecidableEq, Repr

inductive Phase where
  | off | starting | running | service | tripped
  deriving DecidableEq, Repr

inductive FwSlotState where
  | empty | good | trial | bad
  deriving DecidableEq, Repr

structure Boot where
  phase : Phase := .off
  warm : Bool := false                   -- the start to come is a warm restart (R480)
  startTick : Nat := 0
  doneTick : Option Nat := none
  pagesCopied : Bool := false
  bootCalDone : List Nat := []
  map : PartMap
  stored : PartMap                       -- the newer copy in flash
  older : PartMap
  storedBad : Bool := false              -- the newer copy does not verify (R493)
  olderBad : Bool := false
  fwA : FwSlotState := .good
  fwB : FwSlotState := .empty
  imgA : FwImage := { version := 0, signatureOk := true }
  imgB : FwImage := { version := 0, signatureOk := true }
  useB : Bool := false
  fuse : Nat := 0
  library : Tbl Image := []
  cache : Tbl Image := []
  copyDue : Bool := false
  coreDown : Tbl Nat := []               -- CC0, CC1 -> tick of the failure
  lapsesDue : List Nat := []             -- lapses that fell inside a vendor core restart
  fwFaultDue : Bool := false
  deriving DecidableEq, Repr

/-! ### What the unit sends and reads -/

inductive CplStatus where
  | sc | ur | ca
  deriving DecidableEq, Repr

inductive SvcStatus where
  | ok | refused | verify | busy
  deriving DecidableEq, Repr

/-- What CONSOLE_TX prints in service mode (R488). -/
inductive ConsoleLine where
  | bootProgress
  | record (l : LogRec)
  deriving DecidableEq, Repr

/-- What leaves the unit, in order. -/
inductive Output where
  | cpl (p tag : Nat) (status : CplStatus) (ep : Bool) (data : List Byte)
  | memWrite (p addr : Nat) (bytes : List Byte)
  | memWriteEp (p addr : Nat) (bytes : List Byte)   -- with EP set (R135)
  | memRead (p id addr len : Nat)
  | msix (p vector : Nat)
  | pme (p : Nat)
  | pmeToAck (link : Nat)
  | colant (seg rate : Nat) (words : List ColWord)
  | clkStop (seg : Nat)
  | clkStart (seg : Nat)
  | ppsPulse (second : Nat)
  | regData (who : Requester) (v : W32)
  | busError (who : Requester)
  | cfgRetry (p : Nat)                          -- Configuration Request Retry Status (R119)
  | regAbort (p : Nat) (status : CplStatus)     -- how a failed BAR0 read of a partition completes
  | service (status : SvcStatus) (data : List Nat)
  | serviceMap (m : PartMap)
  | serviceRecords (l : List LogRec)
  | net (port : NetPort) (query : NetQuery) (payload : Nat) (mac : BitVec 48)
  | dhcpRequest (port : NetPort) (mac : BitVec 48)
  | delayReq (domain : Nat)
  | console (line : ConsoleLine)
  | busyWords (seg rate drop n : Nat)           -- n BUSY words to a waiting guest (R84, R105)
  deriving DecidableEq, Repr

/-- What an outstanding read of host memory is for. -/
inductive DmaFor where
  | fetch (p r first count : Nat)
  | command (p r : Nat)
  | guest (p seg : Nat)
  deriving DecidableEq, Repr

/-- One memory read request; the requests of a read that is split have its number (R117). -/
structure DmaRead where
  id : Nat
  purpose : DmaFor
  addr : Nat
  len : Nat
  sent : Bool                      -- it has left; else it waits for one of the function's 256 requests (R117)
  read : Nat := 0                  -- number of the read: of its first request
  keep : Bool := true              -- its bytes are of the read's data
  result : Option ReadResult := none   -- how it ended, while others of its read have not
  dropped : Bool := false          -- what asked for it has ended: it only stays outstanding on its link
  deriving DecidableEq, Repr

/-- A thumbnail whose chunks have all arrived: its drop, SEQ and words (R391). -/
structure ThumbJob where
  drop : Nat
  seq : Byte
  words : List W16
  deriving DecidableEq, Repr

/-! ### The state -/

structure State where
  pending : List Instr
  tb : Timebase
  plant : Plant
  parts : Tbl Partition
  segs : Tbl Segment
  drops : Tbl Drop
  streams : Tbl Stream
  cores : Tbl DecCore
  decSel : Byte
  encoder : List ThumbJob          -- thumbnails that await the H.265 encoder, in order of their last chunks (R391)
  canvases : Tbl Canvas
  gates : Tbl GateList
  waf : WafUnit
  cmp : CmpUnit
  evc : Evc
  pairs : Tbl BankPair
  flt : Flt
  cc : Tbl CustomerCore
  boot : Boot
  out : List Output
  dma : List DmaRead
  nextId : Nat                     -- the next number for a bridge item or a read of host memory
  free : Nat                       -- draws of free values so far
  deriving DecidableEq, Repr

/-- The factory map (R486). Absent table rows read as the defaults of R486, R408, R401, R263 and R438. -/
def PartMap.factory : PartMap where
  portMode := []
  owner := [(0, 511, 0), (512, 1023, 2), (1024, 1535, 4), (1536, 2047, 6)]
  cycle := []
  bootCal := []
  bar2Log2 := []
  ceilDecode := []
  ceilDram := []
  ceilPower := []
  tbWr := [(0, true)]
  page := []
  defFallback := []
  waferLimit := []
  segRoute := []
  holdoff := []
  filterEn := []
  rdMask := []
  wrMask := []
  guestMask := []
  prot0 := []
  prot1 := []
  arbClass := []
  arbLeash := []
  arbTenure := []
  cmemMiB := []
  ccKeys := []
  ccMinVer := []
  ccWdogMs := []
  ccFbFormat := []
  assigned := []
  timing := { dhcp := true, addr := 0, prefixLen := 0, gateway := 0 }
  servicePort := { dhcp := false, addr := 0xC0A8FE0A, prefixLen := 24, gateway := 0 }

/-- The unit before DC power is good, as it leaves the factory: every register at its reset value (log entries 1 and 2). -/
def State.reset : State where
  pending := []
  tb := {}
  plant := {}
  parts := []
  segs := []
  drops := []
  streams := []
  cores := []
  decSel := 0
  encoder := []
  canvases := []
  gates := []
  waf := {}
  cmp := {}
  evc := {}
  pairs := []
  flt := {}
  cc := []
  boot := { map := PartMap.factory, stored := PartMap.factory, older := PartMap.factory }
  out := []
  dma := []
  nextId := 0
  free := 0

end Sys2Proof.Machine
end

