-- ==== Sys2Proof/Machine/Regions.lean ====
section
/-! DEFINITION. Region entries (R425), bank pairs (R428) and decisions on an address (R426). -/

namespace Sys2Proof.Machine

/-! ### GuardRegion entries (R425) -/

structure GuardRegion where
  base : Nat        -- first byte
  last : Nat        -- last byte
  space : Nat
  r : Bool
  w : Bool
  x : Bool
  deriving DecidableEq, Repr

/-- A VALID entry's region; none for an entry that takes no part. -/
def regionOf (e : BitVec 128) : Option GuardRegion :=
  if e.getLsbD 5 then
    some { base := (e.toNat / 64 % 2 ^ 58) * 64, last := (e.toNat / 2 ^ 70 % 2 ^ 58) * 64 + 63, space := field e.toNat 4 3,
           r := e.getLsbD 0, w := e.getLsbD 1, x := e.getLsbD 2 }
  else none

/-- Access kinds as GRD_CAP_STAT.KIND codes them (R425, R442). -/
inductive AccKind where
  | read | write | fetch | locked
  deriving DecidableEq, Repr

def AccKind.code : AccKind → Nat
  | .read => 0
  | .write => 1
  | .fetch => 2
  | .locked => 3

/-- The entry's rights cover the kind; a locked access needs both R and W (R425). -/
def GuardRegion.covers (g : GuardRegion) : AccKind → Bool
  | .read => g.r
  | .write => g.w
  | .fetch => g.x
  | .locked => g.r && g.w

def GuardRegion.holds (g : GuardRegion) (space addr : Nat) : Bool := g.space == space && decide (g.base ≤ addr) && decide (addr ≤ g.last)

/-- Two regions of one space share an address. -/
def GuardRegion.meets (a b : GuardRegion) : Bool := a.space == b.space && decide (a.base ≤ b.last) && decide (b.base ≤ a.last)

/-! ### Bank pairs (R428, R442) -/

def BankPair.active (b : BankPair) : Tbl (BitVec 128) := if b.activeB then b.bankB else b.bankA
def BankPair.inactive (b : BankPair) : Tbl (BitVec 128) := if b.activeB then b.bankA else b.bankB
def BankPair.setInactive (b : BankPair) (t : Tbl (BitVec 128)) : BankPair :=
  if b.activeB then { b with bankA := t } else { b with bankB := t }

/-- Entries per bank (R428). -/
def pairSize (n : Nat) : Nat := if n = 8 ∨ n = 9 then 448 else 128

/-- The VALID entries of a bank, with their indices. -/
def regionsOf (t : Tbl (BitVec 128)) : List (Nat × GuardRegion) := t.filterMap fun e => (regionOf e.2).map fun g => (e.1, g)

/-- The entry of the active bank that contains an address of a space (R426). -/
def BankPair.find (b : BankPair) (space addr : Nat) : Option (Nat × GuardRegion) :=
  (regionsOf b.active).find? fun e => e.2.holds space addr

/-- A user requester's decision on one address: the containing entry and whether it is allowed (R426). -/
def BankPair.user (b : BankPair) (space addr : Nat) (k : AccKind) : Option Nat × Bool :=
  match b.find space addr with
  | some e => (some e.1, e.2.covers k)
  | none => (none, false)

end Sys2Proof.Machine
end

