-- ==== Sys2Proof/Machine/Ops.lean ====
section
/-! DEFINITION. The shared operations: reading and updating the state's tables, time, the partition map, what the unit sends, events
(R399–R416), faults and logs (R444–R464), completions (R126–R130), journal entries (R200). -/

namespace Sys2Proof

open Sys2Proof.Machine

/-! ### The partition map (R23, R486) -/

/-- Port mode of port n: 0 X8_ONE, 1 X8_TWO, 2 X4X4 (R116). -/
def PartMap.mode (m : PartMap) (port : Nat) : Nat := tblGet 0 m.portMode port

/-- Partition p exists under its port's mode (R116). -/
def PartMap.hasPart (m : PartMap) (p : Nat) : Bool := p % 2 == 0 || m.mode (p / 2) != 0

/-- The link partition p is on: port × 2 + half (R116). -/
def PartMap.linkOf (m : PartMap) (p : Nat) : Nat := if m.mode (p / 2) = 2 then p else p / 2 * 2

/-- The partitions on a link (R116, R119). -/
def PartMap.partsOf (m : PartMap) (l : Nat) : List Nat :=
  (List.range 8).filter fun p => m.hasPart p && m.linkOf p == l

/-- The partition that owns drop g, if any (R23). -/
def PartMap.ownerOf (m : PartMap) (g : Nat) : Option Nat :=
  (m.owner.find? fun r => decide (r.1 ≤ g) && decide (g ≤ r.2.1)).map fun r => r.2.2

/-- CYCLE_US, PHASE_US and LEAD_US of a segment (R221, R486). -/
def PartMap.cycleOf (m : PartMap) (i : Nat) : Nat × Nat × Nat := (tblFind m.cycle i).getD (20000, 0, 50)

end Sys2Proof

namespace Sys2Proof.Machine

/-- What a meaning answers. -/
abbrev Res := Host.Outcome State Fault Refusal

/-! ### Tables of the state -/

def State.part (s : State) (p : Nat) : Partition := tblGet {} s.parts p
def State.setPart (s : State) (p : Nat) (x : Partition) : State := { s with parts := tblSet {} s.parts p x }
def State.onPart (s : State) (p : Nat) (f : Partition → Partition) : State := s.setPart p (f (s.part p))

def State.seg (s : State) (i : Nat) : Segment := tblGet {} s.segs i
def State.setSeg (s : State) (i : Nat) (x : Segment) : State := { s with segs := tblSet {} s.segs i x }
def State.onSeg (s : State) (i : Nat) (f : Segment → Segment) : State := s.setSeg i (f (s.seg i))

def State.drop (s : State) (g : Nat) : Drop := tblGet {} s.drops g
def State.setDrop (s : State) (g : Nat) (x : Drop) : State := { s with drops := tblSet {} s.drops g x }
def State.onDrop (s : State) (g : Nat) (f : Drop → Drop) : State := s.setDrop g (f (s.drop g))

def State.core (s : State) (n : Nat) : DecCore := tblGet {} s.cores n
def State.onCore (s : State) (n : Nat) (f : DecCore → DecCore) : State :=
  { s with cores := tblSet {} s.cores n (f (s.core n)) }

def State.pair (s : State) (b : Nat) : BankPair := tblGet {} s.pairs b
def State.onPair (s : State) (b : Nat) (f : BankPair → BankPair) : State :=
  { s with pairs := tblSet {} s.pairs b (f (s.pair b)) }

def State.cust (s : State) (c : Nat) : CustomerCore := tblGet {} s.cc c
def State.onCust (s : State) (c : Nat) (f : CustomerCore → CustomerCore) : State :=
  { s with cc := tblSet {} s.cc c (f (s.cust c)) }

def State.ring (s : State) (p r : Nat) : Ring := tblGet {} (s.part p).rings r
def State.onRing (s : State) (p r : Nat) (f : Ring → Ring) : State :=
  s.onPart p fun x => { x with rings := tblSet {} x.rings r (f (tblGet {} x.rings r)) }

def State.bridge (s : State) (p : Nat) : Bridge := (s.part p).bridge
def State.onBridge (s : State) (p : Nat) (f : Bridge → Bridge) : State :=
  s.onPart p fun x => { x with bridge := f x.bridge }

def State.win (s : State) (p w : Nat) : Option Window := tblFind (s.bridge p).windows w
def State.onWin (s : State) (p w : Nat) (f : Window → Window) : State :=
  s.onBridge p fun b =>
    match tblFind b.windows w with
    | some x => { b with windows := tblPut b.windows w (f x) }
    | none => b

def State.stream (s : State) (slot : Nat) : Option Stream := tblFind s.streams slot
def State.onStream (s : State) (slot : Nat) (f : Stream → Stream) : State :=
  match s.stream slot with
  | some x => { s with streams := tblPut s.streams slot (f x) }
  | none => s

def State.onTb (s : State) (f : Timebase → Timebase) : State := { s with tb := f s.tb }
def State.onPlant (s : State) (f : Plant → Plant) : State := { s with plant := f s.plant }
def State.onFlt (s : State) (f : Flt → Flt) : State := { s with flt := f s.flt }
def State.onBoot (s : State) (f : Boot → Boot) : State := { s with boot := f s.boot }
def State.onArb (s : State) (i : Nat) (f : Arb → Arb) : State := s.onSeg i fun x => { x with arb := f x.arb }
def State.onSurf (s : State) (g : Nat) (f : Surface → Surface) : State :=
  s.onDrop g fun d => { d with surface := f d.surface }
def State.onWaf (s : State) (g : Nat) (f : WaferDrop → WaferDrop) : State := s.onDrop g fun d => { d with waf := f d.waf }

def Partition.setErr (x : Partition) (i : Nat) : Partition := { x with hstErr := x.hstErr ||| (BitVec.ofNat 5 (2 ^ i)) }

/-! ### Numbers drawn -/

/-- A fresh draw number for a free value. -/
def State.draw (s : State) : Nat × State := (s.free, { s with free := s.free + 1 })

/-- A fresh number for an item or a read. -/
def State.newId (s : State) : Nat × State := (s.nextId, { s with nextId := s.nextId + 1 })

/-! ### Time -/

/-- Unit time in ns (R54). -/
def State.now (s : State) : Nat := (s.tb.acc.extractLsb' 32 64).toNat

/-- The local clock, in ticks of 10 ns. -/
def State.tick (s : State) : Nat := s.tb.tick

/-- Ticks of 10 ns in a span of ns, µs, ms and s. -/
def ticksOfNs (n : Nat) : Nat := n / 10
def ticksOfUs (n : Nat) : Nat := n * 100
def ticksOfMs (n : Nat) : Nat := n * 100000
def ticksOfS (n : Nat) : Nat := n * 100000000

/-- A span of t ticks has passed since tick a. -/
def State.past (s : State) (a t : Nat) : Bool := decide (a + t ≤ s.tick)

/-! ### Ownership and cycles by the map (R23, R221) -/

/-- The map in force. -/
def State.map (s : State) : PartMap := s.boot.map

def State.owner (s : State) (g : Nat) : Option Nat := s.map.ownerOf g
def State.owns (s : State) (p g : Nat) : Bool := s.owner g == some p

/-- The drops partition p owns. -/
def State.dropsOf (s : State) (p : Nat) : List Nat := (List.range 2048).filter (s.owns p)

/-- The listed (that is, not reset) drops partition p owns. -/
def State.liveDropsOf (s : State) (p : Nat) : List Nat := (s.drops.map (·.1)).filter (s.owns p)

/-- The customer core a drop is assigned to (R473): only a drop some partition owns has one. -/
def State.servedBy (s : State) (g : Nat) : Option Nat := if (s.owner g).isSome then tblFind s.map.assigned g else none

def State.cycleUs (s : State) (i : Nat) : Nat := (s.map.cycleOf i).1
def State.phaseUs (s : State) (i : Nat) : Nat := (s.map.cycleOf i).2.1
def State.leadUs (s : State) (i : Nat) : Nat := (s.map.cycleOf i).2.2

/-- The partitions that own a drop on segment i. -/
def State.partsOnSeg (s : State) (i : Nat) : List Nat :=
  (List.range 8).filter fun p => (List.range 32).any fun n => s.owns p (i * 32 + n)

/-! ### Presentation instants (R221) -/

/-- The first presentation instant of segment i at or after unit time t. -/
def State.instantFrom (s : State) (i t : Nat) : Nat :=
  let c := s.cycleUs i * 1000
  let ph := s.phaseUs i * 1000
  if t ≤ ph then ph - (ph - t) / c * c else ph + ceilDiv (t - ph) c * c

/-- The first presentation instant of segment i after unit time t. -/
def State.instantAfter (s : State) (i t : Nat) : Nat := s.instantFrom i (t + 1)

/-! ### What the unit sends -/

/-- The partition over whose link an output goes; a link has the number of its first partition (R116). -/
def Output.port : Output → Option Nat
  | .cpl p .. => some p
  | .memWrite p .. => some p
  | .memRead p .. => some p
  | .memWriteEp p .. => some p
  | .cfgRetry p => some p
  | .msix p _ => some p
  | .pme p => some p
  | .regData (.host p) _ => some p
  | .regAbort p _ => some p
  | .pmeToAck l => some l
  | _ => none

/-- The error a completion with this status reports through AER (R133). -/
def Aer.ofStatus (a : Aer) : CplStatus → Aer
  | .sc => a
  | .ur => { a with unsupported := true }
  | .ca => { a with abort := true }

/-- What an output reports through AER on its own function (R133). -/
def Aer.note (a : Aer) : Output → Aer
  | .cpl _ _ st _ _ => a.ofStatus st
  | .regAbort _ st => a.ofStatus st
  | _ => a

/-- An output leaves. One over a link takes the link out of L1 (R131); a failed request is reported through AER (R133). -/
def State.emit (s : State) (o : Output) : State :=
  let s : State := { s with out := s.out ++ [o] }
  match o.port with
  | some p => s.onPart p fun x => { x with inL1 := false, idleTick := s.tick, aer := x.aer.note o }
  | none => s

/-- Two lists in turns, one element at a time while both have some. -/
def alternate {α : Type} : List α → List α → List α
  | [], b => b
  | x :: a, [] => x :: a
  | x :: a, y :: b => x :: y :: alternate a b

/-- The outputs for which f holds are replaced, in order, by those of a list. -/
def refill (f : Output → Bool) : List Output → List Output → List Output
  | [], _ => []
  | o :: l, [] => o :: l
  | o :: l, x :: m => if f o then x :: refill f l m else o :: refill f l (x :: m)

/-- The TLPs of functions p and q in turns, the function with the first one first. -/
def takeTurns (p q : Nat) (l : List Output) : List Output :=
  let of := fun n => l.filter fun o => o.port == some n
  let both := fun (o : Output) => o.port == some p || o.port == some q
  match (l.find? both).bind Output.port with
  | some n => refill both l (if n = p then alternate (of p) (of q) else alternate (of q) (of p))
  | none => l

/-- What one happening has sent since s: the two functions of an X8_TWO link have sent theirs in round robin (R134). -/
def State.fairly (s t : State) : State :=
  let shared := (List.range 4).filter fun n => s.map.mode n = 1
  if shared.isEmpty then t
  else { t with out := s.out ++ shared.foldl (fun l n => takeTurns (2 * n) (2 * n + 1) l) (t.out.drop s.out.length) }

/-- The same output with EP set (R135). -/
def Output.poison : Output → Output
  | .cpl p tag st _ data => .cpl p tag st true data
  | .memWrite p addr bytes => .memWriteEp p addr bytes
  | o => o

/-- A posted write that the function does not take: Unsupported Request, dropped (R129, R135). -/
def State.dropWrite (s : State) (p : Nat) : State :=
  if s.map.hasPart p then s.onPart p fun x => { x with aer := x.aer.ofStatus .ur } else s

/-- DMA, completions and MSI-X of a partition run: D0 with Bus Master Enable 1 (R129, R135). -/
def Partition.dmaOk (x : Partition) : Bool := x.dstate == .d0 && x.bme

/-- Bytes one TLP of a function carries: Max_Payload_Size as Device Control sets it, up to 512 (R117). -/
def DevCtl.payload (d : DevCtl) : Nat := 128 * 2 ^ min d.mps.toNat 2

/-- The partition a read of host memory is for. -/
def DmaRead.part (d : DmaRead) : Nat :=
  match d.purpose with
  | .fetch p .. => p
  | .command p _ => p
  | .guest p _ => p

/-- The memory read requests of a partition's function that are outstanding. -/
def State.outstanding (s : State) (p : Nat) : Nat := (s.dma.filter fun d => d.part == p && d.sent && d.result.isNone).length

/-- Bytes one memory read request may ask for: Max_Read_Request_Size as Device Control sets it, up to 4,096 (R117). -/
def DevCtl.readLimit (d : DevCtl) : Nat := 128 * 2 ^ min d.mrrs.toNat 5

/-- A range cut into requests of at most limit bytes, none across a 4 KiB boundary. -/
def splitRange (fuel limit addr len : Nat) : List (Nat × Nat) :=
  match fuel with
  | 0 => []
  | k + 1 =>
    let n := min len (min limit (4096 - addr % 4096))
    if len ≤ n then [(addr, len)] else (addr, n) :: splitRange k limit (addr + n) (len - n)

/-- A range cut at every multiple of limit. -/
def splitAligned (fuel limit addr len : Nat) : List (Nat × Nat) :=
  match fuel with
  | 0 => []
  | k + 1 =>
    let n := limit - addr % limit
    if len ≤ n then [(addr, len)] else (addr, n) :: splitAligned k limit (addr + n) (len - n)

/-- The completions of a host read of bytes at an address: of at most Max_Payload_Size, the data in address order, cut at its multiples (R117, log
entry 146). -/
def State.sendCpl (s : State) (p tag addr : Nat) (ep : Bool) (bytes : List Byte) : State :=
  (splitAligned (bytes.length / 128 + 2) (s.part p).dev.payload addr bytes.length).foldl (fun s x =>
    s.emit (.cpl p tag .sc ep ((bytes.drop (x.1 - addr)).take x.2))) s

/-- Bytes at an address cut as splitRange cuts their range. -/
def splitBytes (limit addr : Nat) (bytes : List Byte) : List (Nat × List Byte) :=
  (splitRange (bytes.length / 64 + 2) limit addr bytes.length).map fun x => (x.1, (bytes.drop (x.1 - addr)).take x.2)

/-- Bytes go to a host's memory in writes of at most Max_Payload_Size, none across a 4 KiB boundary (R117). -/
def State.writeHost (s : State) (p addr : Nat) (bytes : List Byte) : State :=
  (splitBytes (s.part p).dev.payload addr bytes).foldl (fun s x => s.emit (.memWrite p x.1 x.2)) s

/-- The memory read requests that a read of the host's memory takes (R117). -/
def State.requestsFor (s : State) (p addr len : Nat) : List (Nat × Nat) := splitRange (len / 64 + 2) (s.part p).dev.readLimit addr len

/-- One request of a read begins; it waits while the function has 256 outstanding (R117). -/
def State.startRequest (s : State) (p : Nat) (purpose : DmaFor) (read addr len : Nat) (keep : Bool) : State :=
  let (id, s) := s.newId
  let go := decide (s.outstanding p < 256)
  let s : State := { s with dma := s.dma ++ [{ id := id, purpose := purpose, addr := addr, len := len, sent := go, read := read, keep := keep }] }
  if go then s.emit (.memRead p id addr len) else s

/-- A read begins, with a number of its own: that of its first request. Bytes of a range that is not kept are not of its data (R117, R203). -/
def State.startReads (s : State) (p : Nat) (purpose : DmaFor) (l : List ((Nat × Nat) × Bool)) : State :=
  let read := s.nextId
  (l.flatMap fun x => (s.requestsFor p x.1.1 x.1.2).map fun y => (y, x.2)).foldl (fun s x => s.startRequest p purpose read x.1.1 x.1.2 x.2) s

/-- A read of one range of host memory begins. -/
def State.startRead (s : State) (p : Nat) (purpose : DmaFor) (addr len : Nat) : State := s.startReads p purpose [((addr, len), true)]

/-- The oldest waiting request of a partition leaves if one of its function's 256 is free and DMA runs (R117, R129). -/
def State.sendRead (s : State) (p : Nat) : State :=
  match s.dma.find? fun d => d.part == p && !d.sent with
  | some d =>
    if (s.part p).dmaOk && decide (s.outstanding p < 256) then
      ({ s with dma := s.dma.map fun x => if x.id = d.id then { x with sent := true } else x } : State).emit (.memRead p d.id d.addr d.len)
    else s
  | none => s

/-- Waiting requests of a partition leave while its function has some free. -/
def State.sendReads (s : State) (p : Nat) : State := (s.dma.filter fun d => d.part == p && !d.sent).foldl (fun s _ => s.sendRead p) s

/-- What asked for these reads has ended: their requests that have not left never leave, the others stay outstanding on the link and count there
until they end (R117, R131, R135). -/
def State.dropReadsOf (s : State) (f : DmaRead → Bool) : State :=
  { s with dma := (s.dma.filter fun d => !(f d && (!d.sent || d.result.isSome))).map fun d => if f d then { d with dropped := true } else d }

/-- The request has left and not ended. -/
def DmaRead.open (d : DmaRead) : Bool := d.sent && d.result.isNone

/-- A result that can end the request: data of its length; a Completion Timeout unless Device Control 2 disables it (R117). -/
def State.endsWith (s : State) (d : DmaRead) : ReadResult → Bool
  | .data b => b.length == d.len
  | .timeout => !(s.part d.part).dev.timeoutOff
  | _ => true

/-- The result of a whole read, of its requests in order: the data, or the first failure. -/
def joinResults (l : List DmaRead) : ReadResult :=
  match l.findSome? fun d => match d.result with
      | some (.data _) => none
      | x => x with
  | some x => x
  | none => .data (l.flatMap fun d => match d.result with
      | some (.data b) => if d.keep then b else []
      | _ => [])

/-- A request has ended: another may leave; the result of its read once all of it have, where that is still asked for. The link's idle time starts
anew (R117, R131). -/
def State.endRequest (s : State) (d : DmaRead) (x : ReadResult) : State × Option ReadResult :=
  let ended := s.dma.map fun y => if y.id = d.id then { y with result := some x } else y
  let s : State := { s with dma := if d.dropped then s.dma.filter fun y => y.id != d.id else ended }
  let s := (s.onPart d.part fun y => { y with idleTick := s.tick }).sendRead d.part
  let l := s.dma.filter fun y => y.read == d.read
  if d.dropped || l.any (fun y => y.result.isNone) then (s, none) else ({ s with dma := s.dma.filter fun y => y.read != d.read }, some (joinResults l))

/-- A read of host memory has failed: a poisoned completion or a Completion Timeout sets HST_ERR.DMA_FAIL and is reported through AER
(R133, R135, R140). -/
def State.readFailed (s : State) (p : Nat) : ReadResult → State
  | .poisoned => s.onPart p fun x => { x.setErr 4 with aer := { x.aer with poisoned := true } }
  | .timeout => s.onPart p fun x => { x.setErr 4 with aer := { x.aer with timeout := true } }
  | _ => s

/-- Some pass of these, by drop and T, has not ended. -/
def State.stillRead (s : State) (l : List (Nat × Nat)) : Bool := l.any fun r => (s.drop r.1).passes.any fun x => x.tNs == r.2

/-- What destroyed objects of partition p still hold (R29, R302). -/
def State.goneHeld (s : State) (p : Nat) : List Gone := (s.part p).memGone.filter fun x => s.stillRead x.readers

/-! ### Event controller: routing (R399–R405) -/

/-- Who owns a shared source: a partition, or none for the unit (R399). -/
def State.sourceOwner (s : State) (n : Nat) : Option Nat :=
  if n < 2048 then s.owner n
  else if n < 2560 then (s.stream ((n - 2048) / 2)).map (·.part)
  else if n < 2816 then none
  else some ((n - 2816) / 32)

/-- Where a source that nothing has routed delivers: the owning partition's vector 0, a segment's map route, or CC0 (R401, R402, R405). -/
def State.defaultRoute (s : State) (n : Nat) : Route :=
  match s.sourceOwner n with
  | some p => { part := p }
  | none =>
    if 2560 ≤ n ∧ n < 2816 then
      match tblFind s.map.segRoute ((n - 2560) / 4) with
      | some (p, v) => { part := p, vector := v }
      | none => { tkind := true }
    else { tkind := true }

def State.source (s : State) (n : Nat) : Source := tblGet {} s.evc.sources n
def State.setSource (s : State) (n : Nat) (x : Source) : State :=
  { s with evc := { s.evc with sources := tblSet {} s.evc.sources n x } }

def State.route (s : State) (n : Nat) : Route := (s.source n).route.getD (s.defaultRoute n)
def Route.target (r : Route) : Target := if r.tkind then .core r.core else .vector r.part r.vector
def State.target (s : State) (n : Nat) : Target := (s.route n).target

/-- Group of a source (R408). -/
def groupOf (n : Nat) : Nat := n / 32
def State.groupDefault (s : State) (g : Nat) : Group := { holdoff := BitVec.ofNat 16 (if g < 88 then tblGet 0 s.map.holdoff g else 0) }
def State.group (s : State) (g : Nat) : Group := tblGet (s.groupDefault g) s.evc.groups g
def State.setGroup (s : State) (g : Nat) (x : Group) : State :=
  { s with evc := { s.evc with groups := tblSet (s.groupDefault g) s.evc.groups g x } }

def State.evcCore (s : State) (c : Nat) : EvcCore := tblGet {} s.evc.cores c
def State.onEvcCore (s : State) (c : Nat) (f : EvcCore → EvcCore) : State :=
  { s with evc := { s.evc with cores := tblSet {} s.evc.cores c (f (s.evcCore c)) } }

/-! ### Event controller: arrivals, commits, windows (R406–R416) -/

/-- Insert into an ascending list without repeats. -/
def insertAsc (l : List Nat) (n : Nat) : List Nat :=
  match l with
  | [] => [n]
  | x :: rest => if n < x then n :: x :: rest else if n = x then x :: rest else x :: insertAsc rest n

/-- A source is committed: PENDING clears, FIRED sets, its delivery window of 120 ns opens; a core's delivered bit sets and the core
wakes (R407, R410, R414, R415). -/
def State.commit (s : State) (n : Nat) : State :=
  let t := s.target n
  let s := s.setSource n { s.source n with pending := false, fired := true, window := some (s.tick + 12, t) }
  match t with
  | .core c => s.onEvcCore c fun e => { e with delivered := insertAsc e.delivered n, sleeping := false }
  | .vector .. => s

/-- A pending unmasked source arms its group's hold-off timer; inside its own delivery window that waits for the close (R407, R409, R413). -/
def State.arm (s : State) (n : Nat) : State :=
  let x := s.source n
  if x.window.isSome then s
  else
    let g := s.group (groupOf n)
    if g.expiry.isSome then s
    else if g.holdoff = 0 then s.commit n
    else s.setGroup (groupOf n) { g with expiry := some (s.tick + g.holdoff.toNat * 10) }

/-- Kinds 23–31 of a partition's unit sources never signal (R400). -/
def reservedSource (n : Nat) : Bool := decide (2816 ≤ n) && decide (23 ≤ (n - 2816) % 32)

/-- A source that a doorbell write names: a shared one, a private one of a core, or a vendor event of CC0 or CC1: 0 fault collector, 1 power
arbiter, 2 timebase (R403, R404). -/
inductive Bell where
  | shared (n : Nat)
  | priv (core n : Nat)
  | vendor (core kind : Nat)
  deriving DecidableEq, Repr

/-- An arrival of a shared source (R406, R407). -/
def State.ringShared (s : State) (n : Nat) : State :=
  if reservedSource n then s
  else
    let x := s.source n
    let x := { x with
      count := if x.count = 255 then x.count else x.count + 1,
      saturated := x.saturated || x.count == 255,
      pending := true }
    let s := s.setSource n x
    if x.mask then s else s.arm n

/-- A private source is committed: delivered at intake, with its own delivery window (R404, R414). -/
def EvcCore.privCommit (e : EvcCore) (tick n : Nat) : EvcCore :=
  let x := tblGet {} e.priv n
  { e with sleeping := false,
           priv := tblSet {} e.priv n { x with pending := false, delivered := true, window := some (tick + 12) } }

/-- A private delivered bit for which some delivery window has closed (R414). -/
def PrivSource.due (x : PrivSource) : Bool := x.delivered && (x.ripe || x.window.isNone)

/-- An arrival of private source n of core c (R404, R406, R413). Numbers 48–63 never signal. -/
def State.ringPriv (s : State) (c n : Nat) : State :=
  if 48 ≤ n then s
  else s.onEvcCore c fun e =>
    let x := tblGet {} e.priv n
    let x := { x with
      count := if x.count = 255 then x.count else x.count + 1,
      saturated := x.saturated || x.count == 255,
      pending := true }
    let e := { e with priv := tblSet {} e.priv n x }
    if x.mask || x.window.isSome then e else e.privCommit s.tick n

/-- A doorbell that has passed the guard arrives; the spec gives a vendor event's private number only as 16–31 (R404, log entry 140). -/
def State.strike (s : State) : Bell → State
  | .shared n => s.ringShared n
  | .priv c n => s.ringPriv c n
  | .vendor c k => s.ringPriv c (16 + Config.vendorEvent k % 16)

/-- The core's interrupt: asserted at the close of a delivery window if IMASK is 0, and then while any delivered bit is set and IMASK is 0 (R414). -/
def EvcCore.settle (e : EvcCore) : EvcCore :=
  let held := !e.delivered.isEmpty || e.priv.any fun x => x.2.delivered
  { e with intr := !e.imask && ((e.intr && held) || !e.ripe.isEmpty || e.priv.any fun x => x.2.due) }

/-- A vector falls due: the MSI-X write, or its pending bit by the state of vector and function; in D3hot a PME message with it, and with PME_En 0
neither the message nor PME_Status (R125, R130, R416, log entry 158). -/
def State.deliverVector (s : State) (p v : Nat) : State :=
  let x := s.part p
  let vec := tblGet {} x.vectors v
  let pend := fun (x : Partition) => { x with vectors := tblSet {} x.vectors v { vec with pending := true } }
  if x.dstate = .d3hot then
    let s := s.setPart p (pend x)
    if x.pmeEn && !x.pmeStatus then
      (s.onPart p fun y => { y with pmeStatus := true, pmeSent := satInc y.pmeSent, pmeTick := some s.tick }).emit (.pme p)
    else s
  else if !x.bme || vec.mask || x.funcMask then s.setPart p (pend x)
  else s.emit (.msix p v)

/-- Send each pending unmasked vector of a partition that may send (R125, R130, R416). -/
def State.sendPending (s : State) (p : Nat) : State :=
  let x := s.part p
  if !x.dmaOk || x.funcMask then s
  else (x.vectors.filter fun e => e.2.pending && !e.2.mask).foldl (fun s e =>
    (s.onPart p fun y => { y with vectors := tblSet {} y.vectors e.1 { e.2 with pending := false } }).emit (.msix p e.1)) s

/-! ### Completion entries (R126, R129, R130, R149) -/

/-- Write a completion entry, or hold it while the function may not write (R129, R135). -/
def State.writeEntry (s : State) (p ring addr : Nat) (bytes : List Byte) : State :=
  if (s.part p).dmaOk then s.emit (.memWrite p addr bytes)
  else s.onPart p fun x => { x with held := x.held ++ [{ ring := ring, addr := addr, bytes := bytes }] }

/-- Write the held entries in ring order (R130). -/
def State.releaseHeld (s : State) (p : Nat) : State :=
  let held := (s.part p).held
  let inOrder := (List.range 16).flatMap fun r => held.filter (·.ring == r)
  inOrder.foldl (fun s h => s.emit (.memWrite p h.addr h.bytes)) (s.onPart p fun x => { x with held := [] })

/-- A record written to host memory on the unit's behalf before a completion; it fails while DMA may not run (R290). -/
def State.writeRecord (s : State) (p addr : Nat) (bytes : List Byte) : State :=
  if (s.part p).dmaOk then s.writeHost p addr bytes else s.onPart p (·.setErr 4)

/-! ### Record rings (R396, R461) -/

def RecRing.size (r : RecRing) : Nat := 2 ^ r.log2
def RecRing.full (r : RecRing) : Bool := (r.tail + 1) % r.size == r.head

/-- RSEQ after x: never 0 (R397). -/
def nextSeq (x : W32) : W32 := if x = 0xFFFFFFFF then 1 else x + 1

/-- A log record's 32 bytes (R461). -/
def LogRec.bytes (l : LogRec) (rseq : W32) : List Byte :=
  recordBytes ([packFields [(l.type, 28), (l.cls, 25), (b2n l.threshHit, 24), (l.index, 0)], rseq.toNat] ++ qword l.time
    ++ [l.count, l.detail.toNat, l.window % 65536, 0])

/-- How an operation rings a doorbell. -/
abbrev Ringer := State → Bell → State

/-- A record is written to the log ring's next index, and its source signals (R396, R461). -/
def State.writeLog (ring : Ringer) (s : State) (p : Nat) (l : LogRec) : State :=
  let r := (s.part p).logRing
  let s := s.onPart p fun x => { x with logRing := { x.logRing with tail := (r.tail + 1) % r.size, rseq := nextSeq r.rseq } }
  ring (s.emit (.memWrite p (r.addr.toNat + r.tail * 32) (l.bytes r.rseq))) (.shared (2816 + 32 * p + 18))

/-- A record that the log ring takes: it is written at once where DMA runs and none waits before it, and waits otherwise (R461). -/
def State.putLog (ring : Ringer) (s : State) (p : Nat) (l : LogRec) : State :=
  let x := s.part p
  if x.dmaOk && x.logRing.waiting.isEmpty then s.writeLog ring p l
  else s.onPart p fun x => { x with logRing := { x.logRing with waiting := x.logRing.waiting ++ [l] } }

/-- The log ring takes records: enabled, session not CLOSED, not full, at most 64 waiting (R461). -/
def Partition.logRoom (x : Partition) : Bool :=
  x.logRing.en && x.session != .closed && !x.logRing.full && decide (x.logRing.waiting.length < 64)

/-- A GAP record with the count of lost records, once a slot is free (R461). -/
def State.putGap (ring : Ringer) (s : State) (p : Nat) : State :=
  let r := (s.part p).logRing
  if r.lostSince = 0 || !(s.part p).logRoom then s
  else
    let gap : LogRec := { type := 6, cls := 0, index := 0, threshHit := false, time := s.now, count := r.lostSince,
                          detail := 0, window := 0, part := p }
    (s.onPart p fun x => { x with logRing := { x.logRing with lostSince := 0 } }).putLog ring p gap

/-- A decided record goes to a partition's log ring or counts as lost (R461). -/
def State.logTo (ring : Ringer) (s : State) (l : LogRec) (p : Nat) : State :=
  let s := s.putGap ring p
  if (s.part p).logRoom then s.putLog ring p l
  else s.onPart p fun x =>
    { x with logRing := { x.logRing with lost := satInc x.logRing.lost, lostSince := x.logRing.lostSince + 1 } }

/-- The oldest waiting log record is written, where DMA runs and the ring has a slot for it. -/
def State.flushOne (ring : Ringer) (s : State) (p : Nat) : State :=
  let x := s.part p
  match x.logRing.waiting with
  | l :: rest =>
    if x.dmaOk && x.logRing.en && !x.logRing.full then
      (s.onPart p fun x => { x with logRing := { x.logRing with waiting := rest } }).writeLog ring p l
    else s
  | [] => s

/-- The log records that wait are written while they can be, and a GAP record after them where some were lost (R461). -/
def State.flushLogBy (ring : Ringer) (s : State) (p : Nat) : State :=
  ((s.part p).logRing.waiting.foldl (fun s _ => s.flushOne ring p) s).putGap ring p

/-! ### Faults and their records (R444–R464) -/

def State.faultRec (s : State) (i : Nat) : FaultRec := tblGet {} s.flt.faults i
def State.setFault (s : State) (i : Nat) (x : FaultRec) : State := s.onFlt fun f => { f with faults := tblSet {} f.faults i x }
def State.setLive (s : State) (i : Nat) (b : Bool) : State := s.setFault i { s.faultRec i with live := b }

/-- The partitions whose log ring takes the occurrences of a fault (R459) and whose fault view shows it (R466). -/
def State.faultParts (s : State) (i : Nat) : List Nat :=
  if i < 0x010 then List.range 8
  else if i < 0x020 then [(i - 0x010) / 2]
  else if i < 0x030 then
    (List.range 8).filter fun p => s.streams.any fun e => e.2.part == p && e.2.coreList.contains (i - 0x020)
  else if i < 0x080 then s.partsOnSeg (i - 0x040)
  else (s.owner (i - 0x080)).toList

/-- The partitions whose view shows a fault: as the log, but every partition sees the cores (FLT_P_CORE, R466). -/
def State.faultViewers (s : State) (i : Nat) : List Nat :=
  if 0x020 ≤ i ∧ i < 0x030 then List.range 8 else s.faultParts i

/-- The partitions an error of a channel concerns: class 2 core, 3 segment, 4 drop, 5 stream slot (R459, R461). -/
def State.errorParts (s : State) (cls i : Nat) : List Nat :=
  match cls with
  | 2 => s.faultParts (0x020 + i)
  | 3 => s.partsOnSeg i
  | 4 => (s.owner i).toList
  | _ => ((s.stream i).map (·.part)).toList

/-- One entry into the trace buffer (R462). -/
def State.traceRec (s : State) (l : LogRec) : State :=
  s.onFlt fun f =>
    { f with trace := (l :: f.trace).take 524288, traceHead := f.traceHead + 1,
             traceWrap := if f.trace.length = 524288 then satInc f.traceWrap else f.traceWrap }

/-- One record into the flash fault store; an index other than POWER_FAIL and THERMAL_TRIP at most once per 60 s (R463). -/
def State.storeRec (s : State) (l : LogRec) : State :=
  let limited := l.cls == 0 && l.index != 0 && l.index != 4
    && (match tblFind s.flt.storeTick l.index with | some t => !s.past t (ticksOfS 60) | none => false)
  if limited then s
  else s.onFlt fun f =>
    { f with store := (l :: f.store).take 4096, storeRestored := false,
             storeTick := if l.cls = 0 then tblPut f.storeTick l.index s.tick else f.storeTick }

/-- A decided record to every ring that takes it. -/
def State.decideBy (ring : Ringer) (s : State) (l : LogRec) (ps : List Nat) : State :=
  s.fairly (ps.foldl (fun s p => s.logTo ring { l with part := p } p) s)

/-! ### Error windows (R451) -/

def Flt.winCfg (f : Flt) (cls : Nat) : WinCfg :=
  if cls = 2 then f.winCore else if cls = 3 then f.winSeg else if cls = 4 then f.winDrop else f.winStream
def Flt.setWinCfg (f : Flt) (cls : Nat) (w : WinCfg) : Flt :=
  if cls = 2 then { f with winCore := w } else if cls = 3 then { f with winSeg := w }
  else if cls = 4 then { f with winDrop := w } else { f with winStream := w }

/-- BUCKET_MS 0 is treated as 1 (R465); in ns. -/
def WinCfg.ns (w : WinCfg) : Nat := (if w.bucketMs = 0 then 1 else w.bucketMs) * 1000000

/-- Start of the present bucket: a whole multiple of its length, or the instant a new length took effect if that is later. -/
def State.bucketNow (s : State) (cls : Nat) : Nat :=
  let l := (s.flt.winCfg cls).ns
  let b := s.now / l * l
  let e := tblGet 0 s.flt.bucketStartNs cls
  if e ≤ s.now then max b e else b

def windowKey (cls i : Nat) : Nat := cls * 4096 + i

/-- The window count: every bucket that starts at or after the present one less 7 lengths. -/
def State.windowCount (s : State) (cls i : Nat) : Nat :=
  let from_ := s.bucketNow cls - 7 * (s.flt.winCfg cls).ns
  sumNat ((((tblGet [] s.flt.windows (windowKey cls i)).filter fun b => decide (from_ ≤ b.1))).map (·.2))

/-! ### Coalescing (R460) -/

/-- FLT_COALESCE.MS: 0 is treated as 1, more than 10,000 as 10,000 (R465). -/
def Flt.interval (f : Flt) : Nat := ticksOfMs (min (max f.coalesceMs 1) 10000)

/-- The coalescing key of a source: class 0 a fault index, otherwise an error channel (R460). -/
def coalesceKey (cls i : Nat) : Nat := cls * 4096 + i

/-- A coalescing interval that has ended: a REPEAT or ERROR record with its count, and a new interval; with a count of 0 the source
returns to its first state (R460). -/
def State.endIntervalBy (ring : Ringer) (s : State) (cls i : Nat) : State :=
  let key := coalesceKey cls i
  match tblFind s.flt.coalesce key with
  | none => s
  | some c =>
    if s.tick < c.until_ then s
    else if c.count = 0 then s.onFlt fun f => { f with coalesce := tblErase f.coalesce key }
    else
      let ps := if cls = 0 then s.faultParts i else s.errorParts cls i
      let l : LogRec := { type := if cls = 0 then 2 else 3, cls := cls, index := i, threshHit := false, time := s.now, count := c.count,
                          detail := if cls = 0 then c.detail else 0, window := if cls = 0 then 0 else min (s.windowCount cls i) 65535, part := 0 }
      let next := c.until_ + s.flt.interval
      (s.decideBy ring l ps).onFlt fun f =>
        { f with coalesce := if next ≤ s.tick then tblErase f.coalesce key else tblPut f.coalesce key { until_ := next, count := 0, detail := 0 } }

/-- An occurrence of a coalesced source: the first decides a record at once, later ones within the interval are counted (R460). -/
def State.occurBy (ring : Ringer) (s : State) (type cls i : Nat) (detail : W32) (window : Nat) (ps : List Nat) : State :=
  let l : LogRec := { type := type, cls := cls, index := i, threshHit := false, time := s.now, count := 1,
                      detail := detail, window := window, part := 0 }
  let s := (s.endIntervalBy ring cls i).traceRec { l with part := ps.headD 0 }
  let key := coalesceKey cls i
  match tblFind s.flt.coalesce key with
  | some c => s.onFlt fun f => { f with coalesce := tblPut f.coalesce key { c with count := c.count + 1, detail := detail } }
  | none =>
    (s.decideBy ring l ps).onFlt fun f =>
      { f with coalesce := tblPut f.coalesce key { until_ := s.tick + f.interval, count := 0, detail := detail } }

/-- The vendor events that a fault's sticky bit raises at CC0 and CC1: the fault collector's, and for POWER_MARGIN and POWER_OVERRUN the power
arbiter's (R404, log entry 140). -/
def vendorKinds (i : Nat) : List Nat := if i = 0x001 ∨ i = 0x002 then [0, 1] else [0]

/-- A vendor event is signalled to both cores (R404). -/
def State.ringVendor (ring : Ringer) (s : State) (k : Nat) : State := [0, 1].foldl (fun s c => ring s (.vendor c k)) s

/-- The sticky bit of fault i sets, with its first-error record, or its repeat counter counts (R445, R447); the fault-view and
segment-fault sources signal only when the bit sets from 0 (R464). -/
def State.stickBy (ring : Ringer) (s : State) (i : Nat) (detail : W32) : State :=
  let x := s.faultRec i
  if x.sticky then s.setFault i { x with rep := satInc x.rep }
  else
    let s := s.setFault i { x with sticky := true, firstTime := BitVec.ofNat 64 s.now, firstDetail := detail }
    let s := vendorKinds i |>.foldl (fun s k => s.ringVendor ring k) s
    let s := (s.faultViewers i).foldl (fun s p => ring s (.shared (2816 + 32 * p + 19))) s
    if 0x040 ≤ i ∧ i < 0x080 then ring s (.shared (2560 + 4 * (i - 0x040) + 3)) else s

/-- A fault occurs: sticky bit and records (R444–R463). The flash takes each sticky setting, and each power fail and thermal trip (R35,
R38). -/
def State.raiseBy (ring : Ringer) (s : State) (i : Nat) (detail : W32) : State :=
  let set0 := !(s.faultRec i).sticky
  let s := s.stickBy ring i detail
  let s := s.occurBy ring 1 0 i detail 0 (s.faultParts i)
  if decide (i ≤ 0x00C) && (set0 || i == 0x000 || i == 0x004) then
    s.storeRec { type := 1, cls := 0, index := i, threshHit := false, time := s.now, count := 1, detail := detail, window := 0, part := 0 }
  else s

/-! ### Doorbells and the guard (R403, R423, R426, R440, R441) -/

/-- A violation decided for pair n enters its capture, or counts; whether it has set VALID (R440). -/
def State.capture (s : State) (n : Nat) (split level : Bool) (k : AccKind) (space req addr : Nat) : State × Bool :=
  if (s.pair n).cap.valid then (s.onPair n fun b => { b with cap := { b.cap with count := satInc b.cap.count } }, false)
  else
    (s.onPair n fun b => { b with cap :=
      { valid := true, partialAcc := split, level := level, kind := BitVec.ofNat 2 k.code, space := BitVec.ofNat 2 space,
        req := BitVec.ofNat 8 req, count := 1, addr := BitVec.ofNat 64 addr, time := BitVec.ofNat 32 s.now, epoch := b.epoch } }, true)

/-- A hardware block's access to one address: bank pair 10, then the vendor default map, which grants reads and writes (R423, R426, R427). -/
def State.blockOk (s : State) (k : AccKind) (space addr : Nat) : Bool :=
  match (s.pair 10).find space addr with
  | some e => e.2.covers k
  | none => k != .fetch

/-- Address of EVC_DOORBELL (R421, R508). -/
def doorbellAddr : Nat := 0x10010000

/-- Who signals a source, as a requester code: the blocks of R423; for ring completions CC0 or CC1, whose firmware writes them; for sources of
blocks without a code the event controller (log entry 141). -/
def Bell.code : Bell → Nat
  | .shared n =>
    if n < 2048 then 0x29
    else if n < 2560 then 0x20
    else if n < 2816 then (if n % 4 = 0 then 0x24 else if n % 4 = 3 then 0x27 else 0x29)
    else
      let k := (n - 2816) % 32
      if k < 16 then 0x10 + (n - 2816) / 128 else if k = 16 then 0x29 else if k = 17 then 0x25 else if k = 18 ∨ k = 19 then 0x27 else 0x26
  | .priv c n => if 2 ≤ c ∧ n = 6 then 0x21 else 0x26
  | .vendor _ k => if k = 0 then 0x27 else if k = 1 then 0x28 else 0x26

/-- A doorbell write that the guard has refused: captured, and it counts nowhere (R403, R441). -/
def State.countBell (s : State) (b : Bell) : State := (s.capture 10 false false .write 1 b.code doorbellAddr).1

/-- The same; a capture that it sets is the unit guard fault, whose own doorbells are refused too. -/
def State.refuseBell (s : State) (b : Bell) : State :=
  let c := s.capture 10 false false .write 1 b.code doorbellAddr
  if c.2 then (c.1.setLive 0x00A true).raiseBy State.countBell 0x00A (BitVec.ofNat 32 b.code) else c.1

/-- The guard lets the hardware blocks' doorbell writes pass. -/
def State.bellsPass (s : State) : Bool := s.blockOk .write 1 doorbellAddr

/-- A block's doorbell write passes the guard before it arrives (R403). -/
def State.bell (s : State) (b : Bell) : State := if s.bellsPass then s.strike b else s.refuseBell b

def State.signal (s : State) (n : Nat) : State := s.bell (.shared n)
def State.signalPriv (s : State) (c n : Nat) : State := s.bell (.priv c n)

/-- Kinds of a partition's unit sources (R400). -/
def State.signalUnit (s : State) (p kind : Nat) : State := s.signal (2816 + 32 * p + kind)
/-- Kinds of a segment's sources: 0 calendar, 1 stray attention, 2 drop change, 3 segment fault (R401). -/
def State.signalSeg (s : State) (i kind : Nat) : State := s.signal (2560 + 4 * i + kind)

def State.decideRec (s : State) (l : LogRec) (ps : List Nat) : State := s.decideBy State.bell l ps
def State.endInterval (s : State) (cls i : Nat) : State := s.endIntervalBy State.bell cls i
def State.occur (s : State) (type cls i : Nat) (detail : W32) (window : Nat) (ps : List Nat) : State :=
  s.occurBy State.bell type cls i detail window ps
def State.stick (s : State) (i : Nat) (detail : W32) : State := s.stickBy State.bell i detail
def State.raise (s : State) (i : Nat) (detail : W32) : State := s.raiseBy State.bell i detail
def State.flushLog (s : State) (p : Nat) : State := s.flushLogBy State.bell p
def State.vendorSignal (s : State) (k : Nat) : State := s.ringVendor State.bell k

/-! ### Reports, retirements and restores (R396, R460–R463) -/

/-- A report record: its 64 bytes from its words after RSEQ and TIME (R397). -/
def rtvBytes (type drop : Nat) (rseq : W32) (time : Nat) (body : List Nat) : List Byte :=
  recordBytes (([packFields [(type, 28), (drop, 0)], rseq.toNat] ++ qword time ++ body ++ List.replicate 16 0).take 16)

/-- Put one record into the report ring, which has room (R396). -/
def State.putRtv (s : State) (p type drop : Nat) (body : List Nat) : State :=
  let r := (s.part p).rtvRing
  ((s.onPart p fun x => { x with rtvRing := { r with tail := (r.tail + 1) % r.size, rseq := nextSeq r.rseq } }).emit
    (.memWrite p (r.addr.toNat + r.tail * 64) (rtvBytes type drop r.rseq s.now body))).signalUnit p 17

def Partition.rtvRoom (x : Partition) : Bool :=
  x.rtvRing.en && x.session != .closed && !x.rtvRing.full && x.dmaOk

/-- A report record is written, after a loss record if records were lost, or counts as lost (R396). -/
def State.report (s : State) (p type drop : Nat) (body : List Nat) : State :=
  let r := (s.part p).rtvRing
  let s := if r.lostSince = 0 || !(s.part p).rtvRoom then s
    else (s.putRtv p 4 0 [r.lostSince]).onPart p fun x => { x with rtvRing := { x.rtvRing with lostSince := 0 } }
  if (s.part p).rtvRoom then s.putRtv p type drop body
  else s.onPart p fun x =>
    { x with rtvRing := { x.rtvRing with lost := satInc x.rtvRing.lost, lostSince := x.rtvRing.lostSince + 1 } }

/-- A retirement: one RETIRE record in place of the FAULT record; its occurrence enters the count of the interval in progress, or
starts one (R460, R463). -/
def State.occurRetire (s : State) (i : Nat) (detail : W32) (window : Nat) : State :=
  let l : LogRec := { type := 4, cls := 0, index := i, threshHit := false, time := s.now, count := 1,
                      detail := detail, window := window, part := 0 }
  let s := ((s.endInterval 0 i).traceRec { l with part := (s.faultParts i).headD 0 }).storeRec l
  let s := s.decideRec l (s.faultParts i)
  let key := coalesceKey 0 i
  s.onFlt fun f =>
    match tblFind f.coalesce key with
    | some c => { f with coalesce := tblPut f.coalesce key { c with count := c.count + 1, detail := detail } }
    | none => { f with coalesce := tblPut f.coalesce key { until_ := s.tick + f.interval, count := 0, detail := detail } }

/-- A restore: one RESTORE record, never coalesced (R460, R462, R463). -/
def State.occurRestore (s : State) (i : Nat) : State :=
  let l : LogRec := { type := 5, cls := 0, index := i, threshHit := false, time := s.now, count := 1,
                      detail := 0, window := 0, part := 0 }
  ((s.traceRec { l with part := (s.faultParts i).headD 0 }).storeRec l).decideRec l (s.faultParts i)

/-- The alarm state: some sticky bit is set (R449). -/
def State.alarm (s : State) : Bool := s.flt.faults.any fun e => e.2.sticky

/-- The number of sticky bits set (R449). -/
def State.stickyCount (s : State) : Nat := (s.flt.faults.filter fun e => e.2.sticky).length

/-- The relay is energised, and ALARM_N high, only while start-up has completed and no sticky fault is uncleared (R47, R48). -/
def State.relay (s : State) : Bool := s.boot.phase == .running && !s.alarm

/-- A sticky bit is cleared, unless its live bit is 1; a clear zeroes the repeat counter (R446). -/
def State.clearFault (s : State) (i : Nat) : State :=
  let x := s.faultRec i
  if x.live || !x.sticky then s else s.setFault i { x with sticky := false, rep := 0 }

/-! ### The failure journal (R200) -/

/-- One failure of a host or guest write: stored, or counted as lost; kept by the unit while no session exists (R200, R202). -/
def State.journal (s : State) (p : Nat) (e : JrnEntry) : State :=
  let b := s.bridge p
  let e := { e with time := BitVec.ofNat 32 s.now }
  let bump := fun (w : Window) => { w with failCnt := satInc w.failCnt }
  let s := if e.nowin then s else s.onWin p e.window bump
  if (s.part p).session == .closed then
    s.onBridge p fun b =>
      if b.kept.length < 256 then { b with kept := b.kept ++ [e] } else { b with keptLost := b.keptLost + 1 }
  else
    let e := { e with seq := b.jrnNext }
    let s := s.onBridge p fun b => { b with
      jrnNext := nextSeq b.jrnNext,
      journal := if 256 ≤ (b.jrnNext - 1 - b.jrnAck).toNat then b.journal else tblPut b.journal (b.jrnNext.toNat % 256) e,
      jrnLost := if 256 ≤ (b.jrnNext - 1 - b.jrnAck).toNat then satInc b.jrnLost else b.jrnLost,
      fenceSeqs := if e.dir then b.fenceSeqs else b.fenceSeqs ++ [e.seq] }
    s.signalUnit p 16

end Sys2Proof.Machine
end

