-- ==== Sys2Proof/Machine/CalOps.lean ====
section
/-! DEFINITION. Calendars: cycle arithmetic (R221–R224), slot entries (R225–R227), Whistle derivation (R232, R233), the calendar a
segment will have (R173, R229), frame budgets (R236). -/

namespace Sys2Proof.Machine

/-! ### Drops as enumerated -/

def Descriptor.chan (d : Descriptor) : Nat := if d.caps.getLsbD 8 then 3 else 1
def Descriptor.level (d : Descriptor) : Nat := field d.caps.toNat 15 14
/-- Native depth in bits (R110). -/
def depthBits (code : Nat) : Nat := if code = 0 then 6 else if code = 1 then 8 else 10
def depthCode (bits : Nat) : Nat := if bits = 6 then 0 else if bits = 8 then 1 else 2

def Drop.width (d : Drop) : Nat := (d.desc.map fun x => x.width.toNat).getD 0
def Drop.height (d : Drop) : Nat := (d.desc.map fun x => x.height.toNat).getD 0
def Drop.chan (d : Drop) : Nat := (d.desc.map Descriptor.chan).getD 1
/-- A capability bit of DD_CAPS (R110). -/
def Drop.cap (d : Drop) (bit : Nat) : Bool := (d.desc.map fun x => x.caps.getLsbD bit).getD false
/-- Enumerated (R169). -/
def Drop.found (d : Drop) : Bool := d.state != .absent && d.desc.isSome

/-- The enumerated drops of segment i, by global index, ascending. -/
def State.segDrops (s : State) (i : Nat) : List Nat := (s.drops.filter fun e => e.1 / 32 == i && e.2.found).map (·.1)

/-- Mixed: drops in both modes (R224). -/
def State.mixed (s : State) (i : Nat) : Bool :=
  (s.segDrops i).any (fun g => (s.drop g).colant2) && (s.segDrops i).any (fun g => !(s.drop g).colant2)

/-- Base rate is Colant-2: drops exist and all are in Colant-2 mode (R224). -/
def State.base2 (s : State) (i : Nat) : Bool := !(s.segDrops i).isEmpty && (s.segDrops i).all fun g => (s.drop g).colant2

/-- Dmax of a segment in ns (R112). -/
def State.dmax (s : State) (i : Nat) : Nat := maxNat ((s.segDrops i).map fun g => ((s.drop g).delay).getD 0)

/-! ### Cycle arithmetic, in w2 (R222) -/

def State.cycC (s : State) (i : Nat) : Nat := s.cycleUs i * 120
def State.cycD (s : State) (i : Nat) : Nat := ceilDiv (s.cycC i) 50000
def State.cycG (s : State) (i : Nat) : Nat := s.leadUs i * 120
def State.cycS (s : State) (i : Nat) : Nat := s.cycC i - s.cycG i - 6 - s.cycD i

/-! ### Slot entries (R225–R227) -/

structure Slot where
  idx : Nat
  start : Nat
  len : Nat
  drop : Nat
  kind : Nat
  rate : Nat
  part : Nat
  shaper : Nat
  deriving DecidableEq, Repr

def entrySlot (i : Nat) (e : W64) : Slot :=
  let x := e.toNat
  { idx := i, start := field x 63 41, len := field x 40 21, drop := field x 20 16, kind := field x 15 13, rate := field x 12 12,
    part := field x 11 9, shaper := field x 8 4 }

def Slot.word (x : Slot) : W64 :=
  BitVec.ofNat 64 (packFields [(x.start, 41), (x.len, 21), (x.drop, 16), (x.kind, 13), (x.rate, 12), (x.part, 9), (x.shaper, 4)])

def Slot.span (x : Slot) : Nat :=
  if x.kind = 0 then 0 else if x.kind = 6 then x.len + 5 else if x.rate = 1 then x.len else 2 * x.len
def Slot.finish (x : Slot) : Nat := x.start + x.span

/-- The non-idle entries of a calendar. -/
def slotsOf (t : Tbl W64) : List Slot := (t.map fun e => entrySlot e.1 e.2).filter fun x => x.kind != 0

/-- Ascending by START, index at equal START. -/
def byStart (l : List Slot) : List Slot :=
  l.mergeSort fun a b => decide (a.start < b.start) || (a.start == b.start && decide (a.idx ≤ b.idx))

/-- The slots of one kind of a drop number, in START order. -/
def slotsFor (l : List Slot) (drop kind : Nat) : List Slot := byStart (l.filter fun x => x.drop == drop && x.kind == kind)

/-- Link-hold points inside a slot: n of R236. -/
def Slot.holdPoints (x : Slot) : Nat := ceilDiv x.finish 120000 - ceilDiv x.start 120000

/-- Frame budget in words (R236). -/
def Slot.budget (x : Slot) : Nat := if x.rate = 1 then x.len - 72 * x.holdPoints else x.len - 36 * x.holdPoints

/-! ### Whistle derivation (R232) -/

/-- Longest run one Whistle covers, in w2. -/
def maxRun : Nat := 1048572

/-- The runs of Colant-2-rate entries given in START order, each as (first START, last end); an entry too long to cover is left out. -/
def runsOf (l : List Slot) : List (Nat × Nat) :=
  (l.foldl (fun (acc : List (Nat × Nat) × Bool) x =>
    if x.rate ≠ 1 ∨ x.kind = 6 then acc
    else if maxRun < x.span then (acc.1, false)
    else
      match acc.1, acc.2 with
      | (a, b) :: rest, true =>
        if x.start ≤ b + 8 ∧ x.finish - a ≤ maxRun then ((a, max b x.finish) :: rest, true)
        else ((x.start, x.finish) :: (a, b) :: rest, true)
      | rest, _ => ((x.start, x.finish) :: rest, true)) ([], false)).1.reverse

/-- Whistle entries for the runs of a calendar without Whistles, in ascending START, each at the lowest index that is idle and that no
partition has staged an entry for; and whether some run found none (R229, R233). -/
def placeWhistles (t : Tbl W64) (staged : List Nat) : Tbl W64 × Bool :=
  let free := (List.range 512).filter fun k => (tblFind t k).isNone && !staged.contains k
  let runs := runsOf (byStart (slotsOf t))
  let placed := runs.zip free
  (placed.foldl (fun t x =>
      tblPut t x.2 { idx := x.2, start := x.1.1 - 6, len := x.1.2 - x.1.1 + 3, drop := 0, kind := 6, rate := 0, part := 0, shaper := 0 : Slot }.word) t,
    decide (free.length < runs.length))

/-- A Whistle entry covers a Colant-2-rate entry. -/
def Slot.covers (w x : Slot) : Bool := w.kind == 6 && x.kind != 6 && x.rate == 1 && decide (w.start + 6 ≤ x.start) && decide (x.finish ≤ w.start + 3 + w.len)

/-! ### The calendar a segment has or will have (R173, R229, R231) -/

/-- The calendar without its Whistle entries. -/
def bareCalendar (t : Tbl W64) : Tbl W64 := tblFilter (fun i e => (entrySlot i e).kind != 6) t

/-- Apply a partition's changes: an idle entry releases its index. -/
def applyChanges (t changes : Tbl W64) : Tbl W64 :=
  changes.foldl (fun t e => if (entrySlot e.1 e.2).kind = 0 then tblErase t e.1 else tblPut t e.1 e.2) t

/-- A partition's commit is in effect at a boundary at unit time t. -/
def Staged.dueBy (x : Staged) (t : Nat) : Bool := x.state == .pending && decide (x.due ≤ t)

/-- Indices some partition has staged an entry for that is not in effect by unit time t; one staged idle is free once it is (R233). -/
def Segment.stagedIndices (x : Segment) (t : Nat) : List Nat :=
  (x.staged.filter fun e => !e.2.dueBy t).flatMap fun e =>
    (e.2.changes.filter fun c => (entrySlot c.1 c.2).kind != 0).map (·.1)

/-- The boundaries up to unit time t at which something decided takes effect, ascending. -/
def Segment.duesBy (x : Segment) (t : Nat) : List Nat :=
  ((x.vendor.map (·.due) ++ (x.staged.filter fun e => e.2.state == .pending).map fun e => e.2.due).filter fun b => decide (b ≤ t)).foldl insertAsc []

/-- What takes effect at one boundary: vendor changes, then commits (R173, R231). -/
def Segment.atDue (x : Segment) (cal : Tbl W64) (b : Nat) : Tbl W64 :=
  let idle := (x.vendor.filter fun v => v.due == b).foldl (fun c v =>
    match v.idle with
    | some d => tblFilter (fun i e => (entrySlot i e).drop != d) c
    | none => c) cal
  (x.staged.filter fun e => e.2.state == .pending && e.2.due == b).foldl (fun c e => applyChanges c e.2.changes) idle

/-- The calendar after every vendor change and commit due by unit time t, before Whistle entries are derived. A retirement empties the drop's
entries in the commits it finds for its own boundary, so that what is committed after it stays (R231). -/
def Segment.bareAt (x : Segment) (t : Nat) : Tbl W64 := (x.duesBy t).foldl x.atDue (bareCalendar x.calendar)

/-- The latest decision due by t on whether the segment is mixed. -/
def Segment.mixedAt (x : Segment) (t : Nat) : Bool :=
  (((x.vendor.filter fun v => decide (v.due ≤ t)).getLast?).map (·.mixed)).getD x.whistled

/-- Every decided change together: the calendar, and whether a Whistle run found no index. -/
def Segment.calendarAt (x : Segment) (t : Nat) : Tbl W64 × Bool :=
  let bare := x.bareAt t
  if x.mixedAt t then placeWhistles bare (x.stagedIndices t) else (bare, false)

/-- Something decided is due by unit time t. -/
def Segment.calDue (x : Segment) (t : Nat) : Bool := x.staged.any (fun e => e.2.dueBy t) || x.vendor.any fun v => decide (v.due ≤ t)

/-- Every change due by unit time t takes effect together (R173, R231, R233). -/
def Segment.swapCalendar (x : Segment) (t : Nat) : Segment :=
  { x with calendar := (x.calendarAt t).1, whistled := x.mixedAt t, staged := tblFilter (fun _ e => !e.dueBy t) x.staged,
           vendor := x.vendor.filter fun v => decide (t < v.due) }

/-- What a command finds of a segment's calendar: the changes whose boundary has been reached are in effect (R175). -/
def State.settleCal (s : State) (i : Nat) : State := if (s.seg i).calDue s.now then s.onSeg i fun x => x.swapCalendar s.now else s

/-- The latest due time of anything decided. -/
def Segment.lastDue (x : Segment) : Nat :=
  maxNat (((x.staged.filter fun e => e.2.state == .pending).map fun e => e.2.due) ++ x.vendor.map (·.due))

/-- Something is decided and not yet in effect. -/
def Segment.changing (x : Segment) : Bool := !x.vendor.isEmpty || x.staged.any fun e => e.2.state == .pending

/-- The active calendar, and with it the calendar to come while a change is pending (R360). -/
def State.calVersions (s : State) (i : Nat) : List (List Slot) :=
  let x := s.seg i
  if x.changing then [slotsOf x.calendar, slotsOf (x.calendarAt x.lastDue).1] else [slotsOf x.calendar]

/-- The first cycle boundary of segment i at least 200 µs after now (R173, R231, R233). -/
def State.swapInstant (s : State) (i : Nat) : Nat := s.instantFrom i (s.now + 200000)

/-- Vendor firmware derives the Whistle entries again (R233). -/
def State.rederive (s : State) (i : Nat) : State :=
  s.onSeg i fun x => { x with vendor := x.vendor ++ [{ due := s.swapInstant i, idle := none, mixed := s.mixed i }] }

/-- Run a change of drops' modes on record; the Whistle entries are derived again if the segment becomes or ceases to be mixed. -/
def State.remix (s : State) (i : Nat) (f : State → State) : State :=
  let t := f s
  if s.mixed i == t.mixed i then t else t.rederive i

/-- A Colant-2-rate entry that the Whistle entries in effect leave uncovered on a mixed segment (R233). -/
def State.uncovered (s : State) (i : Nat) (x : Slot) : Bool :=
  x.rate == 1 && x.kind != 6 && (s.seg i).whistled && s.mixed i && !(slotsOf (s.seg i).calendar).any fun w => w.covers x

/-- The slot cannot carry its traffic now: its rate is not its drop's, or it is uncovered (R230, R233). -/
def State.slotMismatch (s : State) (i : Nat) (x : Slot) : Bool :=
  x.kind != 6 && ((x.rate == 1) != (s.drop (i * 32 + x.drop)).colant2 || s.uncovered i x)

/-- A slot carries IDLE and the calendar source signals where its rate is not its drop's, where it is uncovered, where a Wafer slot's drop
has no Wafer, or a raw slot's has (R16, R230, R233, R330, log entry 93). -/
def State.slotIdle (s : State) (i : Nat) (x : Slot) : Bool :=
  let w := (s.drop (i * 32 + x.drop)).wafer
  s.slotMismatch i x || (x.kind == 2 && w == 0) || (x.kind == 1 && w != 0)

/-- SCH_CAL_STAT.MISMATCH of partition p (R259). -/
def State.mismatch (s : State) (p i : Nat) : Bool := (slotsOf (s.seg i).calendar).any fun x => x.part == p && s.slotMismatch i x

/-! ### The structural checks of CAL_COMMIT (R229, steps 1–3) -/

/-- A refusal for segment words: calendar index, figure, limit. -/
structure WordsRefusal where
  idx : Nat
  figure : Nat
  limit : Nat
  deriving DecidableEq, Repr

/-- Two entries may share offsets only where one is the Whistle period that covers the other. -/
def Slot.clash (a b : Slot) : Bool :=
  decide (a.start < b.finish) && decide (b.start < a.finish) && !a.covers b && !b.covers a

/-- The overlap with the lowest first shared offset: later entry's index, offset, earlier entry's index (log entry 20). -/
def overlapOf (l : List Slot) : Option WordsRefusal :=
  let o := byStart l
  (o.zipIdx.findSome? fun x => ((o.take x.2).find? fun a => a.clash x.1).map fun a =>
    { idx := x.1.idx, figure := x.1.start, limit := a.idx })

/-- Steps 1 and 2 of R229 on a whole calendar. -/
def wordsCheck (l : List Slot) (S : Nat) (mixed colant2 : Bool) : Option WordsRefusal :=
  let o := byStart l
  overlapOf l
    <|> (o.findSome? fun x =>
      if x.kind ≠ 6 then none
      else if x.start < 120 then some { idx := x.idx, figure := x.start, limit := 120 }
      else if S < x.finish then some { idx := x.idx, figure := x.finish, limit := S }
      else none)
    <|> (o.findSome? fun x =>
      if mixed && x.rate == 1 && x.kind != 6 && decide (maxRun < x.span) then some { idx := x.idx, figure := x.span, limit := maxRun }
      else none)
    <|> (o.findSome? fun x =>
      let bound := if colant2 then 84000 else 1200000
      if x.kind = 4 ∧ bound < x.span then some { idx := x.idx, figure := x.span, limit := bound } else none)

end Sys2Proof.Machine
end

