-- ==== Sys2Proof/Machine/Colour.lean ====
section
/-! DEFINITION. The exact colour arithmetic: EOTF tables (R313), scaler coefficients (R307) and positions (R306, R308), input and gamut
matrices (R312, R314), blending (R315), calibration sets (R316–R319, R512), dither (R320). Irrational values are evaluated in fixed point
with 192 fraction bits before the one rounding the spec asks for. -/

namespace Sys2Proof.Machine

/-! ### Roots of rationals, rounded -/

/-- (a ÷ b)^(1/r) rounded half to even, at most 2^21 − 1. -/
def rootRound (r a b : Nat) : Nat :=
  let fits := fun n => decide ((2 * n - 1) ^ r * b ≤ 2 ^ r * a)
  let n := (List.range 21).foldl (fun n k => let m := n + 2 ^ (20 - k); if fits m then m else n) 0
  if n % 2 = 1 ∧ (2 * n - 1) ^ r * b = 2 ^ r * a then n - 1 else n

/-! ### Fixed point -/

def fxBits : Nat := 192
def fxOne : Int := 2 ^ fxBits
def fxMul (a b : Int) : Int := (a * b).fdiv fxOne
def fxDiv (a b : Int) : Int := (a * fxOne).fdiv b
def fxRat (n : Int) (d : Nat) : Int := (n * fxOne).fdiv d
/-- x rounded to a whole number. -/
def fxRound (x : Int) : Int := roundHalfEven x (2 ^ fxBits)

/-- 2 × artanh y, |y| ≤ 1/3. -/
def fxAtanh2 (y : Int) : Int :=
  let y2 := fxMul y y
  2 * ((List.range 64).foldl (fun (a : Int × Int) k => (a.1 + a.2.fdiv (2 * k + 1), fxMul a.2 y2)) (0, y)).1

def fxLn2 : Int := fxAtanh2 (fxRat 1 3)

/-- ln x, x > 0. -/
def fxLn (x : Int) : Int :=
  let e : Int := (Nat.log2 x.toNat : Int) - fxBits
  let m := if e < 0 then x * 2 ^ (-e).toNat else x.fdiv (2 ^ e.toNat)
  e * fxLn2 + fxAtanh2 (fxDiv (m - fxOne) (m + fxOne))

/-- exp x. -/
def fxExp (x : Int) : Int :=
  let k := (x + fxLn2.fdiv 2).fdiv fxLn2
  let r := x - k * fxLn2
  let s := ((List.range 64).foldl (fun (a : Int × Int) i => (a.1 + a.2, (fxMul a.2 r).fdiv (i + 1))) (0, fxOne)).1
  if k < 0 then s.fdiv (2 ^ (-k).toNat) else s * 2 ^ k.toNat

/-- x^(n/d), x > 0. -/
def fxPow (x : Int) (n d : Nat) : Int := fxExp ((fxLn x * n).fdiv d)

/-- arctan (1/n). -/
def fxAtanInv (n : Nat) : Int :=
  ((List.range 100).foldl (fun (a : Int × Int) k =>
    (a.1 + (if k % 2 = 0 then 1 else -1) * a.2.fdiv (2 * k + 1), a.2.fdiv (n * n))) (0, fxRat 1 n)).1

def fxPi : Int := 16 * fxAtanInv 5 - 4 * fxAtanInv 239

/-- sin x. -/
def fxSin (x : Int) : Int :=
  let x2 := fxMul x x
  ((List.range 80).foldl (fun (a : Int × Int) k => (a.1 + a.2, -(fxMul a.2 x2).fdiv ((2 * k + 2) * (2 * k + 3)))) (0, x)).1

/-- sinc (n ÷ d). -/
def fxSinc (n : Int) (d : Nat) : Int :=
  if n = 0 then fxOne
  else if n % d = 0 then 0
  else
    let y := (fxPi * n).fdiv d
    fxDiv (fxSin y) y

/-! ### EOTF tables (R313) -/

/-- E(V) × 65,536 rounded, for V = k ÷ 1,024, by transfer. -/
def eotfEntry (trans k : Nat) : Nat :=
  let t : Int :=
    if k = 0 then 0
    else if trans = 0 then rootRound 5 (65536 ^ 5 * k ^ 12) (1024 ^ 12)
    else if trans = 1 then
      if k * 100000 ≤ 4045 * 1024 then roundHalfEven (65536 * k * 100) (1024 * 1292)
      else rootRound 5 (65536 ^ 5 * (1000 * k + 55 * 1024) ^ 12) ((1055 * 1024) ^ 12)
    else if trans = 2 then
      let v := fxPow (fxRat k 1024) 32 2523
      let num := v - fxRat 107 128
      if num ≤ 0 then 0
      else fxRound (fxPow (fxDiv num (fxRat 2413 128 - (v * 2392).fdiv 128)) 16384 2610 * 6553600)
    else if trans = 3 then
      let a := fxRat 17883277 100000000
      let b := fxOne - 4 * a
      let c := fxRat 1 2 - fxMul a (fxLn (4 * a))
      let x := if k ≤ 512 then fxRat (k * k) (3 * 1024 * 1024) else (fxExp (fxDiv (fxRat k 1024 - c) a) + b).fdiv 12
      fxRound (fxPow x 6 5 * 655360)
    else 64 * k
  min 0xFFFFF t.toNat

/-- Table n: 0 BT.1886, 1 sRGB, 2 PQ, 3 HLG, 4 linear. -/
def eotfTable (trans : Nat) : List Nat := (List.range 1025).map (eotfEntry trans)

/-- CLR_EOTF_CRCn (R328). -/
def eotfCrc (trans : Nat) : W32 := crc32 ((eotfTable trans).flatMap fun x => leBytes x 4)

/-- Stage 4. -/
def stage4 (t : Array Nat) (x : Nat) : Nat :=
  let i := x / 4
  let f := x % 4
  if f = 0 then t.getD i 0 else ((t.getD i 0 : Int) + roundHalfEven (((t.getD (i + 1) 0 : Int) - t.getD i 0) * f) 4).toNat

/-! ### Scaler (R306–R308) -/

/-- The eight taps of phase p. -/
def taps (filter p : Nat) : List Int :=
  let raw : List Int := (List.range 8).map fun t =>
    let n : Int := ((t : Int) - 3) * 64 - p      -- d = n ÷ 64
    if filter = 2 then (if (t = 3 ∧ p < 32) ∨ (t = 4 ∧ 32 ≤ p) then 1024 else 0)
    else if 256 ≤ n.natAbs then 0
    else if filter = 0 then fxRound (1024 * fxMul (fxSinc n 64) (fxSinc n 256))
    else fxRound (512 * fxMul (fxSinc n 128) (fxSinc n 256))
  let k := if p ≤ 32 then 3 else 4
  raw.set k (raw.getD k 0 + (1024 - raw.foldl (· + ·) 0))

/-- All 64 phases of a filter. -/
def tapTable (filter : Nat) : Array (List Int) := ((List.range 64).map (taps filter)).toArray

/-- A weighted sum over 1,024, saturated to 12 bits, and whether it saturated. -/
def sat12 (x : Int) : Nat × Bool :=
  let y := roundHalfEven x 1024
  ((clampInt 0 4095 y).toNat, decide (y < 0) || decide (4095 < y))

/-- Position of destination pixel j: src + j × step + (step − 65,536) >> 1 (R306). -/
def scalePos (src srcLen dstLen : Nat) (j : Int) : Int :=
  let step := roundHalfEven (srcLen * 65536) dstLen
  src * 65536 + j * step + (step - 65536).fdiv 2

/-- One output sample of a plane at positions px, py; taps clamp to x0 … x1, y0 … y1. -/
def scaleAt (tab : Array (List Int)) (f : Nat → Nat → Nat) (x0 x1 y0 y1 : Nat) (px py : Int) : Nat × Bool :=
  let at_ := fun (lo hi : Nat) (i : Int) (t : Nat) => (clampInt lo hi (i - 3 + t)).toNat
  let cx := tab.getD (px.fdiv 1024 % 64).toNat []
  let cy := tab.getD (py.fdiv 1024 % 64).toNat []
  let ix := px.fdiv 65536
  let iy := py.fdiv 65536
  let row : Nat → Nat × Bool := fun y => sat12 ((cx.zipIdx.map fun c => c.1 * (f (at_ x0 x1 ix c.2) y : Int)).foldl (· + ·) 0)
  let rows := cy.zipIdx.map fun c => (c.1, row (at_ y0 y1 iy c.2))
  let out := sat12 ((rows.map fun r => r.1 * (r.2.1 : Int)).foldl (· + ·) 0)
  (out.1, out.2 || rows.any fun r => r.1 != 0 && r.2.2)

/-- A source span ÷ a destination span lies outside 1/16 … 4 (R294). -/
def ratioBad (src dst : Nat) : Bool := decide (16 * src < dst) || decide (4 * dst < src)

/-! ### Colour descriptions (R309) -/

/-- The codes 0x00–0x07; chroma siting is left (log entry 31). -/
def colourOf (code : Nat) : ColourDesc :=
  match code with
  | 0 => { prim := 0, trans := 0, matrix := 0, full := false, topLeft := false }
  | 1 => { prim := 0, trans := 0, matrix := 0, full := true, topLeft := false }
  | 2 => { prim := 1, trans := 0, matrix := 1, full := false, topLeft := false }
  | 3 => { prim := 2, trans := 0, matrix := 1, full := false, topLeft := false }
  | 4 => { prim := 3, trans := 0, matrix := 2, full := false, topLeft := false }
  | 5 => { prim := 3, trans := 2, matrix := 2, full := false, topLeft := false }
  | 6 => { prim := 3, trans := 3, matrix := 2, full := false, topLeft := false }
  | _ => { prim := 0, trans := 1, matrix := 0, full := true, topLeft := false }

/-- A bitstream's description, element by element over COLOUR_DEFAULT. -/
def ColourInfo.resolve (c : ColourInfo) (dflt : Nat) : ColourDesc :=
  let d := colourOf dflt
  { prim := if c.primaries = 1 then 0 else if c.primaries = 5 then 1 else if c.primaries = 6 ∨ c.primaries = 7 then 2
            else if c.primaries = 9 then 3 else d.prim,
    trans := if [1, 6, 14, 15].contains c.transfer then 0 else if c.transfer = 13 then 1 else if c.transfer = 16 then 2
             else if c.transfer = 18 then 3 else if c.transfer = 8 then 4 else d.trans,
    matrix := if c.matrix = 0 then 3 else if c.matrix = 1 then 0 else if c.matrix = 5 ∨ c.matrix = 6 then 1
              else if c.matrix = 9 then 2 else d.matrix,
    full := c.full.getD d.full,
    topLeft := (c.siting.map (· == 2)).getD d.topLeft }

/-! ### Stage 3 (R312) -/

/-- Kr and Kb of a matrix, in 10^-4. -/
def lumaWeights (matrix : Nat) : Nat × Nat :=
  if matrix = 0 then (2126, 722) else if matrix = 1 then (2990, 1140) else (2627, 593)

/-- round_half_even(n ÷ d × 4,096 ÷ span × 8,192). -/
def inCoeff (n : Int) (d span : Nat) : Int := roundHalfEven (n * 4096 * 8192) (d * span)

structure InputMatrix where
  rows : List (List Int)
  y0 : Int
  c0 : Int
  deriving DecidableEq, Repr

/-- The input matrix of a video source of a depth: inputs Y, Cb, Cr, or for GBR its planes G, B, R. -/
def videoMatrix (c : ColourDesc) (depth : Nat) : InputMatrix :=
  let ySpan := if c.full then (if depth = 8 then 4080 else 4092) else 3504
  let cSpan := if c.full then (if depth = 8 then 4080 else 4092) else 3584
  if c.matrix = 3 then
    let k := inCoeff 1 1 ySpan
    { rows := [[0, 0, k], [k, 0, 0], [0, k, 0]], y0 := 0, c0 := 0 }
  else
    let w := lumaWeights c.matrix
    let kr : Int := w.1
    let kb : Int := w.2
    let kg := 10000 - kr - kb
    let y := inCoeff 1 1 ySpan
    { rows := [[y, 0, inCoeff (2 * (10000 - kr)) 10000 cSpan],
               [y, inCoeff (-(2 * kb * (10000 - kb))) (10000 * kg.toNat) cSpan, inCoeff (-(2 * kr * (10000 - kr))) (10000 * kg.toNat) cSpan],
               [y, inCoeff (2 * (10000 - kb)) 10000 cSpan, 0]],
      y0 := if c.full then 0 else 256, c0 := 2048 }

/-- Images: the identity with span 4,095. -/
def imageMatrix : InputMatrix := { rows := [[8194, 0, 0], [0, 8194, 0], [0, 0, 8194]], y0 := 0, c0 := 0 }

/-- Stage 3 on one triple, and how many channels saturated. -/
def stage3 (m : InputMatrix) (v : List Nat) : List Nat × Nat :=
  let ins : List Int := [(v.getD 0 0 : Int) - m.y0, (v.getD 1 0 : Int) - m.c0, (v.getD 2 0 : Int) - m.c0]
  let out := m.rows.map fun r => roundHalfEven (((r.zip ins).map fun x => x.1 * x.2).foldl (· + ·) 0) 8192
  (out.map fun x => (clampInt 0 4096 x).toNat, (out.filter fun x => decide (x < 0) || decide (4096 < x)).length)

/-- The effective alpha. -/
def effAlpha (a12 opacity : Nat) : Nat := (roundHalfEven (roundHalfEven (a12 * 8194) 8192 * opacity) 4096).toNat

/-! ### Stage 5 (R314) -/

/-- Chromaticities of primaries R, G, B in 10^-4, as the named standards give them (log entry 31). -/
def chromaticities (prim : Nat) : List (Nat × Nat) :=
  if prim = 0 then [(6400, 3300), (3000, 6000), (1500, 600)]
  else if prim = 1 then [(6400, 3300), (2900, 6000), (1500, 600)]
  else if prim = 2 then [(6300, 3400), (3100, 5950), (1550, 700)]
  else [(7080, 2920), (1700, 7970), (1310, 460)]

/-- 3 × 3 rational matrices, row by row. -/
abbrev Mat3 := List (List ℚ)

def matVec (m : Mat3) (v : List ℚ) : List ℚ := m.map fun r => ((r.zip v).map fun x => x.1 * x.2).foldl (· + ·) 0
def matCols (m : Mat3) : Mat3 := (List.range 3).map fun i => m.map fun r => r.getD i 0
def matMul (a b : Mat3) : Mat3 := matCols ((matCols b).map (matVec a))

/-- The inverse, by cofactors. -/
def matInv (m : Mat3) : Mat3 :=
  let e := fun i j => (m.getD (i % 3) []).getD (j % 3) 0
  let cof := fun i j => e (i + 1) (j + 1) * e (i + 2) (j + 2) - e (i + 1) (j + 2) * e (i + 2) (j + 1)
  let det := e 0 0 * cof 0 0 + e 0 1 * cof 0 1 + e 0 2 * cof 0 2
  (List.range 3).map fun i => (List.range 3).map fun j => cof j i / det

/-- The RGB to XYZ matrix of primaries with D65 white (SMPTE RP 177). -/
def toXyz (prim : Nat) : Mat3 :=
  let xyz := fun (c : Nat × Nat) => [(c.1 : ℚ) / c.2, 1, ((10000 - c.1 - c.2 : Nat) : ℚ) / c.2]
  let p := matCols ((chromaticities prim).map xyz)
  let s := matVec (matInv p) (xyz (3127, 3290))
  p.map fun r => (r.zip s).map fun x => x.1 * x.2

/-- The Q2.13 gamut matrix to BT.2020: rounded, with each row's difference from 8,192 on its diagonal. -/
def gamutMatrix (prim : Nat) : List (List Int) :=
  if prim = 3 then [[8192, 0, 0], [0, 8192, 0], [0, 0, 8192]]
  else
    let m := (matMul (matInv (toXyz 3)) (toXyz prim)).map fun r => r.map fun x => roundHalfEven ((x * 8192).num) ((x * 8192).den)
    m.zipIdx.map fun r => r.1.set r.2 (r.1.getD r.2 0 + (8192 - r.1.foldl (· + ·) 0))

/-- Saturation to UQ4.16. -/
def sat20 (x : Int) : Nat := (clampInt 0 0xFFFFF x).toNat
def over20 (x : Int) : Bool := decide (x < 0) || decide (0xFFFFF < x)

/-- Stage 5 on one triple, and how many channels saturated. -/
def stage5 (m : List (List Int)) (v : List Nat) : List Nat × Nat :=
  let out := m.map fun r => roundHalfEven (((r.zip v).map fun x => x.1 * (x.2 : Int)).foldl (· + ·) 0) 8192
  (out.map sat20, (out.filter over20).length)

/-- Stage 6 on one channel (R315). -/
def stage6 (src dst a : Nat) : Nat := (roundHalfEven (src * a + dst * (4096 - a)) 4096).toNat

/-! ### Calibration sets (R316, R512) -/

/-- Default OETF entry: (k ÷ 1,024)^(1/2.4) × 65,535. -/
def defaultOetf : List Nat := (List.range 1025).map fun k => rootRound 12 (65535 ^ 12 * k ^ 5) (1024 ^ 5)

def gridCols (w : Nat) : Nat := (w - 1) / 16 + 2
def gridRows (h : Nat) : Nat := (h - 1) / 16 + 2

/-- The default set of a drop. -/
def defaultCal (w h ch : Nat) : CalSet :=
  { width := w, height := h, chan := ch == 3, reservedZero := true,
    matrix := if ch = 3 then [13603, -4814, -597, -1021, 9281, -68, -149, -824, 9165] else [2152, 5554, 486, 0, 0, 0, 0, 0, 0],
    oetf := List.replicate (if ch = 3 then 3 else 1) defaultOetf,
    gains := List.replicate ((if ch = 3 then 3 else 1) * gridCols w * gridRows h) 2048 }

/-- The loaded set matches the drop. -/
def Drop.calValid (d : Drop) : Bool :=
  match d.calNow with
  | some c => c.width == d.width && c.height == d.height && c.chan == (d.chan == 3)
  | none => false

/-- The set in force. -/
def Drop.calSet (d : Drop) : CalSet := if d.calValid then d.calNow.getD (defaultCal d.width d.height d.chan) else defaultCal d.width d.height d.chan

/-- The bytes of a set (R512). -/
def calBytes (c : CalSet) : List Byte :=
  leBytes c.width 2 ++ leBytes c.height 2 ++ [BitVec.ofNat 8 (b2n c.chan), 0, 0, 0] ++ (c.matrix.flatMap fun m => leBytes (unsignedOf m 16) 2)
    ++ (c.oetf.flatMap fun t => t.flatMap fun x => leBytes x 2) ++ c.gains.flatMap fun g => leBytes g 2

/-- CLR_CAL_CRC (R328). -/
def Drop.calCrc (d : Drop) : W32 := crc32 (calBytes d.calSet)

/-! ### Stages 7–9 (R317–R319) -/

/-- Stage 7: one output channel, and whether it saturated. -/
def stage7 (row : List Int) (bright : Nat) (v : List Nat) : Nat × Bool :=
  let sum := ((row.zip v).map fun x => x.1 * (x.2 : Int)).foldl (· + ·) 0
  let y := roundHalfEven (sum * (8 * (bright + 1) : Nat)) (2 ^ 24)
  (sat20 y, over20 y)

/-- Stage 8 at pixel (x, y), channel k of nc. -/
def stage8 (gains : Array Nat) (cols nc k x y : Nat) (v : Nat) : Nat × Bool :=
  let m := x / 16
  let n := y / 16
  let fx := x % 16
  let fy := y % 16
  let g := fun a b => gains.getD (((n + b) * cols + m + a) * nc + k) 0
  let gain := roundHalfEven (g 0 0 * (16 - fx) * (16 - fy) + g 1 0 * fx * (16 - fy) + g 0 1 * (16 - fx) * fy + g 1 1 * fx * fy : Nat) 256
  let out := roundHalfEven (v * gain) 2048
  (sat20 out, over20 out)

/-- Stage 9. -/
def stage9 (o : Array Nat) (v : Nat) : Nat × Bool :=
  let x := min v 0x10000
  let i := x / 64
  let f := x % 64
  let y := if f = 0 then (o.getD i 0 : Int) else (o.getD i 0 : Int) + roundHalfEven (((o.getD (i + 1) 0 : Int) - o.getD i 0) * f) 64
  (y.toNat, decide (0x10000 < v))

/-! ### Stage 10 (R320) -/

/-- One line of one channel: the codes, the errors for the line below and the saturations. -/
def ditherLine (n : Nat) (drive : List Nat) (errIn : Array Int) : List Nat × Array Int × Nat :=
  let w := drive.length
  let r := drive.zipIdx.foldl (fun (a : List Nat × Array Int × Nat × Int) d =>
    let v : Int := (d.1 * n : Nat) + errIn.getD d.2 0 + a.2.2.2
    let q0 := (v + 32767).fdiv 65535
    let q := clampInt 0 n q0
    let e := clampInt (-32767) 32767 (v - q * 65535)
    let e7 := (7 * e).fdiv 16
    let e3 := (3 * e).fdiv 16
    let e5 := (5 * e).fdiv 16
    let e1 := e - e7 - e3 - e5
    let add := fun (b : Array Int) i x => b.set! i (b.getD i 0 + x)
    let b := add a.2.1 d.2 e5
    let b := if d.2 = 0 then b else add b (d.2 - 1) e3
    let b := if d.2 + 1 < w then add b (d.2 + 1) e1 else b
    (q.toNat :: a.1, b, a.2.2.1 + b2n (q0 != q), e7)) ([], Array.replicate w 0, 0, 0)
  (r.1.reverse, r.2.1, r.2.2.1)

/-- A whole channel, line by line. -/
def ditherPlane (n w : Nat) (lines : List (List Nat)) : List (List Nat) × Nat :=
  let r := lines.foldl (fun (a : List (List Nat) × Array Int × Nat) l =>
    let x := ditherLine n l a.2.1
    (x.1 :: a.1, x.2.1, a.2.2 + x.2.2)) ([], Array.replicate w 0, 0)
  (r.1.reverse, r.2.2)

end Sys2Proof.Machine
end

