-- ==== Sys2Proof/Machine/Cmd.lean ====
section
/-! DEFINITION. Ring commands: fetching entries (R141–R146), the interpreter's order (R154), validation (R148, R151, R152, R495–R497)
and completion entries (R144, R149). -/

namespace Sys2Proof.Machine

/-! ### A command entry (R148) -/

/-- Field of an entry: n bits from bit b of the byte at offset o. -/
def entryField (e : BitVec 512) (o b n : Nat) : Nat := (e.toNat / 2 ^ (8 * o + b)) % 2 ^ n

/-- Header fields of an entry (R148). -/
def entryOpcode (e : BitVec 512) : Nat := entryField e 0 0 8
def entryNotify (e : BitVec 512) : Bool := entryField e 1 0 1 == 1
def entryTag (e : BitVec 512) : Nat := entryField e 4 0 32
def entryObject (e : BitVec 512) : Nat := entryField e 8 0 32

/-- The opcodes of R494. -/
def knownOpcodes : List Nat :=
  [0x01, 0x02, 0x03, 0x04, 0x05, 0x06, 0x10, 0x11, 0x12, 0x13, 0x14, 0x15, 0x20, 0x21, 0x28, 0x29, 0x2A, 0x30, 0x31, 0x32, 0x33, 0x34,
   0x40, 0x41, 0x42, 0x43, 0x44, 0x45, 0x50, 0x51, 0x52, 0x58, 0x59, 0x5A, 0x5B, 0x5C, 0x60, 0x61, 0x62, 0x68, 0x69, 0x6A]

/-! ### Replies (R150, R152) -/

structure Reply where
  status : Nat := 0
  detail : Nat := 0
  res0 : Nat := 0
  res1 : Option Nat := none    -- none: the validation time
  deriving DecidableEq, Repr

/-- What a command's meaning answers: a completion with the state after it, or a wait. -/
inductive CmdOut where
  | reply (x : Reply) (s : State)
  | hold (w : Wait) (s : State)
  deriving DecidableEq, Repr

/-- Object types in DETAIL (R152, R300, R304, R430, R499). -/
def typeSession : Nat := 0x01
def typeRing : Nat := 0x02
def typeStream : Nat := 0x03
def typeDrop : Nat := 0x04
def typeWindow : Nat := 0x05
def typeCalendar : Nat := 0x06
def typeGateList : Nat := 0x07
def typeImage : Nat := 0x08
def typeCanvas : Nat := 0x09
def typeGuard : Nat := 0x0A
def typeShaper : Nat := 0x0B

def replyConflict (ty st idx : Nat) : Reply := { status := 1, detail := ty * 256 + st, res0 := idx }
def replyNotOwner : Reply := { status := 2 }
def replyRefused (reason figure : Nat) : Reply := { status := 3, detail := reason, res0 := figure }
def replyPastBase : Reply := { status := 4 }
/-- The unit supports levels 1 and 2 (R152, R157). -/
def replyVersion : Reply := { status := 5, detail := 0x0201 }
/-- DETAIL of BAD_PARAM: the byte and the bit within it of bit position b of the entry (R152). -/
def replyBadParam (b : Nat) : Reply := { status := 6, detail := b / 8 + b % 8 * 256 }
def replyResource : Reply := { status := 7 }
def replyRetired : Reply := { status := 8 }
def replyAborted : Reply := { status := 9 }
def replyOk (r0 : Nat) : Reply := { res0 := r0 }

/-- Bit position of bit b of byte o. -/
def bitPos (o b : Nat) : Nat := 8 * o + b

/-- A check that fails with x where c holds. -/
def failIf (c : Bool) (x : Reply) : Option Reply := if c then some x else none

/-- The first failing check (R151). -/
def firstFail (l : List (Option Reply)) : Option Reply := l.findSome? id

/-- Checks, then the effect. -/
def checked (s : State) (l : List (Option Reply)) (k : CmdOut) : CmdOut :=
  match firstFail l with
  | some x => .reply x s
  | none => k

/-! ### Completions (R142–R149) -/

def Ring.size (x : Ring) : Nat := 2 ^ x.sqLog2
def Ring.cqSize (x : Ring) : Nat := 2 ^ x.cqLog2

/-- The 32 bytes of a completion (R149). -/
def completionBytes (e : BitVec 512) (x : Reply) (valid sqHead sqIndex : Nat) (phase : Bool) : List Byte :=
  recordBytes ([entryTag e, packFields [(entryOpcode e, 24), (x.status, 16), (sqHead, 0)]]
    ++ qword x.res0 ++ qword (x.res1.getD valid) ++ [x.detail, packFields [(b2n phase, 31), (sqIndex, 0)]])

/-- SQ entries that may be fetched now, and how many in one read of at most 512 bytes (R141, R143). -/
def Ring.fetchable (x : Ring) : Nat :=
  let ahead := (x.sqTail + x.size - x.sqHead) % x.size
  let room := x.cqSize - (x.unreleased + x.fetched.length)
  min (min ahead room) (min 8 (x.size - x.sqHead))

/-- Fetch as R143 allows: one read outstanding at a time on a ring, none while a failed one waits for its retry (R146). -/
def State.fetch (s : State) (p r : Nat) : State :=
  let x := s.ring p r
  let n := x.fetchable
  if !(s.part p).dmaOk || x.state != .active || x.reading != 0 || x.retryTick.isSome || n == 0 then s
  else (s.onRing p r fun x => { x with reading := n }).startRead p (.fetch p r x.sqHead n) (x.sqAddr.toNat + 64 * x.sqHead) (64 * n)

/-- Fetch on every ring of a partition. -/
def State.fetchAll (s : State) (p : Nat) : State := (List.range 16).foldl (fun s r => s.fetch p r) s

/-- Complete the oldest fetched command of a ring: write the completion, signal it if NOTIFY is set (R126, R148, R149). -/
def State.complete (s : State) (p r : Nat) (x : Reply) (valid : Nat) : State :=
  let g := s.ring p r
  match g.fetched with
  | [] => s
  | c :: rest =>
    let bytes := completionBytes c.entry x valid g.sqHead c.index g.phase
    let next := (g.cqTail + 1) % g.cqSize
    let s := s.onRing p r fun g =>
      { g with fetched := rest, wait := none, descs := [], cqTail := next, unreleased := g.unreleased + 1, announced := tblErase g.announced c.index,
               phase := if next = 0 then !g.phase else g.phase }
    let s := s.writeEntry p r (g.cqAddr.toNat + 32 * g.cqTail) bytes
    let s := if entryNotify c.entry then s.signalUnit p r else s
    s.fetch p r

/-- Commands that add load (R359): they wait while a vendor core restarts, because admission is serialised (R481). -/
def loadOpcodes : List Nat := [0x10, 0x30, 0x33, 0x52, 0x5A]

/-- The ring's next command waits for the end of a vendor core restart (R481). -/
def State.loadWaits (s : State) (g : Ring) : Bool :=
  !s.boot.coreDown.isEmpty && (g.fetched.head?.any fun c => loadOpcodes.contains (entryOpcode c.entry))

/-- The ring the interpreter of partition p takes next: ascending, after the ring served last; a ring whose command waits is skipped, for a restart's
end too (R154, R481, log entry 147). -/
def State.nextRing (s : State) (p : Nat) : Option Nat :=
  let x := s.part p
  ((List.range 16).map fun k => (x.lastRing + 1 + k) % 16).find? fun r =>
    let g := tblGet {} x.rings r
    !g.fetched.isEmpty && g.wait.isNone && !s.loadWaits g

/-- The control core that interprets partition p's commands (R481): CC0 for P0–P3, CC1 for P4–P7. -/
def interpreterOf (p : Nat) : Nat := if p < 4 then 0 else 1

/-- The interpreter of p runs: its core is not being restarted (R481). -/
def State.interprets (s : State) (p : Nat) : Bool := (tblFind s.boot.coreDown (interpreterOf p)).isNone

/-- Unknown opcodes at the interpreter's turn complete BAD_PARAM with DETAIL 0 (R495). -/
def State.drainUnknown (fuel : Nat) (s : State) (p : Nat) : State :=
  match fuel with
  | 0 => s
  | k + 1 =>
    match s.nextRing p with
    | none => s
    | some r =>
      match (s.ring p r).fetched with
      | [] => s
      | c :: _ =>
        if knownOpcodes.contains (entryOpcode c.entry) || !s.interprets p then s
        else ((s.onPart p fun x => { x with lastRing := r }).complete p r (replyBadParam 0) s.now).drainUnknown k p

/-- As many commands as can be fetched at once bound the unknown ones. -/
def State.settleRings (s : State) (p : Nat) : State :=
  let n := sumNat ((s.part p).rings.map fun e => e.2.fetched.length)
  s.drainUnknown n p

/-! ### Validation (R151) -/

/-- Header fields that are not reserved: (bit position, width). -/
def headerLayout : List (Nat × Nat) := [(0, 8), (8, 1), (32, 32), (64, 32)]

/-- The lowest set bit of an entry outside every field of its layout (R148). -/
def reservedBit (layout : List (Nat × Nat)) (e : BitVec 512) : Option Nat :=
  (List.range 512).find? fun i => e.getLsbD i && !(headerLayout ++ layout).any fun f => decide (f.1 ≤ i) && decide (i < f.1 + f.2)

/-- Step 1 of R151: the lowest offending position among reserved bits and fields out of range. -/
def badField (layout : List (Nat × Nat)) (checks : List (Bool × Nat)) (e : BitVec 512) : Option Nat :=
  minNat? ((reservedBit layout e).toList ++ ((checks.filter (·.1)).map (·.2)))

/-- OBJECT out of its range (R495). -/
def objectCheck (e : BitVec 512) (lo hi : Nat) : Bool × Nat :=
  (decide (entryObject e < lo) || decide (hi < entryObject e), bitPos 8 0)

/-- Step 2, with the ring-0 rule (R497): only OPEN_SESSION while CLOSED; ring-0 opcodes only on ring 0. -/
def sessionCheck (s : State) (p r op : Nat) (ring0 : Bool) : List (Option Reply) :=
  [failIf ((s.part p).session == .closed && op != 0x01) (replyConflict typeSession 0 0),
   failIf (ring0 && r != 0) (replyConflict typeRing 1 r)]

/-- The command at the interpreter's turn on ring r, if its opcode is op and its core runs. -/
def State.turn (s : State) (p r op : Nat) : Option (BitVec 512) :=
  if s.nextRing p == some r && s.interprets p then
    match (s.ring p r).fetched with
    | c :: _ => if entryOpcode c.entry = op then some c.entry else none
    | [] => none
  else none

/-- What a validated command does to its ring: a completion, or a wait that holds the ring (R152, R153). -/
def State.finish (s : State) (p r : Nat) (o : CmdOut) : State :=
  match o with
  | .reply x t => ((if x.status = 0 then t else s).complete p r x s.now).settleRings p
  | .hold w t => (t.onRing p r fun g => { g with wait := some w, validNs := s.now }).settleRings p

/-- A ring command: it acts only at its turn; else nothing happens (log entry 4). -/
def ringCmd (s : State) (p r op : Nat) (ring0 : Bool) (layout : List (Nat × Nat)) (bad : BitVec 512 → List (Bool × Nat))
    (act : State → BitVec 512 → CmdOut) : Res :=
  match s.turn p r op with
  | none => .next s
  | some e =>
    let s := s.onPart p fun x => { x with lastRing := r }
    .next (s.finish p r
      (match badField layout (bad e) e with
       | some b => .reply (replyBadParam b) s
       | none => checked s (sessionCheck s p r op ring0) (act s e)))

/-- A waiting command ends: its completion carries the time it was validated (R149, R153). -/
def State.endWait (s : State) (p r : Nat) (x : Reply) : State := (s.complete p r x (s.ring p r).validNs).settleRings p

/-- A feed that waits for input space of a stream completes ABORTED (R505). -/
def State.abortFeeds (s : State) (slot : Nat) : State :=
  let waits := (List.range 8).flatMap fun p => ((s.part p).rings.filter fun g =>
    match g.2.wait with
    | some (.feedSpace k _) => k == slot
    | _ => false).map fun g => (p, g.1)
  waits.foldl (fun s w => s.endWait w.1 w.2 replyAborted) s

/-! ### Checks that many opcodes share -/

/-- The drop is in the partition's ownership (R26). -/
def ownDrop (s : State) (p g : Nat) : Option Reply := failIf (!s.owns p g) replyNotOwner

/-- The drop reads RETIRED: itself, or by its segment's retirement (R169, R454). -/
def State.dropState (s : State) (g : Nat) : DropState :=
  let d := s.drop g
  if (s.seg (g / 32)).retired then .retired
  else if d.state = .fallback ∧ (d.activeAt.map fun t => decide (t ≤ s.now)).getD false then .active
  else d.state

def DropState.code : DropState → Nat
  | .absent => 0
  | .active => 1
  | .fallback => 2
  | .retired => 3

/-- Step 5 for a drop (R151). -/
def notRetired (s : State) (g : Nat) : Option Reply := failIf (s.dropState g == .retired) replyRetired

/-- Step 6 for a surface's drop: ACTIVE or FALLBACK (R169). -/
def dropPresent (s : State) (g : Nat) : Option Reply :=
  failIf (s.dropState g == .absent) (replyConflict typeDrop 0 g)

def Session.code : Session → Nat
  | .closed => 0
  | .opened => 1
  | .lapsed => 2

def RingState.code : RingState → Nat
  | .absent => 0
  | .active => 1
  | .error => 2

def StreamState.code : StreamState → Nat
  | .idle => 1
  | .running => 2
  | .failed => 3

def WinState.code : WinState → Nat
  | .disabled => 1
  | .enabled => 2
  | .draining => 3

def CalState.code : CalState → Nat
  | .clean => 1
  | .staged => 2
  | .pending => 3

def GateState.code : GateState → Nat
  | .idle => 1
  | .armed => 2
  | .running => 3

end Sys2Proof.Machine
end

