-- ==== Sys2Proof/Machine/WaferCode.lean ====
section
/-! DEFINITION. The Wafer block code: geometry (R331), transforms (R335–R337), bit syntax (R338–R342), reconstruction (R344), floor and
rate control (R346–R351). -/

namespace Sys2Proof.Machine

/-- What a slot's encoding depends on besides the pictures (R329, R331, R349). -/
structure Panel where
  w : Nat
  h : Nat
  ch : Nat        -- 3 for RGB, 1 for one channel
  d : Nat
  ver : Nat
  csh : Nat       -- WAF_CTRL.W2_CSH
  deriving DecidableEq, Repr

def Panel.tw (p : Panel) : Nat := ceilDiv p.w 16
def Panel.nb (p : Panel) : Nat := ceilDiv p.h 16
def Panel.groups (p : Panel) : Nat := ceilDiv p.tw 8

/-- Blocks of tile (band, column) that exist, as their top left pixels (R331). -/
def Panel.blocks (p : Panel) (band col : Nat) : List (Nat × Nat) :=
  ((List.range 16).map fun i => (col * 16 + i % 4 * 4, band * 16 + i / 4 * 4)).filter fun b => decide (b.1 < p.w) && decide (b.2 < p.h)

/-- In-panel pixels of bands a to b − 1 (R345). -/
def Panel.pixels (p : Panel) (a b : Nat) : Nat := p.w * (min (16 * b) p.h - min (16 * a) p.h)

/-- Bands of slot j of k (R345). -/
def Panel.bands (p : Panel) (j k : Nat) : Nat × Nat := (j * p.nb / k, (j + 1) * p.nb / k)

/-! ### Floor (R346, R347) -/

def Panel.hBits (p : Panel) : Nat := if p.ver = 1 then 5 else 7
def Panel.eBits (p : Panel) : Nat := if p.ch = 1 then 2 + p.d else 4 + 3 * p.d

/-- f_t of a tile (R346). -/
def Panel.floorBits (p : Panel) (band col : Nat) : Nat := p.hBits + (p.blocks band col).length * p.eBits

/-- Columns of group g (R331). -/
def Panel.groupCols (p : Panel) (g : Nat) : List Nat := (natRange (8 * g) (8 * g + 7)).filter fun c => decide (c < p.tw)

/-- F_slot of bands a to b − 1 (R346). -/
def Panel.slotFloor (p : Panel) (a b : Nat) : Nat :=
  sumNat ((List.range (b - a)).flatMap fun k => (List.range p.groups).map fun g =>
    2 + ceilDiv (sumNat ((p.groupCols g).map fun c => p.floorBits (a + k) c)) 16 + 3)

/-- B_min of bands a to b − 1 (R347). -/
def Panel.minBudget (p : Panel) (a b : Nat) : Nat := max (p.slotFloor a b) (ceilDiv (15 * p.pixels a b) 100)

/-! ### Transforms (R335–R337) -/

/-- Arithmetic shift right by one. -/
def asr (x : Int) : Int := x.fdiv 2

/-- RGB to Y, Co, Cg (R335). -/
def ycocg (r g b : Int) : List Int :=
  let co := r - b
  let t := b + asr co
  let cg := g - t
  [t + asr cg, co, cg]

/-- Y, Co, Cg to RGB (R335). -/
def ycocgInv (y co cg : Int) : List Int :=
  let t := y - asr cg
  let g := cg + t
  let b := t - asr co
  [b + co, g, b]

/-- Four values forward: ll, hh, h0, h1 (R336). -/
def lift4 (a b c d : Int) : List Int :=
  let h0 := a - b
  let l0 := b + asr h0
  let h1 := c - d
  let l1 := d + asr h1
  let hh := l0 - l1
  [l1 + asr hh, hh, h0, h1]

/-- ll, hh, h0, h1 back to four values (R336). -/
def unlift4 (ll hh h0 h1 : Int) : List Int :=
  let l1 := ll - asr hh
  let l0 := l1 + hh
  let b := l0 - asr h0
  let d := l1 - asr h1
  [b + h0, b, d + h1, d]

/-- A function of four applied to a list of four. -/
def on4 (f : Int → Int → Int → Int → List Int) (l : List Int) : List Int :=
  match l with
  | [a, b, c, d] => f a b c d
  | _ => l

/-- Rows of a 4 × 4 block in raster order, and back. -/
def rowsOf (l : List Int) : List (List Int) := (List.range 4).map fun i => (l.drop (4 * i)).take 4
def transpose4 (m : List (List Int)) : List (List Int) := (List.range 4).map fun i => m.map fun r => r.getD i 0

/-- The forward 2-D transform: rows, then columns (R336). Raster order by (v, u). -/
def fwd2 (l : List Int) : List Int :=
  (transpose4 ((transpose4 ((rowsOf l).map (on4 lift4))).map (on4 lift4))).flatten

/-- The inverse 2-D transform: columns, then rows (R336). -/
def inv2 (l : List Int) : List Int :=
  ((transpose4 ((transpose4 (rowsOf l)).map (on4 unlift4))).map (on4 unlift4)).flatten

/-- Raster positions of AC indices 1–15 in scan order (R337). -/
def scanOrder : List Nat := [1, 4, 5, 2, 3, 8, 12, 6, 7, 9, 13, 10, 11, 14, 15]

def signOf (x : Int) : Int := if x < 0 then -1 else if x = 0 then 0 else 1

/-- Quantise and dequantise with shift s (R337). -/
def quant (c : Int) (s : Nat) : Int := signOf c * ((c.natAbs / 2 ^ s : Nat) : Int)
def dequant (q : Int) (s : Nat) : Int :=
  if q = 0 then 0 else signOf q * ((q.natAbs * 2 ^ s + (if s = 0 then 0 else 2 ^ (s - 1)) : Nat) : Int)

/-- SC of a tile (R337). -/
def chromaShift (ver d shift csh : Nat) : Nat :=
  if ver = 1 then (if shift = 0 then 0 else min (shift + 1) (d + 2)) else min (shift + csh) (d + 2)

/-! ### Bits (R338–R342) -/

/-- The low n bits of v, most significant first. -/
def msbBits (v n : Nat) : List Bool := (List.range n).map fun i => v.testBit (n - 1 - i)

/-- ue(k) (R342). -/
def ueBits (k : Nat) : List Bool :=
  let m := Nat.log2 (k + 1)
  List.replicate m false ++ [true] ++ msbBits (k + 1) m

/-- se(v) (R342). -/
def seBits (v : Int) : List Bool := if 0 < v then ueBits (2 * v.toNat - 1) else ueBits (2 * (-v).toNat)

/-- Words from bits, the last filled with zeros (R338). -/
def wordsOfBits (bs : List Bool) : List W16 :=
  (List.range (ceilDiv bs.length 16)).map fun i =>
    BitVec.ofNat 16 (((bs.drop (16 * i)).take 16 ++ List.replicate 16 false).take 16 |>.foldl (fun a b => 2 * a + b2n b) 0)

/-! ### Blocks (R340, R341, R344, R349) -/

/-- A picture as an array of codes, channel by channel within a pixel, pixels in raster order. -/
abbrev Codes := Array Nat

def Panel.code (p : Panel) (c : Codes) (x y k : Nat) : Nat := c.getD ((min y (p.h - 1) * p.w + min x (p.w - 1)) * p.ch + k) 0

/-- The 16 samples of one channel of a block, outside pixels repeated from the nearest inside (R331). -/
def Panel.blockOf (p : Panel) (c : Codes) (b : Nat × Nat) (k : Nat) : List Int :=
  (List.range 16).map fun i => (p.code c (b.1 + i % 4) (b.2 + i / 4) k : Int)

/-- In-panel pixels of a block: (raster position within the block, pixel index). -/
def Panel.inPanel (p : Panel) (b : Nat × Nat) : List (Nat × Nat) :=
  ((List.range 16).filter fun i => decide (b.1 + i % 4 < p.w) && decide (b.2 + i / 4 < p.h)).map fun i =>
    (i, (b.2 + i / 4) * p.w + b.1 + i % 4)

/-- The block's in-panel codes agree in two pictures. -/
def Panel.sameBlock (p : Panel) (a c : Codes) (b : Nat × Nat) : Bool :=
  (p.inPanel b).all fun q => (List.range p.ch).all fun k => a.getD (q.2 * p.ch + k) 0 == c.getD (q.2 * p.ch + k) 0

/-- Coded channels of a block: Y, Co, Cg, or the single channel (R335). -/
def Panel.channels (p : Panel) (c : Codes) (b : Nat × Nat) : List (List Int) :=
  if p.ch = 1 then [p.blockOf c b 0]
  else
    let r := p.blockOf c b 0
    let g := p.blockOf c b 1
    let bl := p.blockOf c b 2
    let px := (List.range 16).map fun i => ycocg (r.getD i 0) (g.getD i 0) (bl.getD i 0)
    (List.range 3).map fun k => px.map fun q => q.getD k 0

/-- Clamp of a decoded channel value (R344). -/
def clampChan (d k : Nat) (x : Int) : Int :=
  let m : Int := (2 ^ d : Nat) - 1
  if k = 0 then clampInt 0 m x else clampInt (-m) m x

/-- Codes of the pixels of a block from its decoded channels (R344). -/
def Panel.pixelCodes (p : Panel) (chans : List (List Int)) (i : Nat) : List Nat :=
  let m : Int := (2 ^ p.d : Nat) - 1
  if p.ch = 1 then [(clampInt 0 m ((chans.getD 0 []).getD i 0)).toNat]
  else (ycocgInv ((chans.getD 0 []).getD i 0) ((chans.getD 1 []).getD i 0) ((chans.getD 2 []).getD i 0)).map fun x =>
    (clampInt 0 m x).toNat

/-- Reconstructed in-panel pixels of a block: (pixel index, codes). -/
def Panel.recon (p : Panel) (b : Nat × Nat) (chans : List (List Int)) : List (Nat × List Nat) :=
  (p.inPanel b).map fun q => (q.2, p.pixelCodes chans q.1)

/-- A channel DC at fixed length: D bits unsigned for Y, D + 1 bits two's complement for Co and Cg (R340). -/
def Panel.dcBits (p : Panel) (k : Nat) (v : Int) : List Bool :=
  if k = 0 then msbBits (unsignedOf v p.d) p.d else msbBits (unsignedOf v (p.d + 1)) (p.d + 1)

/-- The slice start's predictors (R341). -/
def Panel.predictor0 (p : Panel) : List Int := [((2 ^ (p.d - 1) : Nat) : Int), 0, 0]

/-- A coded block: its bits, the predictors after it and its reconstruction (empty where the drop keeps its pixels). -/
structure CodedBlock where
  bits : List Bool
  pred : List Int
  out : List (Nat × List Nat)
  deriving DecidableEq, Repr

/-- A block coded at shift s (0–D + 2), or s = 15 for a FLOOR tile; unk: the tile is UNKNOWN (R349). -/
def Panel.encodeBlock (p : Panel) (codes ref : Codes) (unk : Bool) (s csh : Nat) (pred : List Int) (b : Nat × Nat) : CodedBlock :=
  if !unk && p.sameBlock codes ref b then { bits := [false, false], pred := pred, out := [] }
  else
    let coef := (p.channels codes b).map fwd2
    let dcs := coef.map fun c => c.getD 0 0
    if s = 15 then
      { bits := [false, true] ++ (coef.zipIdx.flatMap fun c => p.dcBits c.2 (c.1.getD 0 0)), pred := dcs ++ pred.drop dcs.length,
        out := p.recon b (coef.zipIdx.map fun c => List.replicate 16 (clampChan p.d c.2 (c.1.getD 0 0))) }
    else
      let sc := chromaShift p.ver p.d s csh
      let chan := fun (c : List Int × Nat) =>
        let sh := if c.2 = 0 then s else sc
        let q := scanOrder.map fun i => quant (c.1.getD i 0) sh
        let last := (((List.range 15).filter fun i => q.getD i 0 != 0).getLast?.map (· + 1)).getD 0
        let dc := c.1.getD 0 0
        (if p.ver = 1 then p.dcBits c.2 dc else seBits (dc - pred.getD c.2 0)) ++ msbBits last 4 ++ ((q.take last).flatMap seBits)
      let xform := [true, false] ++ coef.zipIdx.flatMap chan
      let raw := [true, true] ++ ((List.range 16).flatMap fun i =>
        (List.range p.ch).flatMap fun k => msbBits (p.code codes (b.1 + i % 4) (b.2 + i / 4) k) p.d)
      if xform.length < raw.length then
        let dec := coef.zipIdx.map fun c =>
          let sh := if c.2 = 0 then s else sc
          let ac := fun i => dequant (quant (c.1.getD i 0) sh) sh
          (inv2 ((c.1.getD 0 0) :: (natRange 1 15).map ac)).map (clampChan p.d c.2)
        { bits := xform, pred := dcs ++ pred.drop dcs.length, out := p.recon b dec }
      else
        { bits := raw, pred := pred,
          out := (p.inPanel b).map fun q => (q.2, (List.range p.ch).map fun k => codes.getD (q.2 * p.ch + k) 0) }

/-- A tile coded at shift s (15: FLOOR) (R339). -/
def Panel.encodeTile (p : Panel) (codes ref : Codes) (unk : Bool) (s : Nat) (pred : List Int) (band col : Nat) : CodedBlock :=
  let csh := if s = 0 then 0 else p.csh
  let head := [false] ++ msbBits s 4 ++ (if p.ver = 1 then [] else msbBits csh 2)
  (p.blocks band col).foldl (fun a b =>
    let c := p.encodeBlock codes ref unk s csh a.pred b
    { bits := a.bits ++ c.bits, pred := c.pred, out := a.out ++ c.out }) { bits := head, pred := pred, out := [] }

/-! ### Slices and rate control (R348–R351) -/

/-- S0 and S1 of a CODED slice (R338). -/
def Panel.sliceHead (p : Panel) (band tile0 n : Nat) : List W16 :=
  [BitVec.ofNat 16 (p.ver * 4096 + band), BitVec.ofNat 16 (tile0 * 16 + (n - 1) * 2)]

/-- A FILL slice of n words (R338). -/
def Panel.fillSlice (p : Panel) (n : Nat) : WafSlice :=
  { kind := .fill, payload := BitVec.ofNat 16 (0x4000 + p.ver * 4096) :: List.replicate (n - 1) 0, carried := [], out := [] }

/-- Words of a slice at its floor: coded tiles at f_t, TCOPY tiles at 1 bit (R346). -/
def Panel.sliceFloor (p : Panel) (band : Nat) (cols coded : List Nat) : Nat :=
  2 + ceilDiv (sumNat (cols.map fun c => if coded.contains c then p.floorBits band c else 1)) 16

/-- The running state of a slice's tile loop (R348). -/
structure SliceRun where
  bits : List Bool
  pred : List Int
  carried : List (Nat × Nat)
  out : List (Nat × List Nat)
  r : Nat
  phi : Nat
  m : Nat
  deriving DecidableEq, Repr

/-- The lowest shift of a list whose coded tile f accepts. -/
def firstShift (shifts : List Nat) (enc : Nat → CodedBlock) (ok : CodedBlock → Bool) : Option (Nat × CodedBlock) :=
  shifts.findSome? fun s => let c := enc s; if ok c then some (s, c) else none

/-- A slice of CHANGED tiles within an allowance in words (R348). -/
def Panel.changedSlice (p : Panel) (codes ref : Codes) (unknown : List Nat) (band : Nat) (cols coded : List Nat) (allow : Nat) : WafSlice :=
  let copies := cols.length - coded.length
  let init : SliceRun :=
    { bits := [], pred := p.predictor0, carried := [], out := [], r := 16 * (allow - 2) - copies,
      phi := sumNat (coded.map (p.floorBits band)), m := coded.length }
  let run := cols.foldl (fun a c =>
    if !coded.contains c then { a with bits := a.bits ++ [true] }
    else
      let t := band * p.tw + c
      let f := p.floorBits band c
      let lim := f + (a.r - a.phi) / a.m
      let enc := fun s => p.encodeTile codes ref (unknown.contains t) s a.pred band c
      let pick := (firstShift (List.range (p.d + 3)) enc fun x => decide (x.bits.length ≤ lim)).getD (15, enc 15)
      { bits := a.bits ++ pick.2.bits, pred := pick.2.pred, carried := a.carried ++ [(t, pick.1)], out := a.out ++ pick.2.out,
        r := a.r - pick.2.bits.length, phi := a.phi - f, m := a.m - 1 }) init
  { kind := .changed, payload := p.sliceHead band (cols.headD 0) cols.length ++ wordsOfBits run.bits, carried := run.carried, out := run.out }

/-- A refinement slice with u words left; none if no tile of it can be coded (R350). -/
def Panel.refineSlice (p : Panel) (codes ref : Codes) (lastShift : Tbl Nat) (unsettled : List Nat) (band : Nat) (cols : List Nat)
    (u : Nat) : Option WafSlice :=
  let run := cols.zipIdx.foldl (fun (a : SliceRun) c =>
    let t := band * p.tw + c.1
    let later := cols.length - 1 - c.2
    let left := 16 * (u - 5) - a.bits.length - later
    let enc := fun s => p.encodeTile codes ref false s a.pred band c.1
    let prev := tblGet 15 lastShift t
    let cand := (List.range (p.d + 3)).filter fun s => decide (s < prev)
    match (if unsettled.contains t then firstShift cand enc fun x => decide (x.bits.length ≤ left) else none) with
    | none => { a with bits := a.bits ++ [true] }
    | some x => { a with bits := a.bits ++ x.2.bits, pred := x.2.pred, carried := a.carried ++ [(t, x.1)], out := a.out ++ x.2.out })
    { bits := [], pred := p.predictor0, carried := [], out := [], r := 0, phi := 0, m := 0 }
  if run.carried.isEmpty || decide (u < 5) then none
  else some { kind := .refined, payload := p.sliceHead band (cols.headD 0) cols.length ++ wordsOfBits run.bits, carried := run.carried, out := run.out }

/-- The span from the first to the last listed column. -/
def spanOf (l : List Nat) : List Nat := natRange (l.headD 0) (l.getLastD 0)

/-- Lengths of the FILL frames for r words, frame words included (R351). -/
def fillFrames (fuel r : Nat) : List Nat :=
  match fuel with
  | 0 => []
  | k + 1 =>
    if r < 4 then []
    else
      let w := if r ≤ 4099 then r else if r - 4099 ≥ 4 then 4099 else r - 4
      w :: fillFrames k (r - w)

/-- The refinement walk over the slot's groups from the pointer (R350): slices, words left, pointer after it. -/
def Panel.refineWalk (p : Panel) (codes ref : Codes) (lastShift : Tbl Nat) (changed unsettled : List Nat) (a : Nat) (n : Nat)
    (order : List Nat) (ptr u : Nat) : List WafSlice × Nat × Nat :=
  match order with
  | [] => ([], u, ptr)
  | g :: rest =>
    let band := a + g / p.groups
    let cols := p.groupCols (g % p.groups)
    let tile := fun c => band * p.tw + c
    let un := cols.filter fun c => unsettled.contains (tile c)
    if cols.any (fun c => changed.contains (tile c)) || un.isEmpty then p.refineWalk codes ref lastShift changed unsettled a n rest ptr u
    else
      match p.refineSlice codes ref lastShift unsettled band (spanOf un) u with
      | none => ([], u, g)
      | some sl =>
        let r := p.refineWalk codes ref lastShift changed unsettled a n rest ((g + 1) % n) (u - (sl.payload.length + 3))
        (sl :: r.1, r.2)

/-- A slot's job: its slices in the order of R352, and the refinement pointer after it (R348–R351). -/
structure SlotCode where
  slices : List WafSlice
  pointer : Nat
  deriving DecidableEq, Repr

/-- Encode bands a to b − 1 into exactly budget words. -/
def Panel.encodeSlot (p : Panel) (codes ref : Codes) (unknown changed unsettled : List Nat) (lastShift : Tbl Nat) (pointer : Nat)
    (a b budget : Nat) : SlotCode :=
  let groups := (List.range (b - a)).flatMap fun k => (List.range p.groups).map fun g => (a + k, p.groupCols g)
  let mk := groups.filterMap fun g =>
    let coded := g.2.filter fun c => changed.contains (g.1 * p.tw + c)
    if coded.isEmpty then none else some (g.1, spanOf coded, coded)
  let floors := mk.map fun m => p.sliceFloor m.1 m.2.1 m.2.2
  let n := mk.length
  let run := (mk.zip floors).zipIdx.foldl (fun (acc : List WafSlice × Nat) m =>
    let sf := m.1.2
    let sl := p.changedSlice codes ref unknown m.1.1.1 m.1.1.2.1 m.1.1.2.2 (sf + acc.2 / (n - m.2))
    (acc.1 ++ [sl], acc.2 + sf - sl.payload.length)) ([], budget - (sumNat floors + 3 * n))
  let total := (b - a) * p.groups
  let order := (List.range total).map fun k => (pointer + k) % total
  let ref2 := p.refineWalk codes ref lastShift changed unsettled a total order pointer run.2
  let slices := run.1 ++ ref2.1
  let left := ref2.2.1
  let pad := if 1 ≤ left ∧ left ≤ 3 then left else 0
  let coded := slices.zipIdx.map fun x =>
    if x.2 + 1 = slices.length then { x.1 with payload := x.1.payload ++ List.replicate pad 0 } else x.1
  let fills := if pad = 0 then fillFrames (left + 1) left else []
  { slices := coded ++ fills.map fun w => p.fillSlice (w - 3), pointer := ref2.2.2 }

/-! ### What a slot's slices do (R333, R358) -/

/-- The tiles they carry with their shifts. -/
def WafOut.shifts (o : WafOut) : List (Nat × Nat) := o.slices.flatMap (·.carried)
def WafOut.carried (o : WafOut) : List Nat := o.shifts.map (·.1)

/-- What they leave in the reference copy. -/
def WafOut.recon (o : WafOut) : List (Nat × List Nat) := o.slices.flatMap (·.out)

/-- The tiles that slices of a kind carry. -/
def WafOut.tiles (o : WafOut) (k : SliceKind) : Nat := sumNat ((o.slices.filter fun x => x.kind == k).map fun x => x.carried.length)

/-- Words of FILL frames. -/
def WafOut.fill (o : WafOut) : Nat := sumNat ((o.slices.filter fun x => x.kind == .fill).map fun x => x.payload.length + 3)

/-- Tile classes at the end of a pass (R332): CHANGED tiles and UNSETTLED tiles. -/
def Panel.classify (p : Panel) (codes prev ref : Codes) (unknown : List Nat) : List Nat × List Nat :=
  let tiles := List.range (p.tw * p.nb)
  let same := fun (x : Codes) t => (p.blocks (t / p.tw) (t % p.tw)).all (p.sameBlock codes x)
  let changed := tiles.filter fun t => unknown.contains t || !same prev t
  (changed, tiles.filter fun t => !changed.contains t && !same ref t)

end Sys2Proof.Machine
end

