-- ==== Sys2Proof/Machine/Admit.lean ====
section
/-! DEFINITION. Deadline admission and the power budget (R359–R377): decode placement (R271, R363, R364), pass costs and deadlines
(R365, R366), Wafer lane windows (R367), slot budgets (R368, R386, R515), DRAM (R369), power (R370–R373), refusals (R375), the
admission record (R376). Times are whole units: 1/12 ns for pass times and deadlines, 1/3 ns for job windows. -/

namespace Sys2Proof.Machine

/-! ### Fractions, as numerator and denominator -/

def addFrac (a b : Nat × Nat) : Nat × Nat := if a.2 = b.2 then (a.1 + b.1, a.2) else (a.1 * b.2 + b.1 * a.2, a.2 * b.2)
def sumFrac (l : List (Nat × Nat)) : Nat × Nat := l.foldl addFrac (0, 1)
def maxFrac (a b : Nat × Nat) : Nat × Nat := if a.1 * b.2 ≤ b.1 * a.2 then b else a
/-- A load register's figure: R6 rounds the fraction. -/
def loadOf (x : Nat × Nat) : Nat := (roundHalfEven x.1 x.2).toNat
/-- ⌈x ÷ k⌉. -/
def ceilFrac (x : Nat × Nat) (k : Nat) : Nat := ceilDiv x.1 (x.2 * k)

/-! ### Decode (R271, R363, R364) -/

/-- Q in 0.01 Mpixel/s (R363). -/
def decodeCost (w h fps : Nat) : Nat := ceilDiv (w * h * fps) 10000000

/-- Charged load of a core in 0.01 Mpixel/s (R364). -/
def State.coreLoad (s : State) (n : Nat) : Nat :=
  sumNat ((s.streams.filter fun e => e.2.coreList.contains n).map fun e => if e.2.cores = 1 then e.2.q else 60000)

def State.coreGrouped (s : State) (n : Nat) : Bool := s.streams.any fun e => e.2.coreList.contains n && decide (1 < e.2.cores)
def State.coreStreams (s : State) (n : Nat) : Nat := (s.streams.filter fun e => e.2.coreList.contains n).length
def State.coresInService (s : State) : List Nat := (List.range 16).filter fun n => !(s.core n).retired
/-- Cores with no load and not RETIRED. -/
def State.freeCores (s : State) : List Nat := s.coresInService.filter fun n => s.coreLoad n == 0
/-- Cores that may take a one-core stream, with the Q each can still take. -/
def State.spareCores (s : State) : List (Nat × Nat) :=
  (s.coresInService.filter fun n => !s.coreGrouped n && decide (s.coreStreams n < 16)).map fun n => (n, 60000 - s.coreLoad n)

/-- Group size of a stream (R271). -/
def groupSize (q : Nat) (lowDelay : Bool) : Nat := if q ≤ 60000 then 1 else ceilDiv q (if lowDelay then 48000 else 57000)

/-- The cores R271 gives a stream of cost q, if any. -/
def State.place (s : State) (q : Nat) (lowDelay : Bool) : Option (List Nat) :=
  let k := groupSize q lowDelay
  if k = 1 then (s.spareCores.find? fun c => decide (q ≤ c.2)).map fun c => [c.1]
  else if 4 < k ∨ s.freeCores.length < k then none
  else some (s.freeCores.take k)

/-- The largest Q a placement could take now (R375). -/
def State.largestQ (s : State) (lowDelay : Bool) : Nat :=
  let f := min 4 s.freeCores.length
  max (maxNat (s.spareCores.map (·.2))) (if 2 ≤ f then f * (if lowDelay then 48000 else 57000) else 0)

def State.decodeUnit (s : State) : Nat := sumNat ((List.range 16).map s.coreLoad)
def State.decodePart (s : State) (p : Nat) : Nat := sumNat ((s.streams.filter fun e => e.2.part == p).map fun e => e.2.q)

/-! ### Memory (R12) -/

/-- Bytes of the 30 GiB object pool in use, streams (R270), images (R300, R302) and what the drops take (log entry 21). -/
def imageAlloc (w h : Nat) : Nat := ceilDiv (2 * w * h * 4) 65536 * 65536

/-- What a drop takes of the pool: its surface's buffers, its uniformity map, its Wafer reference copy, its thumbnail; the spec sizes none. -/
def Drop.memory (d : Drop) : Nat :=
  let take := fun (has : Bool) (kind : Nat) => if has then Config.dropMemory kind d.width d.height else 0
  take d.found 0 + take d.calNow.isSome 1 + take (d.wafer != 0) 2 + take (d.thumbInt != 0) 3

def State.poolUsed (s : State) : Nat :=
  sumNat (s.streams.map fun e => e.2.alloc) + sumNat (s.drops.map fun e => e.2.memory)
    + sumNat ((List.range 8).flatMap fun p => (s.part p).images.map fun e => imageAlloc e.2.width e.2.height)
    + sumNat ((List.range 8).flatMap fun p => (s.goneHeld p).map (·.bytes))
def poolSize : Nat := 30 * 2 ^ 30

/-- CMEM of customer core c in bytes, and the area's base (R467). -/
def State.cmemBytes (s : State) (c : Nat) : Nat := tblGet 0 s.map.cmemMiB c * 2 ^ 20
def State.cmemBase (s : State) (c : Nat) : Nat := 0x80000000 + (if c = 0 then 0 else s.cmemBytes 0)

/-- The fallback image areas of customer core c's served drops as they are known: 64 KiB units for both halves of each drop's image (R467, R473). -/
def State.areasKnown (s : State) (c : Nat) : Tbl Nat :=
  (s.drops.filter fun e => s.servedBy e.1 == some c && imageAlloc e.2.width e.2.height != 0).map fun e =>
    (e.1, imageAlloc e.2.width e.2.height)

/-- The areas by drop: start-up carves them from the descriptors it finds, and they stay as carved once it has completed (R467, log entry 78). -/
def State.areas (s : State) (c : Nat) : Tbl Nat := if s.boot.phase = .running then (s.cust c).areas else s.areasKnown c

def State.fbAreaBytes (s : State) (c : Nat) : Nat := sumNat ((s.areas c).map (·.2))
def State.fbAreaBase (s : State) (c : Nat) : Nat :=
  let a := ceilDiv (0x80000000 + s.cmemBytes 0 + s.cmemBytes 1) 65536 * 65536
  if c = 0 then a else a + s.fbAreaBytes 0

/-- An allocation fits in what the customer areas leave of the object pool (R12, R467). -/
def State.fits (s : State) (n : Nat) : Bool :=
  decide (s.poolUsed + n + sumNat ([0, 1].map fun c => s.cmemBytes c + s.fbAreaBytes c) ≤ poolSize)

/-! ### Layers (R365, R369) -/

/-- Destination area of a page clipped to a w × h surface. -/
def Page.area (x : Page) (w h : Nat) : Nat :=
  let span := fun (a : Int) (n m : Nat) => (min (a + n) m - max a 0).toNat
  span x.dstX x.dstW w * span x.dstY x.dstH h

def layerPages (f : Surface) (l : Nat) : List Page := (f.pages.filter fun e => e.1 / 16 == l).map (·.2)
/-- A_l (R365). -/
def layerArea (f : Surface) (w h l : Nat) : Nat := maxNat ((layerPages f l).map fun x => x.area w h)
def layersArea (f : Surface) (w h : Nat) : Nat := sumNat ((List.range 4).map (layerArea f w h))

/-- Source size and half bytes per sample of a page; a stream that no longer exists counts as its layer's last frame (R168). -/
def State.pageSource (s : State) (p : Nat) (last : Option Frame) (x : Page) : Option (Nat × Nat × Nat) :=
  match x.source with
  | .solid => none
  | .image => if x.gone then none else (tblFind (s.part p).images x.srcIndex).map fun i => (i.width, i.height, 8)
  | .stream =>
    match s.streams.find? fun e => e.2.part == p && e.2.index == x.srcIndex && !x.gone with
    | some e => some (e.2.maxW, e.2.maxH, if e.2.depth = 10 then 6 else 3)
    | none => last.map fun f => (f.width, f.height, if f.depth = 10 then 6 else 3)

/-- MB/s of layer l (R369). -/
def State.layerDram (s : State) (p : Nat) (f : Surface) (frames : Tbl Frame) (w h c l : Nat) : Nat :=
  let a := layerArea f w h l
  maxNat ((layerPages f l).map fun x =>
    match s.pageSource p (tblFind frames l) x with
    | none => 0
    | some (sw, sh, b) =>
      let sw := if x.fit then sw else x.srcW
      let sh := if x.fit then sh else x.srcH
      ceilDiv (a * max x.dstW sw * max x.dstH sh * b) (x.dstW * x.dstH * 2 * c))

def State.layersDram (s : State) (p : Nat) (f : Surface) (frames : Tbl Frame) (w h c : Nat) : Nat :=
  sumNat ((List.range 4).map (s.layerDram p f frames w h c))

/-! ### Picture slots of a drop (R345, R353, R366–R369) -/

/-- The panel as admission and the encoder see it; W2 stands in while no version is negotiated (R515). -/
def State.panel (s : State) (g : Nat) : Panel :=
  let d := s.drop g
  { w := d.width, h := d.height, ch := d.chan, d := d.depth, ver := if d.wafer = 0 then 2 else d.wafer, csh := s.waf.csh.toNat }

def Drop.chargeW (d : Drop) : Nat := (d.charge.map fun x => x.width.toNat).getD 0
def Drop.chargeH (d : Drop) : Nat := (d.charge.map fun x => x.height.toNat).getD 0

/-- What a drop's picture slots of one calendar load. -/
structure SlotLoad where
  d : Int                        -- relative deadline, 1/12 ns
  jobs : List (Nat × Nat)        -- (START, pixels) of each Wafer job
  raw : Nat                      -- raw output charge, MB/s
  wafer : Nat                    -- Wafer output charge, MB/s
  deriving DecidableEq, Repr

/-- The panel that a drop's charges are computed for: its size and kind as admission last charged them (R362). -/
def State.chargePanel (s : State) (g : Nat) : Panel :=
  let d := s.drop g
  { s.panel g with w := d.chargeW, h := d.chargeH, ch := (d.charge.map Descriptor.chan).getD 1 }

/-- Admission charges what these drops are now: a command that adds load is decided on their descriptors as last enumerated (R359, R362, log entry
139). -/
def State.recharge (s : State) (gs : List Nat) : State := gs.foldl (fun s g => s.onDrop g fun d => { d with charge := d.desc.or d.charge }) s

/-- A segment's drivers are charged as its drops are now: when start-up's enumeration ends, and with a commit of its calendar (R362, log entry 139). -/
def State.chargeColant (s : State) (i : Nat) : State :=
  s.onSeg i fun x => { x with chargeDmax := s.dmax i, chargeC2 := (s.segDrops i).any fun g => (s.drop g).colant2 }

/-- The drops on record of a segment. -/
def State.recordedDrops (s : State) (i : Nat) : List Nat := (s.drops.map (·.1)).filter fun g => g / 32 == i

/-- Pixels of Wafer slot j of k. -/
def Panel.jobPixels (p : Panel) (j k : Nat) : Nat := p.pixels (p.bands j k).1 (p.bands j k).2

def State.slotLoad (s : State) (p : Panel) (g : Nat) (ents : List Slot) : Option SlotLoad :=
  let raw := slotsFor ents (g % 32) 1
  let waf := slotsFor ents (g % 32) 2
  let c := s.cycleUs (g / 32)
  match byStart (raw ++ waf) with
  | [] => none
  | first :: _ =>
    let jobs := waf.zipIdx.map fun x => (x.1.start, p.jobPixels x.2 waf.length)
    let e : Int := match jobs with
      | [] => 0
      | j :: _ => 240000 + 32 * j.2
    some { d := 100 * first.start - e, jobs := jobs,
           raw := if raw.isEmpty then 0 else ceilDiv (4 * p.w * p.h) c,
           wafer := if waf.isEmpty then 0 else ceilDiv (16 * p.w * p.h) c }

/-- The drop is composed: enumerated and not retired. -/
def State.composes (s : State) (g : Nat) : Bool := s.dropState g == .active || s.dropState g == .fallback

/-- A drop's entries are charged: retirement, link loss and a new enumeration change nothing of it, the swap that removes the entries does (R360,
R362). -/
def State.charged (s : State) (g : Nat) : Bool := (s.drop g).charge.isSome

/-- A calendar held names the drop in a picture slot. -/
def State.holdsSlots (s : State) (g : Nat) : Bool :=
  (s.calVersions (g / 32)).any fun l => l.any fun e => e.drop == g % 32 && (e.kind == 1 || e.kind == 2)

/-- Loads over the calendars held: smallest d, union of the job windows, each output charge and the job pixels at their largest (R360, R369). -/
structure HeldLoad where
  d : Int
  windows : List (Nat × Nat)
  raw : Nat
  wafer : Nat
  jobPixels : Nat
  deriving DecidableEq, Repr

def State.heldLoad (s : State) (g : Nat) : Option HeldLoad :=
  if !s.charged g then none
  else
    match (s.calVersions (g / 32)).filterMap (s.slotLoad (s.chargePanel g) g) with
    | [] => none
    | x :: rest => some (rest.foldl (fun a b =>
        { d := min a.d b.d, windows := (a.windows ++ b.jobs).dedup, raw := max a.raw b.raw, wafer := max a.wafer b.wafer,
          jobPixels := max a.jobPixels (sumNat (b.jobs.map (·.2))) })
        { d := x.d, windows := x.jobs.dedup, raw := x.raw, wafer := x.wafer, jobPixels := sumNat (x.jobs.map (·.2)) })

/-! ### Passes -/

/-- A pass: its time for the deadline test, and the pixels charged for density and rate, both in pixels (= 1/12 ns). -/
structure PassLoad where
  seg : Nat
  part : Nat
  cost : Nat
  share : Nat
  d : Int
  cycle : Nat
  dram : Nat
  jobs : List (Nat × Nat)
  jobPixels : Nat
  deriving DecidableEq, Repr

/-- A drop's own pass; of a canvas member only its layers stay charged, and its deadline holds (R360, log entry 22). -/
def State.dropPass (s : State) (g : Nat) : Option PassLoad :=
  (s.heldLoad g).map fun x =>
    let d := s.drop g
    let p := (s.owner g).getD 8
    let c := s.cycleUs (g / 32)
    let layers := layersArea d.surface d.chargeW d.chargeH
    let full := 2 * d.chargeW * d.chargeH
    { seg := g / 32, part := p, cost := full + layers, share := (if d.canvas.isSome then 0 else full) + layers, d := x.d, cycle := c,
      dram := s.layersDram p d.surface d.lastFrames d.chargeW d.chargeH c + x.raw + x.wafer
        + (if d.canvas.isSome then 0 else ceilDiv (12 * d.chargeW * d.chargeH) c),
      jobs := x.windows, jobPixels := x.jobPixels }

/-- A canvas's one pass (R365, R366). -/
def State.canvasPass (s : State) (k : Canvas) : Option PassLoad :=
  let live := (k.members.map (·.1)).filter s.charged
  match live.filterMap s.heldLoad with
  | [] => none
  | x :: rest =>
    let seg := ((k.members.map (·.1)).headD 0) / 32
    let c := s.cycleUs seg
    let area := sumNat (live.map fun g => (s.drop g).chargeW * (s.drop g).chargeH)
    some { seg := seg, part := k.part, cost := 2 * area + layersArea k.surface k.width k.height,
           share := 2 * area + layersArea k.surface k.width k.height, d := rest.foldl (fun a b => min a b.d) x.d, cycle := c,
           dram := s.layersDram k.part k.surface k.lastFrames k.width k.height c + ceilDiv (12 * area) c, jobs := [], jobPixels := 0 }

def State.passes (s : State) : List PassLoad :=
  (s.drops.map (·.1)).filterMap s.dropPass ++ s.canvases.filterMap fun e => s.canvasPass e.2

/-- Every pass time is below its d (R366). -/
def PassLoad.late (x : PassLoad) : Bool := decide (x.d ≤ (x.cost : Int))
/-- ⌈pass time ÷ d × 10^6⌉ ppm (R366). -/
def PassLoad.term (x : PassLoad) : Nat := if x.d ≤ 0 then 0 else ceilDiv (x.share * 1000000) x.d.toNat

def densityOf (l : List PassLoad) : Nat := sumNat (l.map PassLoad.term)

/-! ### Wafer lanes (R367) -/

/-- A job's window within a cycle of n thirds of a ns, as pieces that do not wrap. -/
def jobWindow (n : Nat) (j : Nat × Nat) : List (Nat × Nat) :=
  let a : Int := 25 * j.1 - 60000 - 8 * j.2
  let len := 60000 + 8 * j.2 + 12810
  if n ≤ len then [(0, n)]
  else
    let a := (a % n).toNat
    if a + len ≤ n then [(a, a + len)] else [(a, n), (0, a + len - n)]

/-- The most windows that contain one instant. -/
def peakOf (l : List (Nat × Nat)) : Nat := maxNat (l.map fun x => (l.filter fun y => decide (y.1 ≤ x.1) && decide (x.1 < y.2)).length)

/-- Sum of the maxima over the timing groups. -/
def State.lanesOf (s : State) (l : List PassLoad) : Nat :=
  let keys := (l.map fun x => (x.cycle, s.phaseUs x.seg)).dedup
  sumNat (keys.map fun k =>
    peakOf ((l.filter fun x => x.cycle == k.1 && s.phaseUs x.seg == k.2).flatMap fun x => x.jobs.flatMap (jobWindow (3000 * k.1))))

/-! ### Rates, DRAM, power (R365, R367, R369, R370) -/

def passRate (l : List PassLoad) : Nat × Nat := sumFrac (l.map fun x => (x.share, x.cycle))
def laneRate (l : List PassLoad) : Nat × Nat := sumFrac (l.map fun x => (x.jobPixels, x.cycle))

def Stream.dram (x : Stream) : Nat := ceilDiv (x.q * (if x.depth = 10 then 18 else 9)) 100

def State.dramPart (s : State) (l : List PassLoad) (p : Nat) : Nat :=
  sumNat ((l.filter fun x => x.part == p).map (·.dram)) + sumNat ((s.streams.filter fun e => e.2.part == p).map fun e => e.2.dram)
def State.dramUnit (s : State) (l : List PassLoad) : Nat :=
  sumNat (l.map (·.dram)) + sumNat (s.streams.map fun e => e.2.dram)

/-- Colant drivers of one segment, in 0.25 W; no run-time negotiation or re-measurement adds to it (R362, R370). -/
def State.colantPower (s : State) (i : Nat) : Nat := ceilDiv (300 + (s.seg i).chargeDmax + (if (s.seg i).chargeC2 then 100 else 0)) 500

/-- Reservations by class 0–5 in 0.25 W: fixed, decode, compositor, Wafer, Colant, fans (R370, R377). -/
def State.reservations (s : State) (l : List PassLoad) : List Nat :=
  [232, 10 * ((List.range 16).filter fun n => s.coreLoad n != 0).length, ceilFrac (passRate l) 300, ceilFrac (laneRate l) 300,
   sumNat ((List.range 64).map s.colantPower), 48]
def State.reserved (s : State) : Nat := sumNat (s.reservations s.passes)

/-- A partition's power charge in 0.25 W (R370). -/
def State.powerPart (s : State) (l : List PassLoad) (p : Nat) : Nat :=
  let own := l.filter fun x => x.part == p
  sumNat ((s.streams.filter fun e => e.2.part == p).map fun e => if e.2.cores = 1 then ceilDiv e.2.q 6000 else 10 * e.2.cores)
    + ceilFrac (passRate own) 300 + ceilFrac (laneRate own) 300

/-! ### Slot budgets (R368, R386, R515) -/

/-- Frames and words a raw slot needs for its lines (R368). -/
def rawRequirement (pixels ch d rate : Nat) : Nat :=
  let m := 65504 / (ch * d)
  ceilDiv (pixels * ch * d) 16 + ceilDiv pixels m * (5 + rate)

/-- Lines of raw slot j of k (R368). -/
def rawLines (h j k : Nat) : Nat × Nat := (j * h / k, (j + 1) * h / k)

/-- Regions of a panel: columns and rows (R378). -/
def regionCols (w : Nat) : Nat := min 8 (ceilDiv w 16)
def regionRows (h : Nat) : Nat := min 8 (ceilDiv h 16)

/-- ⌈2p ÷ w2⌉ of a drop. -/
def Drop.turnW2 (d : Drop) : Nat := ceilDiv (2 * (d.delay.getD 0) * 3) 25

/-- Words slot x of a calendar must hold; none where nothing binds it. -/
def State.slotNeed (s : State) (i : Nat) (ents : List Slot) (x : Slot) : Option Nat :=
  let g := i * 32 + x.drop
  let d := s.drop g
  let p := s.panel g
  let own := slotsFor ents x.drop x.kind
  let j := (firstIdx (fun y => y.idx == x.idx) own).getD 0
  if !s.charged g then none
  else if x.kind = 1 then
    let r := rawLines p.h j own.length
    some (rawRequirement ((r.2 - r.1) * p.w) p.ch p.d x.rate)
  else if x.kind = 2 then
    let b := p.bands j own.length
    some (p.minBudget b.1 b.2)
  else if x.kind = 5 then some (2 * regionCols d.width * regionRows d.height + 12 + d.turnW2)
  else none

/-- The first slot, in START order, whose budget is short: index, budget, requirement. -/
def State.shortSlot (s : State) (i : Nat) (ents : List Slot) : Option (Nat × Nat × Nat) :=
  (byStart ents).findSome? fun x =>
    (s.slotNeed i ents x).bind fun n => if x.budget < n then some (x.idx, x.budget, n) else none

/-! ### The decision (R359–R361, R375) -/

/-- An ADMISSION_REFUSED reply (R375). -/
def refused (reason place idx figure limit : Nat) : Reply :=
  replyRefused (packFields [(reason, 0), (place % 256, 8), (idx % 512, 16)]) (figure % 2 ^ 32 + limit % 2 ^ 32 * 2 ^ 32)

/-- d in ns, 0 at or below 0 (R6, R375). -/
def PassLoad.limit (x : PassLoad) : Nat := (roundHalfEven x.d 12).toNat

/-- The pass time in ns (R6, R375). -/
def PassLoad.figure (x : PassLoad) : Nat := (roundHalfEven x.cost 12).toNat

/-- The compose tests 0x05 and 0x06; the failing pass of the changed segment comes first. -/
def composeTests (l : List PassLoad) (seg : Nat) : List (Option Reply) :=
  let late := l.filter PassLoad.late
  let pick := ((late.filter fun x => x.seg == seg) ++ late).head?
  [pick.map fun x => refused 0x05 seg 0 x.figure x.limit,
   failIf (decide (1000000 < densityOf l)) (refused 0x06 seg 0 (densityOf l) 1000000)]

/-- DRAM, power and the partition's ceilings, 0x08–0x0C (R369, R373, R28). -/
def State.commonTests (s : State) (l : List PassLoad) (p : Nat) : List (Option Reply) :=
  let cd := tblGet 0 s.map.ceilDecode p * 100
  let cm := tblGet 0 s.map.ceilDram p * 1000
  let cp := tblGet 0 s.map.ceilPower p * 4
  let resv := sumNat (s.reservations l)
  [failIf (decide (195000 < s.dramUnit l)) (refused 0x08 0 0 (s.dramUnit l) 195000),
   failIf (decide (s.plant.pool.toNat < resv)) (refused 0x09 0 0 resv s.plant.pool.toNat),
   failIf (cd != 0 && decide (cd < s.decodePart p)) (refused 0x0A p 0 (s.decodePart p) cd),
   failIf (cm != 0 && decide (cm < s.dramPart l p)) (refused 0x0B p 0 (s.dramPart l p) cm),
   failIf (cp != 0 && decide (cp < s.powerPart l p)) (refused 0x0C p 0 (s.powerPart l p) cp)]

/-- Admission of a state with a layer or canvas added (R359). -/
def State.admitCompose (s : State) (p seg : Nat) : List (Option Reply) :=
  let l := s.passes
  composeTests l seg ++ s.commonTests l p

/-- Admission of a state with a stream added (R359); its placement and the unit total come first. -/
def State.admitStream (s : State) (p : Nat) : List (Option Reply) :=
  failIf (decide (60000 * s.coresInService.length < s.decodeUnit)) (refused 0x04 0 0 s.decodeUnit (60000 * s.coresInService.length))
    :: s.commonTests s.passes p

/-- Admission of a state with a commit pending on segment i whose new calendar is ents (R359). -/
def State.admitCalendar (s : State) (p i : Nat) (ents : List Slot) : List (Option Reply) :=
  let l := s.passes
  ((s.shortSlot i ents).map fun x => refused 0x02 i x.1 x.2.1 x.2.2) :: composeTests l i
    ++ [failIf (decide (32 < s.lanesOf l)) (refused 0x07 i 0 (s.lanesOf l) 32)] ++ s.commonTests l p

/-- The 64 bytes of the admission record (R376). -/
def State.admissionRecord (s : State) (p : Nat) : List Byte :=
  let l := s.passes
  recordBytes ([s.decodeUnit, s.decodePart p, packFields [((roundHalfEven (maxNat (s.spareCores.map (·.2))) 100).toNat, 16), (s.freeCores.length, 0)],
    densityOf l, s.lanesOf l, s.dramUnit l, s.dramPart l p, packFields [(s.plant.pool.toNat, 16), (sumNat (s.reservations l), 0)],
    packFields [(s.powerPart l p, 16)], tblGet 0 s.map.ceilDecode p, tblGet 0 s.map.ceilDram p, tblGet 0 s.map.ceilPower p]
    ++ qword s.now ++ [0, 0])

/-! ### The pool (R37, R372, R373) -/

/-- Rating of the supply in 0.25 W at an RMS input in 0.1 V (R37). -/
def ratingQuarter (dv : Nat) : Nat := if 1000 ≤ dv then 960 else if 850 ≤ dv then 840 + (dv - 850) * 4 / 5 else 840

/-- V_min: the lowest reading of the last 60 s (R372). -/
def Plant.vMin (x : Plant) (now : Nat) : Nat :=
  (minNat? ((x.lineReadings.filter fun r => decide (now ≤ r.1 + ticksOfS 60)).map (·.2))).getD x.lineDv

/-- The pool again, and SHORT with it: evaluated only while no power-fail warning is asserted (R372, R373). -/
def State.recomputePool (s : State) : State :=
  let v := s.plant.vMin s.tick
  let pool := if s.plant.warn then 0 else min (ratingQuarter v) s.plant.psuLimit.toNat
  let s := s.onPlant fun x => { x with pool := BitVec.ofNat 16 pool }
  if s.plant.warn then s
  else
    let short := decide (pool < s.reserved)
    let was := s.plant.short
    let s := (s.onPlant fun x => { x with short := short }).setLive 0x001 short
    if short && !was then s.raise 0x001 (BitVec.ofNat 32 s.plant.lineDv) else s

end Sys2Proof.Machine
end

