-- ==== Sys2Proof/Machine/GuardOps.lean ====
section
/-! DEFINITION. The guard's shared operations: region entries (R425), decisions (R426, R437), loads (R429), swaps and clears (R431,
R433–R436), the segment filters' tests (R438, R439) and violation captures (R440, R441). -/

namespace Sys2Proof.Machine

/-- A swap: the inactive bank becomes active; with copy the new inactive bank starts as a copy; the epoch counts (R431, R434, R436). -/
def BankPair.swap (b : BankPair) (copy : Bool) : BankPair :=
  let c := { b with activeB := !b.activeB, epoch := b.epoch + 1 }
  if copy then c.setInactive c.active else c

def State.swapPair (s : State) (n : Nat) (copy : Bool) : State := s.onPair n fun b => b.swap copy

/-! ### Captures (R440, R441) -/

/-- The fault a pair's capture sets: GUARD Pp or UNIT_GUARD; none for the customer pairs (R441, R444). -/
def pairFault (n : Nat) : Option Nat := if n < 8 then some (0x011 + 2 * n) else if n = 10 then some 0x00A else none

/-- A violation decided for pair n: captured if none is, else counted; setting VALID raises the pair's fault, or signals the customer core
(R440, R441). -/
def State.violation (s : State) (n : Nat) (split level : Bool) (k : AccKind) (space req addr : Nat) : State :=
  let c := s.capture n split level k space req addr
  if !c.2 then c.1
  else
    match pairFault n with
    | some i => (c.1.setLive i true).raise i (BitVec.ofNat 32 req)
    | none => c.1.signalPriv (if n = 8 then 2 else 3) 16

/-- The capture is cleared: VALID and VIOL_CNT return to 0, and the fault's live bit with them (R440, R444). -/
def State.clearCapture (s : State) (n : Nat) : State :=
  let s := s.onPair n fun b => { b with cap := { b.cap with valid := false, count := 0 } }
  match pairFault n with
  | some i => s.setLive i false
  | none => s

/-- A session's end clears both banks and the capture and counts the epoch (R433). -/
def State.clearPair (s : State) (p : Nat) : State :=
  (s.onPair p fun b => { b with bankA := [], bankB := [], epoch := b.epoch + 1 }).clearCapture p

/-! ### Colant-space addresses (R422) and segment filters (R438, R439) -/

/-- Colant-space byte address of a word of a drop. -/
def colantAddr (seg drop word : Nat) : Nat := seg * 2 ^ 30 + drop * 2 ^ 25 + word * 2

/-- The words of a drop that an access covers lie in more than one part: an entry of bank pair 10 begins or ends inside it (R437). -/
def State.splitAt (s : State) (g addr len : Nat) : Bool :=
  decide (1 < ((List.range len).map fun n => ((s.pair 10).find 2 (colantAddr (g / 32) (g % 32) (addr + n))).map (·.1)).dedup.length)

/-- A hardware block's access, of requester code req, to words of a drop: whether it passes, and the violation where it does not, at the first word
refused (R423, R426, R437). The accesses decided so, but for that of the telemetry static words (State.readRuns), lie within one 64-byte unit, so no
entry's boundary divides them. -/
def State.blockAccess (s : State) (req : Nat) (k : AccKind) (g addr len : Nat) : Bool × State :=
  match ((List.range len).map fun n => colantAddr (g / 32) (g % 32) (addr + n)).find? fun a => !s.blockOk k 2 a with
  | none => (true, s)
  | some a => (false, s.violation 10 (s.splitAt g addr len) false k 2 req a)

/-- The word lies in a protected range; a range whose LAST is below its BASE is empty (R438). -/
def Filter.inProt0 (f : Filter) (word : Nat) : Bool := decide (f.prot0Base ≤ word) && decide (word ≤ f.prot0Last)
def Filter.inProt1 (f : Filter) (word : Nat) : Bool := decide (f.prot1Base ≤ word) && decide (word ≤ f.prot1Last)

/-- The part of an access that a word falls in, cut at the protected ranges' boundaries (R437). -/
def Filter.part (f : Filter) (word : Nat) : Bool × Bool := (f.inProt0 word, f.inProt1 word)

/-- The protected ranges overlap (R439). -/
def Filter.clash (f : Filter) : Bool :=
  decide (f.prot0Base ≤ f.prot0Last) && decide (f.prot1Base ≤ f.prot1Last)
    && decide (f.prot0Base ≤ f.prot1Last) && decide (f.prot1Base ≤ f.prot0Last)

/-- A bridge access of one word to drop d passes the filter (R438). -/
def Filter.passes (f : Filter) (k : AccKind) (d word : Nat) : Bool :=
  let wr := f.wrMask.getLsbD d && !f.inProt0 word && !f.inProt1 word
  match k with
  | .read | .fetch => f.rdMask.getLsbD d
  | .write => wr
  | .locked => f.rdMask.getLsbD d && wr

/-- Drop d may act as guest (R438, R439). -/
def Filter.guestOk (f : Filter) (d : Nat) : Bool := f.en && f.guestMask.getLsbD d

/-- An EN write: refused, with LOAD_ERR, if the protected ranges overlap (R439). -/
def Filter.writeEn (f : Filter) (en : Bool) : Filter :=
  if en && f.clash then { f with en := false, loadErr := true } else { f with en := en, loadErr := false }

end Sys2Proof.Machine
end

