-- ==== Sys2Proof/Machine/SessionOps.lean ====
section
/-! DEFINITION. Shared operations of sessions: the Sheepdog's takeover and hand-back (R161–R164, R477), destruction of a partition's
objects (R29, R168, R402), the end of a session (R159, R160, R433) and the reset of a partition (R29, R119, R419). -/

namespace Sys2Proof.Machine

/-! ### Customer cores' view of takeovers (R475, R477) -/

/-- Partition p has FALLBACK 0x1 and a drop in FALLBACK that core c serves (R477). -/
def State.takeoverBit (s : State) (c p : Nat) : Bool :=
  (s.part p).fallback && s.drops.any fun e => s.dropState e.1 == .fallback && s.owns p e.1 && s.servedBy e.1 == some c

/-- CC_TAKEOVER follows the drops: private source 4 signals when a bit sets, 5 when one clears (R477). -/
def State.updateTakeover (s : State) : State :=
  [0, 1].foldl (fun s c =>
    let new := (List.range 8).foldl (fun a p => if s.takeoverBit c p then a + 2 ^ p else a) 0
    let old := (s.cust c).takeover
    if BitVec.ofNat 8 new = old then s
    else
      let s := s.onCust c fun x => { x with takeover := BitVec.ofNat 8 new }
      let sets := (List.range 8).filter fun p => new.testBit p && !old.getLsbD p
      let clears := (List.range 8).filter fun p => !new.testBit p && old.getLsbD p
      let s := sets.foldl (fun s _ => s.signalPriv (c + 2) 4) s
      clears.foldl (fun s _ => s.signalPriv (c + 2) 5) s) s

/-! ### The Sheepdog (R161, R163, R164, R169) -/

/-- A drop goes to FALLBACK: its slots carry fallback content from the first cycle that begins at least 1 ms later (R161). -/
def Drop.takeOver (d : Drop) (now : Nat) : Drop :=
  match d.state with
  | .active => { d with state := .fallback, activeAt := none, fallbackFrom := some (now + 1000000) }
  | .fallback => { d with activeAt := none }
  | _ => d

/-- The Sheepdog takes every drop of partition p; FALLBACK is from now on that of the session that lapses or ends (R161, R476). -/
def State.sheepdog (s : State) (p : Nat) : State :=
  let now := s.now
  let s := if (s.part p).session = .closed then s else s.onPart p fun x => { x with fallback := x.sessFallback }
  ((s.liveDropsOf p).foldl (fun s g => s.onDrop g (·.takeOver now)) s).updateTakeover

/-- The first presentation instant at or after t on a drop's segment. -/
def State.dropInstant (s : State) (g t : Nat) : Nat := s.instantFrom (g / 32) t

/-- Each drop in FALLBACK returns to its surface at its first presentation instant at or after t (R163, R164). -/
def State.returnDrops (s : State) (p t : Nat) : State :=
  (s.liveDropsOf p).foldl (fun s g =>
    s.onDrop g fun d => if d.state = .fallback then { d with activeAt := some (s.dropInstant g t) } else d) s

/-- Segments on which a partition owns a drop. -/
def State.partSegs (s : State) (p : Nat) : List Nat := (List.range 64).filter fun i => (s.partsOnSeg i).contains p

/-- The latest of the return instants over the segments with drops of the partition (R163). -/
def State.latestReturn (s : State) (p t : Nat) : Nat :=
  let l := (s.partSegs p).map fun i => s.instantFrom i t
  if l.isEmpty then t else maxNat l

/-! ### Destruction of objects (R29, R165, R168, R402) -/

/-- A shared source returns to its reset state (R402); a commit in its window is discarded. -/
def State.resetSource (s : State) (n : Nat) : State := s.setSource n {}

/-- The two sources of a stream's unit slot return to reset (R402). -/
def State.resetStreamSources (s : State) (slot : Nat) : State := (s.resetSource (2048 + 2 * slot)).resetSource (2049 + 2 * slot)

/-- Every page of a surface bound to a source that ceases to exist. -/
def Surface.orphan (f : Surface) (src : PageSource) (idx : Nat) : Surface :=
  { f with pages := tblMap (fun _ x => if x.source = src ∧ x.srcIndex = idx then { x with gone := true } else x) f.pages }

/-- The pages of a partition's surfaces and canvases bound to a stream or image that ceases to exist (R168, R302). -/
def State.orphanPages (s : State) (p : Nat) (src : PageSource) (idx : Nat) : State :=
  let s := (s.liveDropsOf p).foldl (fun s g => s.onSurf g fun f => f.orphan src idx) s
  { s with canvases := tblMap (fun _ c => if c.part = p then { c with surface := c.surface.orphan src idx } else c) s.canvases }

/-- A stream ceases to exist; layers it fed keep the last frame they used (R168). -/
def State.dropStream (s : State) (slot : Nat) : State :=
  let s : State := match s.stream slot with
    | some x => s.orphanPages x.part .stream x.index
    | none => s
  let s : State := s.resetStreamSources slot
  { s with streams := tblErase s.streams slot }

/-- A destroyed object's memory stays taken until the passes that read it have ended (R29, R302). -/
def State.holdGone (s : State) (p : Nat) (x : Gone) : State :=
  let kept := s.goneHeld p
  s.onPart p fun y => { y with memGone := if x.readers.isEmpty then kept else kept ++ [x] }

/-- The passes begun and not ended that read frames of the stream in a unit slot: drop and T. -/
def State.streamReaders (s : State) (slot : Nat) (x : Stream) : List (Nat × Nat) :=
  s.drops.flatMap fun e =>
    (e.2.passes.filter fun y => y.frames.any fun f => f.2.slot == slot && decide (x.firstUid ≤ f.2.uid)).map fun y => (e.1, y.tNs)

/-- A stream index that a destroyed stream's passes still hold (R29). -/
def State.indexHeld (s : State) (p k : Nat) : Bool := (s.goneHeld p).any fun x => x.stream == some k

/-- A stream goes with its partition's session: its memory and its index are released once the passes begun have ended (R29). -/
def State.vanishStream (s : State) (slot : Nat) (x : Stream) : State :=
  (s.holdGone x.part { bytes := x.alloc, stream := some x.index, readers := s.streamReaders slot x }).dropStream slot

/-- The unit slot of a partition's stream by its index. -/
def State.slotOf (s : State) (p i : Nat) : Option Nat := (s.streams.find? fun e => e.2.part == p && e.2.index == i).map (·.1)

/-- A read-ahead buffer is invalidated; a discarded destructive word sets DISCARD and signals the bridge source (R205). -/
def State.invalidate (s : State) (p w : Nat) : State :=
  match (s.win p w).bind (·.ahead) with
  | none => s
  | some a =>
    let bad := a.destructive && !a.words.isEmpty
    let s := s.onWin p w fun x => { x with ahead := none, discard := x.discard || bad }
    if bad then s.signalUnit p 16 else s

/-- Invalidate the buffer of every window of p for which f holds. -/
def State.invalidateAll (s : State) (p : Nat) (f : Window → Bool) : State :=
  ((s.bridge p).windows.filter fun e => f e.2).foldl (fun s e => s.invalidate p e.1) s

/-- Invalidate every partition's buffers for a drop (R205). -/
def State.invalidateDrop (s : State) (g : Nat) : State :=
  (List.range 8).foldl (fun s p => s.invalidateAll p fun w => !w.guest && w.seg * 32 + w.drop == g) s

/-- Streams, windows, gate lists and shapers of a partition cease to exist; slots and drops stay (R29). -/
def State.destroyObjects (s : State) (p : Nat) : State :=
  let s := (s.streams.filter fun e => e.2.part == p).foldl (fun s e => s.vanishStream e.1 e.2) s
  let s := s.invalidateAll p fun _ => true
  let s : State := { s with gates := tblFilter (fun _ x => x.part != p) s.gates }
  s.onPart p fun x => { x with shapers := [], bridge := { x.bridge with windows := [] } }

/-! ### The end of a session (R159, R160) -/

/-- Nothing waits any more for the reads of host memory that rings of a partition have asked for. -/
def State.dropReads (s : State) (p : Nat) (rings : Nat → Bool) : State :=
  (s.dropReadsOf fun d =>
    match d.purpose with
    | .fetch q r _ _ => q == p && rings r
    | .command q r => q == p && rings r
    | .guest .. => false).sendReads p

/-- The session state and level go to CLOSED; the guard's rules go with a session that ends (R156, R178, R433); the heartbeat fault's live bit clears
with LAPSED (R444), and a lapse that waits for the vendor core is none any more (R161, R481). -/
def State.closeSession (s : State) (p : Nat) : State :=
  let t := (s.onBoot fun b => { b with lapsesDue := b.lapsesDue.filter (· != p) }).onPart p fun x => { x with session := .closed, level := 0 }
  (if (s.part p).session = .closed then t else t.clearPair p).setLive (0x010 + 2 * p) false

/-- The restore sequences of a partition's drops end with their commands' rings: the drops stay RETIRED (R160, R169, log entry 101). -/
def State.endRestores (s : State) (p : Nat) : State :=
  (s.liveDropsOf p).foldl (fun s g => s.onDrop g fun d => { d with restoring := false }) s

/-- A session ends under R160: no completion is written, every ring becomes ABSENT and the HST_ADM registers and doorbells return to
reset; objects go as R29 states, drops to the Sheepdog as under a lapse, without its fault. -/
def State.endSession (s : State) (p : Nat) : State :=
  let s := ((s.sheepdog p).destroyObjects p).endRestores p
  let s := s.dropReads p fun _ => true
  let s := s.onPart p fun x =>
    { x with rings := [], admSq := 0, admCq := 0, admEn := false, admSqLog2 := 4, admCqLog2 := 4, held := [], lastRing := 15 }
  s.closeSession p

/-- The sources a partition owns (R399). -/
def State.sourcesOf (s : State) (p : Nat) : List Nat :=
  (s.evc.sources.map (·.1)).filter fun n => s.sourceOwner n == some p

/-- Function level reset of a partition (R29, R160, R398, R419, R466); the configuration space's own reset (Memory Space Enable, Bus
Master Enable, MSI-X table, PowerState, PME) follows PCI Express; MSI-X Enable stays as written (log entries 12, 126). -/
def State.resetPartition (s : State) (p : Nat) : State :=
  let s := s.endSession p
  let s : State := { s with dma := s.dma.filter fun d => d.part != p || !d.dropped }
  let s := (s.sourcesOf p).foldl (fun s n => s.resetSource n) s
  let s := s.setGroup (88 + p) { s.group (88 + p) with holdoff := 0 }
  let s := (s.liveDropsOf p).foldl (fun s g => s.onDrop g fun d =>
    { d with crcEn := false, thumbInt := 0, tlmInt := 0, tlmDue := none, thumb := { d.thumb with due := false, next := none } }) s
  s.onPart p fun x =>
    { x with mse := false, bme := false, vectors := [], funcMask := false, dstate := .d0, pmeEn := false, pmeStatus := false,
             pmeTick := none, hbPaused := false, inL1 := false, aspmEn := false, bars := [], dev := {}, aer := {},
             logRing := { x.logRing with addr := 0, en := false, log2 := 6, waiting := [] } }

/-! ### The heartbeat (R161) -/

/-- Heartbeat time run since the last restart, in 1 ms ticks of 10^5 local ticks. -/
def State.heartbeatDue (s : State) (p : Nat) : Bool :=
  let x := s.part p
  x.session == .opened && !x.hbPaused && s.past x.hbTick (ticksOfMs x.hbMs)

/-- A session lapses: LAPSED, the fault is recorded and the Sheepdog takes the drops (R161, R444). -/
def State.lapse (s : State) (p : Nat) : State :=
  let s := s.onPart p fun x => { x with session := .lapsed }
  let s := s.setLive (0x010 + 2 * p) true
  (s.raise (0x010 + 2 * p) 0).sheepdog p

/-- The heartbeat timer restarts at HB_MS (R161). -/
def State.restartHeartbeat (s : State) (p : Nat) : State := s.onPart p fun x => { x with hbTick := s.tick }

end Sys2Proof.Machine
end

