-- ==== Sys2Proof/Machine/Words.lean ====
section
/-! DEFINITION. Colant words and commands (R76–R82, R87), their sending at a rate (R75, R78), and the unit's answers to a guest (R79, R84, R87,
R105). -/

namespace Sys2Proof.Machine

/-! ### Words (R76, R78, R79) -/

/-- Odd parity over data, C, F and RSV (R76). -/
def parityBit (data : W16) (c f rsv : Bool) : Bool :=
  (((List.range 16).filter fun i => data.getLsbD i).length + b2n c + b2n f + b2n rsv) % 2 == 0

def colWord (data : W16) (c f : Bool) : ColWord := { data := data, c := c, p := parityBit data c f false, f := f, rsv := false }
def goodWord (w : ColWord) : Bool := w.p == parityBit w.data w.c w.f w.rsv

def alignWord : ColWord := colWord 0xF00F true false
def idleWord : ColWord := colWord 0x0000 true false

/-- A word's four bit-times, b0 first: the bits on DAT3–DAT0, and the bit on TAG (R76). -/
def laneBits (w : ColWord) : List (BitVec 4 × Bool) :=
  [(w.data.extractLsb' 12 4, w.c), (w.data.extractLsb' 8 4, w.p), (w.data.extractLsb' 4 4, w.f), (w.data.extractLsb' 0 4, w.rsv)]

/-- Lanes that nobody drives read as a word of zeros, whose parity fails (R77). -/
def released (w : ColWord) : Bool := w.data == 0 && !w.c && !w.p && !w.f && !w.rsv

/-- Header (R79). -/
def header (op drop param : Nat) : W16 := BitVec.ofNat 16 (packFields [(op % 32, 11), (drop % 32, 6), (param % 64, 0)])
def headOp (w : W16) : Nat := field w.toNat 15 11
def headDrop (w : W16) : Nat := field w.toNat 10 6
def headParam (w : W16) : Nat := field w.toNat 5 0

/-- A command or response: header first, F on the last word, a CRC word in Colant-2 mode (R87). -/
def message (ws : List W16) (crc : Bool) : List ColWord :=
  let all := if crc then ws ++ [crc16 ws] else ws
  all.zipIdx.map fun x => colWord x.1 (x.2 == 0) (x.2 + 1 == all.length)

/-- A command to every drop of a segment. -/
def broadcast (op : Nat) (ws : List W16) : List ColWord := message (header op 0 0 :: ws) false

/-- Address words A1 and A2 (R80). -/
def addrWords (a : Nat) : List W16 := [BitVec.ofNat 16 (a / 65536 % 256), BitVec.ofNat 16 a]

/-! ### Opcodes (R81) -/

def opRd : Nat := 0x01
def opWr : Nat := 0x02
def opRdb : Nat := 0x03
def opWrb : Nat := 0x04
def opLockrd : Nat := 0x05
def opUnlockwr : Nat := 0x06
def opPoll : Nat := 0x07
def opWhistle : Nat := 0x08
def opSync : Nat := 0x09
def opFreeze : Nat := 0x0A
def opResume : Nat := 0x0B
def opGrant : Nat := 0x0C
def opReturn : Nat := 0x0D
def opKeepalive : Nat := 0x0E
def opMeasure : Nat := 0x11
def opFrame : Nat := 0x12
def opAck : Nat := 0x18
def opNak : Nat := 0x19
def opBusy : Nat := 0x1A
def opRdata : Nat := 0x1B
def opStat : Nat := 0x1C
def opMrsp : Nat := 0x1D

def ColOp.code : ColOp → Nat
  | .rd => opRd
  | .wr => opWr
  | .rdb => opRdb
  | .wrb => opWrb
  | .lockrd => opLockrd
  | .unlockwr => opUnlockwr

/-- The words of a command the unit sends to a drop, before any CRC word. addr and len as the opcode uses them. -/
def commandWords (op drop addr len : Nat) (data : List W16) : List W16 :=
  if op = opRd ∨ op = opLockrd then header op drop 0 :: addrWords addr
  else if op = opWr ∨ op = opUnlockwr then header op drop 0 :: (addrWords addr ++ data.take 1)
  else if op = opRdb then header op drop (len - 1) :: addrWords addr
  else if op = opWrb then header op drop (len - 1) :: (addrWords addr ++ data)
  else if op = opMeasure then header op drop 1 :: []
  else if op = opFrame then header op drop 3 :: data      -- H1 and payload of a Retriever request
  else header op drop 0 :: []

/-- Words of a good answer without CRC: RDATA, ACK, STAT, delay-only MRSP; 0 for a command without response. RTV requests answer RDATA
of len words. -/
def answerLen (op len : Nat) : Nat :=
  if op = opRd ∨ op = opLockrd then 2
  else if op = opRdb ∨ op = opFrame then 1 + len
  else if op = opWr ∨ op = opWrb ∨ op = opUnlockwr then 1
  else if op = opPoll then 2
  else if op = opMeasure then 2
  else 0

/-! ### Sending -/

/-- Words at a rate. A change to Colant-2 rate is followed by two ALIGN words, unless the words begin with ALIGN themselves (R75, R78). -/
def State.sendWords (s : State) (i : Nat) (c2 : Bool) (ws : List ColWord) : State :=
  let up := c2 && !(s.seg i).rate2 && ws.head? != some alignWord
  let s := if up then s.emit (.colant i 2 [alignWord, alignWord]) else s
  let s := if (s.seg i).rate2 == c2 then s else s.onSeg i fun x => { x with rate2 := c2 }
  s.emit (.colant i (if c2 then 2 else 1) ws)

/-! ### Answers to a guest (R84, R105) -/

/-- When the command a guest waits with arrived. -/
def GuestWait.arrival : GuestWait → Nat
  | .read c _ => c.arrival
  | .semaphore c => c.arrival
  | .posted c => c.arrival
  | .room c => c.arrival

/-- The BUSY words that a waiting guest has been sent by now: from position 3 after its command on, up to the first position that begins at this
instant or after it (R83, R84, R105, R207). -/
def State.busySince (s : State) (i : Nat) (t : Tenure) : State :=
  match t.wait with
  | some w =>
    let n := ceilDiv ((s.tick - w.arrival) * 30) (if t.colant2 then 25 else 50) - 2
    if n = 0 then s else s.emit (.busyWords i (if t.colant2 then 2 else 1) t.drop n)
  | none => s

/-- The unit's answer to a guest, with the guest's drop number, after its BUSY words (R79, R84, R87). -/
def State.answerGuest (s : State) (i : Nat) (t : Tenure) (op param : Nat) (data : List W16) : State :=
  ((s.busySince i t).sendWords i t.colant2 (message (header op t.drop param :: data) t.colant2)).onSeg i fun x =>
    { x with tenure := x.tenure.map fun t => { t with wait := none } }

def State.nakGuest (s : State) (i : Nat) (t : Tenure) (reason : Nat) : State := s.answerGuest i t opNak reason []

/-- A guest waits for its answer, under BUSY words (R105). -/
def State.holdGuest (s : State) (i : Nat) (w : GuestWait) : State :=
  s.onSeg i fun x => { x with tenure := x.tenure.map fun t => { t with wait := some w } }

end Sys2Proof.Machine
end

