-- ==== Sys2Proof/Machine/BridgeOps.lean ====
section
/-! DEFINITION. Shared operations of the bridge: translation (R181–R190), acceptance with the guard's decision and splitting (R203, R426,
R435, R437), items and their outcomes (R196–R201), read-ahead (R204, R205), the semaphore and AtomicOps (R210, R211). -/

namespace Sys2Proof.Machine

/-! ### Causes (R198) -/

def causeNak : Nat := 0x1
def causeParity : Nat := 0x2
def causeCrc : Nat := 0x3
def causeTimeout : Nat := 0x4
def causeNoWindow : Nat := 0x5
def causeGuard : Nat := 0x6
def causePartial : Nat := 0x7
def causeNoDrop : Nat := 0x8
def causeHostDropped : Nat := 0x9
def causeStale : Nat := 0xA
def causeFormat : Nat := 0xB

/-- Causes whose read completes as success with poisoned data (R198). -/
def poisons (c : Nat) : Bool := c == causeParity || c == causeCrc || c == causeFormat

/-! ### Byte order (R185, R186) -/

/-- The two bytes of a word as a host half (low byte at the lower address), under a swap mode. -/
def halfOf (swap : BitVec 2) (w : W16) : W16 := if swap = 1 then w.extractLsb' 0 8 ++ w.extractLsb' 8 8 else w

/-- Word address of the host half at window offset o (even). -/
def Window.wordAt (w : Window) (o : Nat) : Nat :=
  if w.swap = 2 then w.cbase + o / 4 * 2 + (1 - o % 4 / 2) else w.cbase + o / 2

/-- Host bytes of consecutive words from an even word of a DWord (R186). -/
def hostBytes (swap : BitVec 2) : List W16 → List Byte
  | a :: b :: rest =>
    let half := fun (w : W16) => leBytes (halfOf swap w).toNat 2
    (if swap = 2 then half b ++ half a else half a ++ half b) ++ hostBytes swap rest
  | [a] => leBytes (halfOf swap a).toNat 2
  | [] => []

/-- Words of host bytes, the inverse of hostBytes. -/
def wordsOfHost (swap : BitVec 2) : List Byte → List W16
  | b0 :: b1 :: b2 :: b3 :: rest =>
    let w := fun (l h : Byte) => halfOf swap (h ++ l)
    (if swap = 2 then [w b2 b3, w b0 b1] else [w b0 b1, w b2 b3]) ++ wordsOfHost swap rest
  | b0 :: b1 :: _ => [halfOf swap (b1 ++ b0)]
  | _ => []

/-- The value listed at k, 0 where none is. -/
def wordAt (l : List (Nat × W16)) (k : Nat) : W16 := ((l.find? fun e => e.1 == k).map (·.2)).getD 0

/-! ### Requests, by host halves -/

/-- One 16-bit host position of a request (BAR2 offset ÷ 2): its enabled bytes and, in a write, its data. -/
structure HalfReq where
  half : Nat
  lo : Bool
  hi : Bool
  data : W16
  deriving DecidableEq, Repr

/-- Byte enables of DWord j of n (R123). -/
def enablesAt (n j : Nat) (firstBE lastBE : BitVec 4) : BitVec 4 := if j = 0 then firstBE else if j + 1 = n then lastBE else 15

/-- The halves of a request with an enabled byte. -/
def requestHalves (off n : Nat) (data : List W32) (firstBE lastBE : BitVec 4) : List HalfReq :=
  ((List.range n).flatMap fun j =>
    let be := enablesAt n j firstBE lastBE
    let d := data.getD j 0
    [{ half := off / 4 * 2 + 2 * j, lo := be.getLsbD 0, hi := be.getLsbD 1, data := d.extractLsb' 0 16 },
     { half := off / 4 * 2 + 2 * j + 1, lo := be.getLsbD 2, hi := be.getLsbD 3, data := d.extractLsb' 16 16 : HalfReq }]).filter
    fun h => h.lo || h.hi

/-- The ENABLED host window at a BAR2 half (R181, R184). -/
def Bridge.windowAt (b : Bridge) (half : Nat) : Option (Nat × Window) :=
  b.windows.find? fun e =>
    e.2.state == .enabled && !e.2.guest && decide (e.2.haddr.toNat ≤ 2 * half) && decide (2 * half < e.2.haddr.toNat + 2 ^ e.2.sizeLog2)

/-- What the bridge decides for one half at acceptance. -/
inductive Fate where
  | noWindow | partialWord | noDrop | refused | pass
  deriving DecidableEq, Repr

/-- One half of a request with its target and fate; region is the guard entry that contains it. -/
structure Part where
  half : Nat
  fate : Fate
  window : Nat
  seg : Nat
  drop : Nat
  swap : BitVec 2
  word : Nat
  region : Option Nat
  data : W16
  deriving DecidableEq, Repr

/-- Decide one half of a request of partition p (R184, R187, R198, R426). -/
def State.decide1 (s : State) (p : Nat) (k : AccKind) (h : HalfReq) : Part :=
  match (s.bridge p).windowAt h.half with
  | none => { half := h.half, fate := .noWindow, window := 0, seg := 0, drop := 0, swap := 0, word := h.half, region := none, data := h.data }
  | some (i, w) =>
    let word := w.wordAt (2 * h.half - w.haddr.toNat)
    let d := (s.pair p).user 2 (colantAddr w.seg w.drop word) k
    let st := s.dropState (w.seg * 32 + w.drop)
    let fate : Fate :=
      if k == .write && !(h.lo && h.hi) then .partialWord
      else if !d.2 then .refused
      else if st == .absent || st == .retired then .noDrop
      else .pass
    { half := h.half, fate := fate, window := i, seg := w.seg, drop := w.drop, swap := w.swap, word := word, region := d.1,
      data := halfOf w.swap h.data }

/-- The request lies across a window or region boundary (R437). -/
def splitParts (l : List Part) : Bool := decide (1 < (l.map fun x => (x.fate == .noWindow, x.window, x.region)).dedup.length)

/-- Parts in ascending word order within each window, windows in host order (R188). -/
def orderParts (l : List Part) : List Part :=
  let keys := (l.map fun x => (x.fate == .noWindow, x.window)).dedup
  keys.flatMap fun k =>
    (l.filter fun x => (x.fate == .noWindow) == k.1 && x.window == k.2).insertionSort fun a b => a.word ≤ b.word

/-- Runs of consecutive words with one window, region and fate, cut at every multiple of 64 (R188, R203). -/
def runsOfParts (l : List Part) : List (List Part) :=
  (l.foldl (fun (acc : List (List Part)) x =>
    match acc with
    | (y :: ys) :: rest =>
      if x.fate == y.fate && x.window == y.window && x.region == y.region && x.word == y.word + 1 && x.word % 64 != 0
          && x.fate != .partialWord then (x :: y :: ys) :: rest
      else [x] :: (y :: ys) :: rest
    | _ => [x] :: acc) []).reverse.map List.reverse

/-- The journal entry of a run of parts that begins with x. -/
def Part.journal (x : Part) (cause words nak : Nat) (dir : Bool) : JrnEntry :=
  { seq := 0, cause := BitVec.ofNat 4 cause, nowin := x.fate == .noWindow, dir := dir, seg := x.seg, drop := x.drop, window := x.window,
    words := words - 1, nak := BitVec.ofNat 8 nak, addr := x.word, time := 0 }

/-- The journal entry of a failed command. -/
def ColCmd.journal (c : ColCmd) (cause nak : Nat) : JrnEntry :=
  { seq := 0, cause := BitVec.ofNat 4 cause, nowin := false, dir := false, seg := c.seg, drop := c.drop, window := c.window,
    words := c.len - 1, nak := BitVec.ofNat 8 nak, addr := c.addr, time := 0 }

/-- Fate to journal cause. -/
def Fate.cause : Fate → Nat
  | .noWindow => causeNoWindow
  | .partialWord => causePartial
  | .noDrop => causeNoDrop
  | .refused => causeGuard
  | .pass => 0

/-- A violation of pair p by an access part, at its first refused byte. -/
def State.refusePart (s : State) (p : Nat) (split level : Bool) (k : AccKind) (x : Part) : State :=
  s.violation p split level k 2 p (colantAddr x.seg x.drop x.word)

/-! ### Items -/

/-- Items in each host-to-Colant class (R191). -/
def Bridge.postedCount (b : Bridge) : Nat := (b.items.filter fun i => i.read.isNone && i.atomic.isNone).length
def Bridge.nonPostedCount (b : Bridge) : Nat :=
  (b.items.filter fun i => i.read.isSome || i.atomic.isSome).length + b.zeroReads.length

/-- A class holds n entries of at most cap; the request cannot be taken where its k entries do not fit beside them, or where the class of the
X8_TWO partner, which shares the link's credits, is full (R192). -/
def State.linkFull (s : State) (p : Nat) (n : Bridge → Nat) (cap k : Nat) : Bool :=
  decide (cap < n (s.bridge p) + k) || (s.map.mode (p / 2) == 1 && decide (cap ≤ n (s.bridge (p / 2 * 2 + (1 - p % 2)))))

/-- The posted class cannot take k more commands; the non-posted class cannot take a request (R191, R192): with one, the link withholds the
credits of the class, and no request of it arrives. -/
def State.postedFull (s : State) (p k : Nat) : Bool := s.linkFull p Bridge.postedCount 512 k
def State.nonPostedFull (s : State) (p : Nat) : Bool := s.linkFull p Bridge.nonPostedCount 128 1

/-- The host ports' links can be up: the unit has power, and does not run in service mode, which holds them down (R488). -/
def State.linksLive (s : State) : Bool := s.boot.phase == .starting || s.boot.phase == .running

/-- Requests of the class, to whatever register or window, do not arrive now: a link is held down, or withholds the class's credits (R192,
R488, log entry 143). -/
def State.linkHeld (s : State) (p : Nat) (read : Bool) : Bool := !s.linksLive || if read then s.nonPostedFull p else s.postedFull p 1

def State.addItem (s : State) (p : Nat) (it : Item) : State := s.onBridge p fun b => { b with items := b.items ++ [it] }
def State.onItem (s : State) (p id : Nat) (f : Item → Item) : State :=
  s.onBridge p fun b => { b with items := b.items.map fun i => if i.id = id then f i else i }
def State.item (s : State) (p id : Nat) : Option Item := (s.bridge p).items.find? fun i => i.id == id

/-- An item leaves the buffers; the zero-length reads that waited only for it complete (R190). -/
def State.removeItem (s : State) (p id : Nat) : State :=
  let b := s.bridge p
  let zs := b.zeroReads.map fun z => { z with items := z.items.filter (· != id) }
  let s := s.onBridge p fun b => { b with items := b.items.filter fun i => i.id != id, zeroReads := zs.filter fun z => !z.items.isEmpty }
  (zs.filter fun z => z.items.isEmpty).foldl (fun s z => s.emit (.cpl p z.tag .sc false (leBytes 0 4))) s

/-- FAIL_CNT of a window counts a failed read. -/
def State.countFail (s : State) (p : Nat) (f : FailRec) : State :=
  if f.cause = causeNoWindow then s else s.onWin p f.window fun w => { w with failCnt := satInc w.failCnt }

/-- BRG_RDERR takes the failure unless it holds one (R199). -/
def State.recordReadErr (s : State) (p : Nat) (f : FailRec) : State :=
  s.onBridge p fun b =>
    if b.rdErr.valid then b
    else
      let nowin := f.cause == causeNoWindow
      let e : ReadErr := { valid := true, cause := BitVec.ofNat 4 f.cause, nowin := nowin, window := if nowin then 0 else f.window,
                           offsetHi := if nowin then f.addr / 2 ^ 24 else 0, nak := f.nak, addr := f.addr % 2 ^ 24 }
      { b with rdErr := e }

/-- Failures in address order. -/
def sortFails (l : List FailRec) : List FailRec := l.mergeSort fun a b => decide (a.key ≤ b.key)

/-- The value read at a host half, 0 where none was read. -/
def ReadReq.half (r : ReadReq) (h : Nat) : Nat := (wordAt r.got h).toNat

/-- The completion data of a host read. -/
def ReadReq.bytes (r : ReadReq) : List Byte := (List.range (2 * r.dwords)).flatMap fun i => leBytes (r.half (r.off / 4 * 2 + i)) 2

/-- The semaphore of partition p becomes free. -/
def State.freeSem (s : State) (p : Nat) : State := s.onBridge p fun b => { b with semOwner := .none, semExpiry := none }

/-! ### Guest writes on their way to the host (R191, R193, R208, R210) -/

/-- A posted entry leaves for host memory; where the function may not write, in D3hot too, it is journalled (R129, R209, log entry
128). An UNLOCKWR's releases the hold it ends, if that still stands (R210). -/
def State.sendPost (s : State) (p : Nat) (g : GuestPost) : State :=
  let s := if (s.part p).dmaOk then g.pieces.foldl (fun s x => s.writeHost p x.1 x.2) s
    else s.journal p { seq := 0, cause := BitVec.ofNat 4 causeHostDropped, nowin := false, dir := true, seg := g.seg, drop := g.drop,
                       window := g.window, words := g.len - 1, nak := 0, addr := g.word, time := 0 }
  if (s.bridge p).semOwner == .guest && g.unlock == some (s.bridge p).semHold then s.freeSem p else s

/-- Every posted entry leaves, in order: what follows must not pass it. -/
def State.flushPosted (s : State) (p : Nat) : State :=
  let l := (s.bridge p).guestPosted
  l.foldl (fun s g => s.sendPost p g) (s.onBridge p fun b => { b with guestPosted := [] })

/-- A host read completes: Completer Abort over poisoned data over success (R198, R203). -/
def State.completeRead (s : State) (p : Nat) (r : ReadReq) : State :=
  let s := s.flushPosted p
  let fails := sortFails r.fails
  match (fails.filter fun f => !poisons f.cause) ++ fails with
  | [] =>
    s.sendCpl p r.tag (r.off / 4 * 4) false r.bytes
  | f :: _ =>
    let s := (s.recordReadErr p f).countFail p f
    if poisons f.cause then s.sendCpl p r.tag (r.off / 4 * 4) true (List.replicate (4 * r.dwords) 0xFF) else s.emit (.cpl p r.tag .ca false [])

/-! ### The semaphore (R210) -/


/-- Bus byte address of a guest window's word (R185). -/
def Window.hostAddr (w : Window) (word : Nat) : Nat :=
  let o := word - w.cbase
  w.haddr.toNat + (if w.swap = 2 then o / 2 * 4 + (2 - o % 2 * 2) else 2 * o)

/-- The bus range one memory read of a guest window's words covers: under SWAP32 its whole DWords (R186, R191). -/
def Window.hostRange (w : Window) (word len : Nat) : Nat × Nat :=
  if w.swap = 2 then
    let a := (word - w.cbase) / 2
    let b := (word + len - 1 - w.cbase) / 2
    (w.haddr.toNat + 4 * a, 4 * (b + 1 - a))
  else (w.hostAddr word, 2 * len)

/-- The memory read of a guest read or LOCKRD leaves, and beside it those of the other parts of a split one; the guest waits for them (R203,
R207). -/
def State.startGuestRead (s : State) (p seg : Nat) (c : GuestCmd) : State :=
  let s := s.flushPosted p
  let id := s.nextId
  (s.startReads p (.guest p seg) (c.early.map (·, false) ++ [((c.bus, c.busLen), true)])).onSeg seg fun x =>
    { x with tenure := x.tenure.map fun t => { t with wait := some (.read c id) } }

/-- Guest reads of a partition whose data has not come, each with a Colant-to-host non-posted entry (R191). -/
def State.guestReadsOut (s : State) (p : Nat) : Nat :=
  (s.dma.filter fun d => match d.purpose with
    | .guest q _ => q == p && d.id == d.read
    | _ => false).length

/-- A guest read or LOCKRD is started, or waits for a non-posted entry under BUSY words (R191, R208). -/
def State.beginGuestRead (s : State) (p seg : Nat) (c : GuestCmd) : State :=
  if s.guestReadsOut p < 64 then s.startGuestRead p seg c else s.holdGuest seg (.room c)

/-- Commands of an AtomicOp's present step (R211). -/
def AtomicRun.cmd (a : AtomicRun) (op : ColOp) (off len : Nat) (data : List W16) : ColCmd :=
  { op := op, window := a.window, seg := a.seg, drop := a.drop, swap := a.swap, addr := a.addr + off, len := len, data := data,
    halves := [], fill := false }

/-- An AtomicOp takes the free semaphore and starts its sequence (R210, R211). -/
def State.atomicTakes (s : State) (p id : Nat) : State :=
  (s.onBridge p fun b => { b with semOwner := .atomic }).onItem p id fun it =>
    match it.atomic with
    | some a => { it with atomic := some { a with step := 2 }, cmds := [a.cmd .rdb 1 (a.n - 1) []] }
    | none => it

/-- A guest's LOCKRD takes the free semaphore, with an expiry 100 µs after the LOCKRD, and its memory read follows (R210, R212). -/
def State.guestTakes (s : State) (p seg : Nat) (t : Tenure) (c : GuestCmd) : State :=
  (s.onBridge p fun b =>
    { b with semOwner := .guest, semExpiry := some (c.arrival + ticksOfUs 100), semSeg := seg, semDrop := t.drop, semField := c.drop,
             semAddr := c.addr, semHold := b.semHold + 1 }).beginGuestRead p seg c

/-- The free semaphore goes to the first of these waiters that can use it; a LOCKRD whose function may no longer read host memory is answered
NAK ACCESS (R209, R210). -/
def State.grantFrom (s : State) (p : Nat) : List SemWaiter → State
  | [] => s.onBridge p fun b => { b with semWaiting := [] }
  | .atomic id :: rest => (s.onBridge p fun b => { b with semWaiting := rest }).atomicTakes p id
  | .guest seg :: rest =>
    match (s.seg seg).tenure with
    | some t =>
      match t.wait with
      | some (.semaphore c) =>
        if (s.part p).dmaOk then (s.onBridge p fun b => { b with semWaiting := rest }).guestTakes p seg t c
        else (s.nakGuest seg t 0x12).grantFrom p rest
      | _ => s.grantFrom p rest
    | none => s.grantFrom p rest

/-- What waits takes the semaphore, once it is free, in order of arrival (R210). -/
def State.grantSem (s : State) (p : Nat) : State :=
  if (s.bridge p).semOwner = .none then s.grantFrom p (s.bridge p).semWaiting else s

/-- Host value of the words, little-endian over the host bytes. -/
def AtomicRun.value (a : AtomicRun) : Nat :=
  ofLe (hostBytes a.swap ((List.range a.n).map fun i => wordAt a.got i))

/-- The result of an AtomicOp (R127, R211). -/
def AtomicRun.result (a : AtomicRun) : Nat :=
  let v := a.value
  match a.kind with
  | .fetchAdd => (v + a.operand) % 2 ^ (16 * a.n)
  | .swap => a.operand
  | .cas => if v = a.compare then a.operand else v

/-- Runs of changed words among 1 … n − 1, as (first, words). -/
def changedRuns (old new : List W16) : List (Nat × List W16) :=
  (((old.zip new).zipIdx.filter fun x => x.2 != 0 && x.1.1 != x.1.2).foldl (fun (acc : List (Nat × List W16)) x =>
    match acc with
    | (i, ws) :: rest => if x.2 = i + ws.length then (i, ws ++ [x.1.2]) :: rest else (x.2, [x.1.2]) :: (i, ws) :: rest
    | [] => [(x.2, [x.1.2])]) []).reverse

/-- The next step of an AtomicOp once its present commands are done; none when it has ended (R211). -/
def AtomicRun.advance (a : AtomicRun) : Option (AtomicRun × List ColCmd) :=
  let old := (List.range a.n).map fun i => wordAt a.got i
  let new := wordsOfHost a.swap (leBytes a.result (2 * a.n))
  if a.step = 2 then some ({ a with step := 3 }, [a.cmd .lockrd 0 1 []])
  else if a.step = 3 then some ({ a with step := 5 }, [a.cmd .unlockwr 0 1 [new.getD 0 0]])
  else if a.step = 5 then
    match changedRuns old new with
    | [] => none
    | l => some ({ a with step := 6 }, l.map fun r => a.cmd .wrb r.1 r.2.length r.2)
  else none

/-- An AtomicOp ends: the semaphore is released and the request completes, after the guest writes accepted before (R193, R211 steps 7, 8). -/
def State.endAtomic (s : State) (p : Nat) (it : Item) (a : AtomicRun) : State :=
  let s := s.removeItem p it.id
  let s := if a.step = 0 then s.onBridge p fun b => { b with semWaiting := b.semWaiting.filter (· != .atomic it.id) } else s.freeSem p
  let s := s.flushPosted p
  let s : State := match a.fail with
    | none => s.emit (.cpl p a.tag .sc false (leBytes a.value (2 * a.n)))
    | some f => ((s.recordReadErr p f).countFail p f).emit (.cpl p a.tag .ca false [])
  s.grantSem p

/-- After a command of an item is done or failed: the item ends when none is left (R189, R203). -/
def State.settleItem (s : State) (p id : Nat) : State :=
  match s.item p id with
  | none => s
  | some it =>
    if !it.cmds.isEmpty then s
    else
      match it.atomic with
      | some a =>
        match (if a.fail.isSome || a.step = 0 then none else a.advance) with
        | some (a', cs) => s.onItem p id fun i => { i with atomic := some a', cmds := cs }
        | none => if a.step = 0 && a.fail.isNone then s else s.endAtomic p it a
      | none =>
        match it.read with
        | some r => ((s.removeItem p id).completeRead p r).grantSem p
        | none => s.removeItem p id

/-- The failure record of a command of a read or AtomicOp. -/
def ColCmd.failRec (c : ColCmd) (cause nak : Nat) : FailRec :=
  { key := (c.halves.findSome? fun x => x).getD c.addr, cause := cause, nak := BitVec.ofNat 8 nak, window := c.window, addr := c.addr }

/-- The head command of an item fails; all later commands too if the cause is STALE or the item is an AtomicOp (R196, R198, R211). -/
def State.failHead (s : State) (p id cause nak : Nat) : State :=
  match s.item p id with
  | none => s
  | some it =>
    match it.cmds with
    | [] =>
      match it.atomic with
      | some a =>
        let f : FailRec := { key := 0, cause := cause, nak := BitVec.ofNat 8 nak, window := a.window, addr := a.addr }
        (s.onItem p id fun i => { i with atomic := some { a with fail := some f } }).settleItem p id
      | none => s
    | c :: rest =>
      let f := c.failRec cause nak
      let s : State := match it.atomic, it.read with
        | some a, _ => s.onItem p id fun i => { i with cmds := [], issued := false, retries := 0, atomic := some { a with fail := some f } }
        | none, some r =>
          s.onItem p id fun i =>
            { i with cmds := if cause = causeStale then [] else rest, issued := false, retries := 0,
                     read := some { r with fails := r.fails ++ [f] } }
        | none, none => (s.journal p (c.journal cause nak)).onItem p id fun i => { i with cmds := rest, issued := false, retries := 0 }
      s.settleItem p id

/-- The commands of a read after its first for which f holds fail with NO_DROP (R198, R453). -/
def Item.failLater (it : Item) (f : Nat → Nat → Bool) : Item :=
  let hit := fun (c : ColCmd) => f c.seg c.drop
  match it.read with
  | some r =>
    { it with cmds := it.cmds.take 1 ++ (it.cmds.drop 1).filter fun c => !hit c,
              read := some { r with fails := r.fails ++ ((it.cmds.drop 1).filter hit).map fun c => c.failRec causeNoDrop 0 } }
  | none => it

/-- Every item of partition p whose next command, not on the wires, is one for which f holds fails it with NO_DROP (R198, R453, R454). -/
def State.failNoDrop (fuel : Nat) (s : State) (p : Nat) (f : Nat → Nat → Bool) : State :=
  match fuel with
  | 0 => s
  | k + 1 =>
    match (s.bridge p).items.find? fun it =>
        (!it.issued && (it.cmds.head?.map fun c => f c.seg c.drop).getD false)
          || (it.cmds.isEmpty && (it.atomic.map fun a => f a.seg a.drop).getD false) with
    | none => s
    | some it => (s.failHead p it.id causeNoDrop 0).failNoDrop k p f

/-- Fail with NO_DROP in every partition. -/
def State.failNoDropAll (s : State) (f : Nat → Nat → Bool) : State :=
  s.fairly ((List.range 8).foldl (fun s p =>
    let s := s.onBridge p fun b => { b with items := b.items.map fun it => it.failLater f }
    s.failNoDrop (sumNat ((s.bridge p).items.map fun i => i.cmds.length + 1)) p f) s)

/-! ### Acceptance (R184, R187, R190, R203, R204, R435) -/

/-- The read commands of a run of passing parts. -/
def readCmd (l : List Part) : Option ColCmd :=
  l.head?.map fun x =>
    { op := if l.length = 1 then .rd else .rdb, window := x.window, seg := x.seg, drop := x.drop, swap := x.swap, addr := x.word,
      len := l.length, data := [], halves := l.map fun y => some y.half, fill := false }

/-- The window reads ahead now (R204, R206). -/
def State.readsAhead (s : State) (w : Window) : Bool :=
  w.prefetch && (w.force || (s.drop (w.seg * 32 + w.drop)).colant2)

/-- The blocks a read-ahead window reads for its parts: each 64-word block with a requested word, by one RDB (R204). -/
def blockCmds (l : List Part) : List ColCmd :=
  let blocks := (l.map fun x => x.word / 64).dedup
  let last := maxNat blocks
  match l.head? with
  | none => []
  | some x => blocks.map fun b =>
      { op := .rdb, window := x.window, seg := x.seg, drop := x.drop, swap := x.swap, addr := 64 * b, len := 64, data := [],
        halves := (List.range 64).map fun i => (l.find? fun y => y.word == 64 * b + i).map (·.half), fill := b == last }

/-- A write or AtomicOp to a drop is accepted: the partition's read-ahead buffers of the drop go, and what reads accepted before it bring
is not kept (R194, R205). -/
def State.spoilReads (s : State) (p seg drop : Nat) : State :=
  (s.onBridge p fun b => { b with items := b.items.map fun it =>
    { it with cmds := it.cmds.map fun c => if c.seg = seg ∧ c.drop = drop then { c with fill := false } else c } }).invalidateAll p
      fun w => !w.guest && w.seg == seg && w.drop == drop

/-- Accept a host write to BAR2; none while the posted buffer cannot take it (R192). -/
def State.acceptWrite (s : State) (p : Nat) (halves : List HalfReq) : Option State :=
  let parts := orderParts (halves.map (s.decide1 p .write))
  let split := splitParts parts
  -- a command is cut at 64-word multiples; neighbouring regions that both pass do not cut it
  let parts := parts.map fun x => if x.fate == .pass then { x with region := none } else x
  let runs := runsOfParts parts
  let good := (runs.filter fun r => (r.head?.map fun x => x.fate == .pass).getD false).length
  let write := s.nextId
  if s.postedFull p (max good 1) then none
  else
    let s0 : State := match parts.find? fun x => x.fate == .refused with
      | some x => s.refusePart p split false .write x
      | none => s
    some (runs.foldl (fun s r =>
      match r with
      | [] => s
      | x :: _ =>
        if x.fate == .pass then
          let (id, s) := s.newId
          let c : ColCmd := {
            op := if r.length = 1 then .wr else .wrb, window := x.window, seg := x.seg, drop := x.drop, swap := x.swap,
            addr := x.word, len := r.length, data := r.map (·.data), halves := [], fill := false }
          let it : Item := { id := id, arrival := s.tick, cmds := [c], issued := false, retries := 0, read := none, atomic := none,
                             epoch := (s.pair p).epoch, windows := [x.window], write := write, captured := parts.any fun y => y.fate == .refused }
          (s.spoilReads p x.seg x.drop).addItem p it
        else s.journal p (x.journal x.fate.cause r.length 0 false)) s0)

/-- Failure records of the parts of a read that do not pass. -/
def partFails (l : List Part) : List FailRec :=
  ((runsOfParts l).filterMap List.head?).filterMap fun x =>
    if x.fate == .pass then none
    else some { key := x.half, cause := x.fate.cause, nak := 0, window := x.window, addr := x.word }

/-- How one window answers its parts of a read: halves from the read-ahead buffer, the commands for blocks or for runs of words, and the
buffer words it gives up (R187, R204). -/
def State.readWindow (s : State) (p i : Nat) (l : List Part) : List (Nat × W16) × List ColCmd × List (Nat × List Nat) :=
  match s.win p i with
  | none => ([], (runsOfParts l).filterMap readCmd, [])
  | some w =>
    let buf : List (Nat × W16) := (w.ahead.map (·.words)).getD []
    if s.readsAhead w && l.all fun x => buf.any fun e => e.1 == x.word then
      (l.map fun x => (x.half, halfOf x.swap (wordAt buf x.word)), [], [(i, l.map (·.word))])
    else if s.readsAhead w then ([], blockCmds l, [])
    else ([], (runsOfParts l).filterMap readCmd, [])

/-- Accept a host read of BAR2 (R184, R187, R203, R204); none while the non-posted buffer cannot take it. -/
def State.acceptRead (s : State) (p off dwords tag : Nat) (halves : List HalfReq) : Option State :=
  let parts := orderParts (halves.map (s.decide1 p .read))
  if s.nonPostedFull p then none
  else if parts.all fun x => x.fate == .noWindow then
    let f : FailRec := { key := 0, cause := causeNoWindow, nak := 0, window := 0, addr := (halves.head?.map (·.half)).getD (off / 4 * 2) }
    some ((s.recordReadErr p f).emit (.cpl p tag .ur false []))
  else
    let s : State := match parts.find? fun x => x.fate == .refused with
      | some x => s.refusePart p (splitParts parts) false .read x
      | none => s
    let good := (parts.filter fun x => x.fate == .pass).map fun x => { x with region := none }
    let ws := (good.map (·.window)).dedup
    let per := ws.map fun i => s.readWindow p i (good.filter fun x => x.window == i)
    let s := (per.flatMap fun x => x.2.2).foldl (fun s x => s.onWin p x.1 fun w =>
      { w with ahead := w.ahead.map fun a => { a with words := a.words.filter fun e => !x.2.contains e.1 } }) s
    let r : ReadReq := { off := off, dwords := dwords, tag := tag, got := per.flatMap (·.1), fails := partFails parts }
    let (id, s) := s.newId
    let it : Item := { id := id, arrival := s.tick, cmds := per.flatMap fun x => x.2.1, issued := false, retries := 0, read := some r,
                       atomic := none, epoch := (s.pair p).epoch, windows := ws, write := id, captured := parts.any fun y => y.fate == .refused }
    some ((s.addItem p it).settleItem p id)

/-- Accept an AtomicOp in BAR2 (R127, R184, R211). -/
def State.acceptAtomic (s : State) (p off : Nat) (kind : AtomicKind) (bytes operand compare tag : Nat) : Option State :=
  let halves := requestHalves off (bytes / 4) [] 15 15
  let parts := orderParts (halves.map (s.decide1 p .locked))
  if s.nonPostedFull p then none
  else
    let ca := fun (s : State) (x : Part) =>
      let f : FailRec := { key := x.half, cause := x.fate.cause, nak := 0, window := x.window, addr := x.word }
      ((s.recordReadErr p f).countFail p f).emit (.cpl p tag (if x.fate == .noWindow then .ur else .ca) false [])
    match parts.find? fun x => x.fate != .pass, parts.head? with
    | some x, _ =>
      let s : State := match parts.find? fun y => y.fate == .refused with
        | some y => s.refusePart p (splitParts parts) false .locked y
        | none => s
      some (ca s x)
    | none, none => some s
    | none, some x =>
      let s := s.spoilReads p x.seg x.drop
      let (id, s) := s.newId
      let a : AtomicRun := {
        kind := kind, n := bytes / 2, operand := operand, compare := compare, tag := tag, step := 0, window := x.window,
        seg := x.seg, drop := x.drop, swap := x.swap, addr := x.word, got := [], fail := none }
      let it : Item := { id := id, arrival := s.tick, cmds := [], issued := false, retries := 0, read := none, atomic := some a,
                         epoch := (s.pair p).epoch, windows := [x.window], write := id }
      some (((s.addItem p it).onBridge p fun b => { b with semWaiting := b.semWaiting ++ [.atomic id] }).grantSem p)

/-! ### Read data (R187, R204) -/

/-- The head command of an item is answered with data: a read takes its halves, the rest of a block stays in the buffer (R204). -/
def State.readData (s : State) (p id : Nat) (ws : List W16) (destructive : Bool) : State :=
  match s.item p id with
  | none => s
  | some it =>
    match it.cmds with
    | [] => s
    | c :: rest =>
      let s : State := match it.atomic, it.read with
        | some a, _ =>
          let base := c.addr - a.addr
          let got : List (Nat × W16) := ws.zipIdx.map fun w => (base + w.2, w.1)
          s.onItem p id fun i => { i with atomic := some { a with got := a.got ++ got } }
        | none, some r =>
          let got : List (Nat × W16) := (c.halves.zip ws).filterMap fun x => x.1.map fun h => (h, halfOf c.swap x.2)
          s.onItem p id fun i => { i with read := some { r with got := r.got ++ got, parts := r.parts + 1 } }
        | none, none => s
      let s : State :=
        let kept := (c.halves.zip ws).zipIdx.filterMap fun x => if x.1.1.isSome then none else some (c.addr + x.2, x.1.2)
        match s.win p c.window with
        | none => s
        | some w =>
          let s := if c.fill then s.invalidate p c.window else s
          if c.fill && w.state == .enabled && s.readsAhead w then
            s.onWin p c.window fun w => { w with ahead := some { words := kept, destructive := destructive, tick := s.tick } }
          else if destructive && !kept.isEmpty then (s.onWin p c.window fun w => { w with discard := true }).signalUnit p 16
          else s
      (s.onItem p id fun i => { i with cmds := rest, issued := false, retries := 0 }).settleItem p id

/-- The head command of an item is acknowledged. -/
def State.ackHead (s : State) (p id : Nat) : State :=
  (s.onItem p id fun i => { i with cmds := i.cmds.drop 1, issued := false, retries := 0 }).settleItem p id

end Sys2Proof.Machine
end

