-- ==== Sys2Proof/Machine/FaultOps.lean ====
section
/-! DEFINITION. Error windows (R451, R452), retirement of drops, segments and cores (R231, R274, R453–R455), segment causes (R444), a drop's
mode on record (R88, R205, R206, R233), failed streams (R288). -/

namespace Sys2Proof.Machine

/-! ### Errors (R451) -/

/-- One more error in the present bucket; buckets no window can reach are dropped. -/
def State.addError (s : State) (cls i : Nat) : State :=
  let b := s.bucketNow cls
  let old := (tblGet [] s.flt.windows (windowKey cls i)).filter fun x => decide (b ≤ x.1 + 8 * 8191 * 1000000)
  let new := match old with
    | (t, n) :: rest => if t = b then (t, n + 1) :: rest else (b, 1) :: (t, n) :: rest
    | [] => [(b, 1)]
  s.onFlt fun f => { f with windows := tblSet [] f.windows (windowKey cls i) new }

/-- An error enters its channel's window, the trace buffer and the logs (R451, R460, R462). -/
def State.noteError (s : State) (cls i : Nat) : State :=
  let s := s.addError cls i
  s.occur 3 cls i 0 (min (s.windowCount cls i) 65535) (s.errorParts cls i)

def State.clearWindow (s : State) (cls i : Nat) : State := s.onFlt fun f => { f with windows := tblSet [] f.windows (windowKey cls i) [] }

/-! ### Streams (R288) -/

/-- A stream goes to FAILED, its status source signals and a feed waiting for its input space is aborted (R288, R505). -/
def State.failStream (s : State) (slot reason : Nat) : State :=
  ((s.onStream slot fun x => { x with state := .failed, failReason := reason }).signal (2048 + 2 * slot)).abortFeeds slot

/-- Reassign one stream by R271, or fail it (R274). -/
def State.reassign (s : State) (slot : Nat) : State :=
  match s.stream slot with
  | none => s
  | some x =>
    let low := bitOf x.flags 0
    match (s.onStream slot fun x => { x with coreList := [] }).place x.q low with
    | some l => s.onStream slot fun x => { x with coreList := l, firstCore := l.headD 0, cores := l.length }
    | none => (s.onStream slot fun x => { x with coreList := [] }).failStream slot 0x05

/-- A stream that runs again with a retired core in its group, or with none left, is given cores anew, or fails (R274, R455, R457, log entry
129). -/
def State.recoverStream (s : State) (slot : Nat) : State :=
  if (s.stream slot).any fun x => x.coreList.isEmpty || x.coreList.any fun n => (s.core n).retired then s.reassign slot else s

/-! ### A drop's mode on record (R88, R205, R206) -/

/-- Prefetching into a drop stops or resumes with its mode (R206). -/
def State.suspendPrefetch (s : State) (g : Nat) : State :=
  let c2 := (s.drop g).colant2
  (List.range 8).foldl (fun s p => s.onBridge p fun b =>
    { b with windows := tblMap (fun _ w =>
        if !w.guest && w.prefetch && !w.force && w.seg * 32 + w.drop == g then { w with pfSuspended := !c2 } else w) b.windows }) s

/-- Segment i's control or Retriever slot under way, where it carries IDLE. -/
def State.idleNow (s : State) (i : Nat) : Bool :=
  let off := (s.tick - (s.seg i).cycleTick) * 6 / 5
  match (s.seg i).region with
  | .slot k => (slotsOf (s.seg i).calendar).any fun e => e.idx == k && (e.kind == 3 || e.kind == 5) && decide (off < e.finish) && s.slotIdle i e
  | .openTime => false

/-- The mode on record changes: Whistle entries are derived again if the segment becomes or ceases to be mixed, the drop's read-ahead
buffers are invalidated; a slot under way that can no longer carry its traffic signals (R88, R205, R206, R230, R233). -/
def State.setMode (s : State) (g : Nat) (c2 : Bool) : State :=
  if (s.drop g).colant2 == c2 then s
  else
    let t := ((s.remix (g / 32) fun s => s.onDrop g fun d => { d with colant2 := c2, c2Silent := 0 }).invalidateDrop g).suspendPrefetch g
    if t.idleNow (g / 32) && !s.idleNow (g / 32) then t.signalSeg (g / 32) 0 else t

/-- All tiles of a drop are marked UNKNOWN, for one cause of R334, which WAF_DROP_REFRESH.COUNT counts. -/
def State.markUnknown (s : State) (g : Nat) : State :=
  let p := s.panel g
  s.onWaf g fun w => { w with unknown := List.range (p.tw * p.nb), refreshCount := satInc w.refreshCount }

/-- Some tiles are marked UNKNOWN, for one cause of R334. -/
def State.markTiles (s : State) (g : Nat) (tiles : List Nat) : State :=
  s.onWaf g fun w => { w with unknown := tiles.foldl insertAsc w.unknown, refreshCount := satInc w.refreshCount }

/-! ### Retirement (R231, R453–R455) -/

/-- A drop number's entries become idle at the first boundary at least 200 µs later (R231). -/
def State.idleEntries (s : State) (i n : Nat) : State :=
  let due := s.swapInstant i
  s.onSeg i fun x =>
    { x with
      vendor := x.vendor ++ [{ due := due, idle := some n, mixed := s.mixed i }],
      staged := tblMap (fun _ t =>
        if t.state == .pending && t.due == due then { t with changes := tblMap (fun k e => if (entrySlot k e).drop = n then 0 else e) t.changes } else t) x.staged }

/-- The service port's access to a drop of a segment is given up: the operation ends REFUSED (R487, log entry 33). -/
def State.endService (s : State) (i : Nat) (f : Nat → Bool) : State :=
  if (s.seg i).hk.any fun h => h.who == .service && f h.drop then
    ((s.onSeg i fun x => { x with hk := x.hk.filter fun h => !(h.who == .service && f h.drop) }).onPlant fun x =>
      { x with svcBusy := false }).emit (.service .refused [])
  else s

/-- A drop is retired (R453). -/
def State.retireDrop (s : State) (g : Nat) : State :=
  if (s.drop g).state == .retired then s
  else
    let n := s.windowCount 4 g
    let s := s.onDrop g fun d =>
      { d with state := .retired, activeAt := none, tlmDue := none, expected := [], passes := [], restoring := false, tlmLater := none }
    let s := (s.setLive (0x080 + g) true).stick (0x080 + g) (BitVec.ofNat 32 g)
    let s := (s.occurRetire (0x080 + g) (BitVec.ofNat 32 g) n).idleEntries (g / 32) (g % 32)
    let s := (s.signalSeg (g / 32) 2).invalidateDrop g
    let s := (s.endService (g / 32) fun n => n == g % 32).onSeg (g / 32) fun x => { x with hk := x.hk.filter fun h => h.drop != g % 32 }
    let s : State := { s with waf := { s.waf with released := s.waf.released.filter fun j => j.1 != g } }
    (s.failNoDropAll fun i d => i * 32 + d == g).updateTakeover

/-- A guest tenure ends as under FREEZE: its pending command counts as failed (R101). -/
def State.dropTenure (s : State) (i : Nat) : State :=
  match (s.seg i).tenure with
  | none => s
  | some t =>
    let s := s.onSeg i fun x => { x with tenure := none }
    s.onBridge t.part fun b => { b with semWaiting := b.semWaiting.filter (· != .guest i) }

/-- A segment cause ends. -/
def State.endCause (s : State) (i k : Nat) : State :=
  let s := s.onSeg i fun x => { x with causes := x.causes &&& ~~~(BitVec.ofNat 4 (2 ^ (k - 1))) }
  s.setLive (0x040 + i) ((s.seg i).causes != 0)

/-- A drop of the segment has answered a command: NO_ANSWER ends (R444). -/
def State.answered (s : State) (i : Nat) : State :=
  if (s.seg i).causes.getLsbD 1 then (s.endCause i 2).onSeg i fun x => { x with noAnswerTick := none } else s

/-- The segment's clock stops: whatever is on the wires is lost, and with it the stray-attention condition (R115, R444, R454). -/
def State.stopClock (s : State) (i : Nat) : State :=
  let s := (s.dropTenure i).endCause i 3
  (s.onSeg i fun x =>
    { x with clk := false, clkStopTick := some s.tick, tx := none, whistleEnd := none, region := .openTime, run := none, rtvIn := [], stats := [], rate2 := false,
             attn := false, zeroSince := none, stray := none, roundTick := none, syncNs := none, syncNow := false, freezeDue := false, started := false,
             wordsEnd := 0,
             arb := { x.arb with holder := 0x1F, usedW2 := 0, holderLimit := 0, last := false, next := none, nextLimit := 0, tail := none } }).emit (.clkStop i)

/-- The command of a bridge item that was on a segment's wires when its clock stopped fails with a cause. -/
def State.failIssued (s : State) (i cause : Nat) : State :=
  match (s.seg i).tx with
  | some t =>
    match t.who with
    | .bridge p id => (s.onSeg i fun x => { x with tx := none }).failHead p id cause 0
    | .service => ((s.onSeg i fun x => { x with tx := none }).onPlant fun x => { x with svcBusy := false }).emit (.service .refused [])
    | _ => s.onSeg i fun x => { x with tx := none }
  | none => s

/-- A segment is retired (R454): its drops read RETIRED, and their DROP faults are live with it (R169, R444); cause RETIRED counts in its window
(R452, log entry 138). -/
def State.retireSegment (s : State) (i : Nat) : State :=
  if (s.seg i).retired then s
  else
    let n := s.windowCount 3 i
    let s := (s.noteError 3 i).onSeg i fun x => { x with retired := true, causes := x.causes ||| 8#4 }
    let s := (s.setLive (0x040 + i) true).stick (0x040 + i) 4
    let s := s.occurRetire (0x040 + i) 4 n
    let s := (s.segDrops i).foldl (fun s g => (s.setLive (0x080 + g) true).onDrop g fun d => { d with passes := [] }) s
    let s := ((s.endService i fun _ => true).failIssued i causeNoDrop).stopClock i
    let s := s.onSeg i fun x => { x with calendar := [], staged := [], vendor := [], whistled := false, hk := [], noAnswerTick := none }
    let s := (s.segDrops i).foldl (fun s g => s.invalidateDrop g) s
    ((s.failNoDropAll fun j _ => j == i).signalSeg i 2).updateTakeover

/-- A core is retired; its streams are reassigned in ascending unit slot (R274, R455). -/
def State.retireCore (s : State) (n slot : Nat) : State :=
  if (s.core n).retired then s
  else
    let k := s.windowCount 2 n
    let s := s.onCore n fun c => { c with retired := true }
    let s := (s.setLive (0x020 + n) true).stick (0x020 + n) (BitVec.ofNat 32 slot)
    let s := s.occurRetire (0x020 + n) (BitVec.ofNat 32 slot) k
    s.fairly (((s.streams.filter fun e => e.2.coreList.contains n).map (·.1)).foldl (fun s i => s.reassign i) s)

/-- A stream's window reaches its threshold: an ERROR record with THRESH_HIT, and the window restarts at 0 (R451). -/
def State.threshHit (s : State) (slot n : Nat) : State :=
  let ps := s.errorParts 5 slot
  let l : LogRec := { type := 3, cls := 5, index := slot, threshHit := true, time := s.now, count := 1, detail := 0, window := n, part := ps.headD 0 }
  ((s.traceRec l).decideRec l ps).clearWindow 5 slot

/-- An error counts in its channel's window; at the threshold the channel is retired, or a stream reports (R451, R452). slot is the unit
slot of a core's upset. -/
def State.countError (s : State) (cls i : Nat) (slot : Nat := 0) : State :=
  let s := s.noteError cls i
  let n := s.windowCount cls i
  if (s.flt.winCfg cls).thresh ≠ 0 ∧ n = (s.flt.winCfg cls).thresh then
    match cls with
    | 2 => s.retireCore i slot
    | 3 => s.retireSegment i
    | 4 => s.retireDrop i
    | _ => s.threshHit i n
  else s

/-- A retry enters the trace buffer (R462): the spec gives it no record type, so it is an ERROR entry with COUNT 0 (log entry 23). -/
def State.traceRetry (s : State) (cls i : Nat) : State :=
  s.traceRec { type := 3, cls := cls, index := i, threshHit := false, time := s.now, count := 0, detail := 0, window := 0,
               part := (s.errorParts cls i).headD 0 }

/-! ### Segment causes (R444) -/

/-- Segment cause k (1–4) arises: its live bit, the SEGMENT fault and one error of the segment's window (R444, R452). -/
def State.segCause (s : State) (i k : Nat) : State :=
  if (s.seg i).causes.getLsbD (k - 1) then s
  else
    let s := s.onSeg i fun x => { x with causes := x.causes ||| BitVec.ofNat 4 (2 ^ (k - 1)) }
    ((s.setLive (0x040 + i) true).raise (0x040 + i) (BitVec.ofNat 32 k)).countError 3 i

end Sys2Proof.Machine
end

