-- ==== Sys2Proof/Machine/Latch.lean ====
section
/-! DEFINITION. What a compose pass latches at its compose instant (R296): the entries of gate lists (R239, R242), frames (R15), images (R301),
fallback content (R474–R478), calibration (R325); and the rule that a command which completes in the tick of a compose instant comes after
it. -/

namespace Sys2Proof.Machine

def State.image (s : State) (p k : Nat) : Option HostImage := tblFind (s.part p).images k

def State.onCanvas (s : State) (k : Nat) (f : Canvas → Canvas) : State :=
  match tblFind s.canvases k with
  | some c => { s with canvases := tblPut s.canvases k (f c) }
  | none => s

/-! ### Gate lists (R239, R242) -/

/-- E of entry k of repetition m: the sum is exact (R239). -/
def GateList.at_ (g : GateList) (m : Nat) (e : GateEntry) : Nat := g.base + m * g.cycle + e.offset

/-- The last fall of each entry after instant t0 and up to t, as (E, entry) (R239). -/
def GateList.falls (g : GateList) (t0 : Option Nat) (t : Nat) : List (Nat × GateEntry) :=
  if g.state = .idle then []
  else g.entries.filterMap fun x =>
    let first := g.base + x.2.offset
    if t < first then none
    else
      let e := first + (t - first) / g.cycle * g.cycle
      if (t0.map fun a => decide (a < e)).getD true then some (e, x.2) else none

/-- Insert by E; what stands already at the same E stays in front. -/
def insertFall (l : List (Nat × GateEntry)) (x : Nat × GateEntry) : List (Nat × GateEntry) :=
  match l with
  | [] => [x]
  | y :: rest => if x.1 < y.1 then x :: y :: rest else y :: insertFall rest x

/-- The entries that act on presentation instant t of the drops gs since their last pass, in the order of the instants they fall due for;
for one instant by list in ascending index, so that the higher index comes last, and in order of E within a list (R239, R242). -/
def State.gateFalls (s : State) (key t : Nat) (gs : List Nat) : List GateEntry :=
  let i := gs.headD 0 / 32
  let ofList := fun (l : Nat × GateList) =>
    if gs.any l.2.group.contains then
      ((l.2.falls (tblFind l.2.applied key) t).foldl insertFall []).map fun x => (s.instantFrom i x.1, x.2)
    else []
  ((s.gates.flatMap ofList).foldl insertFall []).map (·.2)

/-- What a gate-list entry changes (R238): BRIGHT alone, or PAGE and LAYERS. -/
def Surface.gate (f : Surface) (bright : Bool) (e : GateEntry) : Surface :=
  if e.action = 3 then (if bright then { f with bright := BitVec.ofNat 8 e.value } else f)
  else if bright then f
  else if e.action = 2 then { f with layerEn := BitVec.ofNat 4 e.value }
  else
    let sh := 4 * e.target
    { f with sel := BitVec.ofNat 16 (f.sel.toNat - field f.sel.toNat (sh + 3) sh * 2 ^ sh + e.value * 2 ^ sh) }

/-- The lists of the drops gs have been consulted for instant t under a key; what a step of unit time lets come again is not consulted again
(R62). -/
def State.gatesTaken (s : State) (key t : Nat) (gs : List Nat) : State :=
  { s with gates := tblMap (fun _ l => if gs.any l.group.contains then { l with applied := tblPut l.applied key (max t (tblGet 0 l.applied key)) } else l) s.gates }

/-! ### Frames (R15, R283, R284) -/

/-- The selected page of layer l, if bound (R292). -/
def Surface.page (f : Surface) (l : Nat) : Option Page := tblFind f.pages (l * 16 + field f.sel.toNat (4 * l + 3) (4 * l))

/-- A layer of the surface is fed by stream k: its selected page is bound to it. -/
def Surface.fedBy (f : Surface) (k : Nat) : Bool :=
  (List.range 4).any fun l => (f.page l).any fun x => x.source == .stream && x.srcIndex == k && !x.gone

def State.cycleNs (s : State) (i : Nat) : Nat := s.cycleUs i * 1000

/-- The presentation instant whose compose instant T − c − 2 ms has been reached last. -/
def State.composeT (s : State) (i : Nat) : Nat := s.instantAfter i (s.now + s.cycleNs i + 2000000) - s.cycleNs i

/-- K of the compose instant reached last. -/
def State.composeK (s : State) (i : Nat) : Nat := s.composeT i - s.cycleNs i - 2000000

/-- A cycle of segment i ends at presentation instant t: the cycle in progress, or one after it; after a step of unit time the next one starts
at the first boundary at or after the end of the cycle in progress (R62). -/
def State.cycleEndsAt (s : State) (i t : Nat) : Bool :=
  let x := s.seg i
  !x.started || t == x.endNs || decide (s.instantFrom i x.endNs + s.cycleNs i ≤ t)

/-- A drop's surface is composed: enumerated, not RETIRED, with a picture slot in the cycle that will carry the picture, as decided by now
(R173, R297). -/
def State.composed (s : State) (g : Nat) : Bool :=
  let i := g / 32
  s.composes g && (slotsOf ((s.seg i).calendarAt (s.composeT i - s.cycleNs i)).1).any fun e => e.drop == g % 32 && (e.kind == 1 || e.kind == 2)

/-- The newest of frames with a PTS at or before t; of equal ones the later available. -/
def newestFrame (l : List Frame) (t : Nat) : Option Frame :=
  (l.filter fun f => decide (f.pts ≤ t)).foldl (fun a f =>
    match a with
    | none => some f
    | some b => if b.pts ≤ f.pts then some f else some b) none

/-- The frame a stream layer takes at its compose instant, available before it in an earlier tick (R15). -/
def State.frameFor (s : State) (p : Nat) (x : Page) (last : Option Frame) (t : Nat) : Option Frame :=
  if x.gone then last
  else
    match (s.slotOf p x.srcIndex).bind s.stream with
    | none => last
    | some st => (newestFrame (st.avail.filter fun f => decide (f.availTick < s.tick)) t).or last

def State.markChosen (s : State) (p idx uid : Nat) : State :=
  match s.slotOf p idx with
  | none => s
  | some slot => s.onStream slot fun x => { x with avail := x.avail.map fun f => if f.uid = uid then { f with chosen := true } else f }

/-- Frames chosen for the layers of a surface (R15, R296). -/
def State.chooseFrames (s : State) (p : Nat) (f : Surface) (last : Tbl Frame) (t : Nat) : State × List (Nat × Frame) :=
  (List.range 4).foldl (fun (a : State × List (Nat × Frame)) l =>
    match f.page l with
    | some x =>
      if x.source = .stream then
        match a.1.frameFor p x (tblFind last l) t with
        | some fr => (a.1.markChosen p x.srcIndex fr.uid, a.2 ++ [(l, fr)])
        | none => a
      else a
    | none => a) (s, [])

/-- The visible versions of the images a surface shows; a gone image is drawn as empty (R296, R302). -/
def State.chooseImages (s : State) (p : Nat) (f : Surface) : List (Nat × Image) :=
  (List.range 4).filterMap fun l =>
    match f.page l with
    | some x =>
      if x.source = .image ∧ x.gone = false then
        (s.image p x.srcIndex).map fun i => (l, { format := i.format, colour := i.colour, width := i.width, height := i.height, pixels := i.visible })
      else none
    | none => none

/-- The images a surface shows, by their numbers. -/
def State.imageIds (s : State) (p : Nat) (f : Surface) : List Nat :=
  (List.range 4).filterMap fun l => (f.page l).bind fun x =>
    if x.source = .image ∧ x.gone = false then (s.image p x.srcIndex).map (·.uid) else none

/-- Completed pending copies become visible at a compose instant of their partition (R301). -/
def State.publishImages (s : State) (p : Nat) : State :=
  s.onPart p fun x =>
    { x with images := tblMap (fun _ i =>
        if i.completed then { i with visible := i.pending.getD i.visible, pending := none, completed := false } else i) x.images }

/-! ### Fallback content (R473–R478) -/

/-- A customer core supplies output for a drop (R475). -/
def State.supplies (s : State) (g : Nat) : Bool :=
  match s.servedBy g with
  | none => false
  | some c => (s.cust c).state == .running && (s.drop g).fb.published

/-- A queued publication is taken at K: the halves swap, and source 6 signals; the picture is what the firmware has drawn. That of a RETIRED drop
stays queued (R474). -/
def State.takePublication (s : State) (g : Nat) : State :=
  let d := s.drop g
  match s.servedBy g with
  | none => s
  | some c =>
    if !d.fb.queued || s.dropState g == .retired || decide (s.tick ≤ d.fb.queuedTick) then s
    else
      let k := s.draw
      let drawn := (List.range (d.width * d.height)).map (Config.customerPixel k.1)
      (k.2.onDrop g fun d => { d with fb := { d.fb with
        visible := drawn, pendingHalf := d.fb.visible, queued := false, pendingBuf := !d.fb.pendingBuf, published := true } }).signalPriv (c + 2) 6

/-- The standby page of a drop, if the library holds it (R478). -/
def State.standby (s : State) (g : Nat) : Option Image :=
  let n := (tblGet (0x100 : BitVec 9) s.map.page g).toNat
  if n = 0x100 then none else tblFind s.boot.cache n

/-- The choice of fallback content for a drop (R476). -/
def State.fallbackImage (s : State) (g : Nat) : Option Image :=
  let d := s.drop g
  match s.owner g, s.servedBy g with
  | some p, some c =>
    if (s.part p).fallback && s.supplies g then
      some { format := if (s.cust c).fbFormat then 2 else 1, colour := 7, width := d.width, height := d.height, pixels := d.fb.visible }
    else s.standby g
  | _, _ => s.standby g

/-! ### COMPOSE_INSTANT (R296) -/

/-- A calibration change that completed before K takes effect, on a RETIRED drop only after its restore; the drop's tiles are UNKNOWN (R325, R334,
R492). -/
def State.takeCal (s : State) (g : Nat) : State :=
  match (s.drop g).calNext with
  | none => s
  | some c => if s.dropState g == .retired then s else (s.onDrop g fun d => { d with calNow := c, calNext := none }).markUnknown g

/-- What a pass latches of a surface and its sources: entries of gate lists that act on T, frames and images. BRIGHT entries act on drops,
the others on the surface or canvas (R239, R296, R304). -/
def State.latchLayers (s : State) (p key t : Nat) (gs : List Nat) (f : Surface) (last : Tbl Frame) : State × Surface × List (Nat × Frame) × List (Nat × Image) :=
  let f := (s.gateFalls key t gs).foldl (fun f e => f.gate false e) f
  let s := s.publishImages p
  let c := s.chooseFrames p f last t
  (c.1, f, c.2, c.1.chooseImages p f)

/-- The members of a canvas that its passes compose. -/
def Canvas.drops (c : Canvas) : List Nat := c.members.map (·.1)

/-- A canvas latches once for each T, at its first member's compose instant (R304). -/
def State.latchCanvas (s : State) (k t : Nat) : State :=
  match tblFind s.canvases k with
  | none => s
  | some c =>
    if (c.latched.map (·.tNs)) == some t then s
    else
      let gs := c.drops.filter fun g => s.dropState g != .retired
      let l := s.latchLayers c.part (2048 + k) t gs c.surface c.lastFrames
      let s := l.1.gatesTaken (2048 + k) t gs
      s.onCanvas k fun c =>
        { c with surface := l.2.1, lastFrames := l.2.2.1.foldl (fun m x => tblPut m x.1 x.2) c.lastFrames,
                 latched := some { kNs := s.composeK (gs.headD 0 / 32), tNs := t, surface := l.2.1, frames := l.2.2.1, images := l.2.2.2,
                                   imageIds := l.1.imageIds c.part l.2.1, size := (c.width, c.height), origin := (0, 0), fbImage := none, cal := defaultCal 0 0 1 } }

/-- The own layers of a drop, latched for T: its surface, or its rectangle of the canvas. -/
def State.latchDrop (s : State) (g t : Nat) : State × Pass :=
  let d := s.drop g
  let p := (s.owner g).getD 8
  let bright := fun (s : State) (f : Surface) => (s.gateFalls g t [g]).foldl (fun f e => f.gate true e) f
  match d.canvas.bind (tblFind s.canvases) with
  | some c =>
    let k := d.canvas.getD 0
    let s := s.latchCanvas k t
    let own := bright s d.surface
    let s := (s.onSurf g fun _ => own).gatesTaken g t [g]
    let at_ := ((c.members.find? fun m => m.1 == g).map (·.2)).getD (0, 0)
    match (tblFind s.canvases k).bind (·.latched) with
    | some x => (s, { x with kNs := s.composeK (g / 32), surface := { x.surface with bright := own.bright }, origin := at_, cal := d.calSet })
    | none => (s, { kNs := s.composeK (g / 32), tNs := t, surface := own, frames := [], images := [], imageIds := [], size := (d.width, d.height),
                    origin := (0, 0), fbImage := none, cal := d.calSet })
  | none =>
    let l := s.latchLayers p g t [g] d.surface d.lastFrames
    let own := bright l.1 l.2.1
    let s := (l.1.onDrop g fun d =>
      { d with surface := own, lastFrames := l.2.2.1.foldl (fun m x => tblPut m x.1 x.2) d.lastFrames }).gatesTaken g t [g]
    (s, { kNs := s.composeK (g / 32), tNs := t, surface := own, frames := l.2.2.1, images := l.2.2.2, imageIds := s.imageIds p own, size := (d.width, d.height),
          origin := (0, 0), fbImage := none, cal := d.calSet })

/-- A drop that no pass composes has met the entries that fall due up to its last compose instant: a command on its surface comes after them
(R242). -/
def State.settleGates (s : State) (g : Nat) : State :=
  if s.composed g then s
  else
    let t := s.composeT (g / 32)
    let own := (s.drop g).canvas.isNone
    let act := fun (f : Surface) e => (if own then f.gate false e else f).gate true e
    (s.onSurf g fun f => (s.gateFalls g t [g]).foldl act f).gatesTaken g t [g]

/-- The same for a canvas none of whose members is composed. -/
def State.settleCanvas (s : State) (k : Nat) (c : Canvas) : State :=
  let gs := c.drops.filter fun g => s.dropState g != .retired
  if gs.isEmpty || c.drops.any s.composed then s
  else
    let t := s.composeT (gs.headD 0 / 32)
    (s.onCanvas k fun c => { c with surface := (s.gateFalls (2048 + k) t gs).foldl (fun f e => f.gate false e) c.surface }).gatesTaken (2048 + k) t gs

/-! ### Release of frames (R283, R284) -/

/-- For each surface a stream feeds, the instant of the latest pass begun for it and the frames its layers used last. -/
def State.feeds (s : State) (x : Stream) : List (Option Nat × Tbl Frame) :=
  (((s.liveDropsOf x.part).filter fun g => (s.drop g).canvas.isNone && s.composed g && (s.drop g).surface.fedBy x.index).map
      fun g => ((s.drop g).lastT, (s.drop g).lastFrames))
    ++ ((s.canvases.filter fun c => c.2.part == x.part && c.2.surface.fedBy x.index
          && (c.2.members.any fun m => s.composed m.1)).map fun c => (c.2.latched.map (·.tNs), c.2.lastFrames))

/-- A pass begun and not ended reads the frame. -/
def State.readByPass (s : State) (uid : Nat) : Bool := s.drops.any fun e => e.2.passes.any fun p => p.frames.any fun f => f.2.uid == uid

/-- Release the frames R283 lets go; those never chosen count in UNUSED (R284). -/
def State.releaseFrames (s : State) (slot : Nat) : State :=
  match s.stream slot with
  | none => s
  | some x =>
    let feeds := s.feeds x
    let keep := fun (f : Frame) =>
      x.refs.any (fun y => y.uid == f.uid) || s.readByPass f.uid || feeds.any (fun e => e.2.any fun y => y.2.uid == f.uid)
        || !(x.avail.any fun n => decide (f.pts < n.pts) && feeds.all fun e => e.1.any fun t => decide (n.pts ≤ t))
    let gone := x.avail.filter fun f => !keep f
    s.onStream slot fun x =>
      { x with avail := x.avail.filter keep, unused := satAdd x.unused (gone.filter fun f => !f.chosen).length }

def State.releaseAll (s : State) (p : Nat) : State := (s.streams.filter fun e => e.2.part == p).foldl (fun s e => s.releaseFrames e.1) s

/-! ### The latch -/

/-- The pass that begins at a compose instant of drop g: it latches its content and the choice of fallback content, made for every drop: one taken
over between K and its cycle's start shows it too. -/
def State.latchPass (s : State) (g : Nat) : State :=
  let t := s.composeT (g / 32)
  let l := s.latchDrop g t
  let s := l.1
  let pass : Pass := { l.2 with fbImage := s.fallbackImage g }
  let s := s.onDrop g fun d => { d with passes := d.passes ++ [pass], lastK := s.composeK (g / 32), lastT := some t, latchedSurface := pass.surface }
  s.releaseAll ((s.owner g).getD 8)

/-- The compose instant of drop g: the calibration, the publication and the images that completed before it are taken, whether or not a picture
slot carries the drop, and SUPPLYING follows the core (R296, R301, R325, R474, R479); a pass begins where its surface is composed. -/
def State.latchInstant (s : State) (g : Nat) : State :=
  let s := (s.takeCal g).takePublication g
  let s := (s.publishImages ((s.owner g).getD 8)).onDrop g fun d =>
    { d with instantT := some (s.composeT (g / 32)), fb := { d.fb with supplying := s.supplies g } }
  if s.composed g then s.latchPass g else s

/-- A compose instant of the drop has come that nothing has been latched at. -/
def State.instantDue (s : State) (g : Nat) : Bool :=
  let t := s.composeT (g / 32)
  (s.drop g).instantT != some t && s.cycleEndsAt (g / 32) t

/-- What changes after a compose instant, and in its own 10 ns tick, comes after it: the instants of drops gs that have come are latched as they
are before the change, whenever their own events come (R296). -/
def State.composeDue (s : State) (gs : List Nat) : State := gs.foldl (fun s g => if s.instantDue g then s.latchInstant g else s) s

/-- The same for a change in partition p, which may act on any of its drops. -/
def State.composeFirst (s : State) (p : Nat) : State := s.composeDue (s.liveDropsOf p)

end Sys2Proof.Machine
end

