-- ==== Sys2Proof/Machine/Wire.lean ====
section
/-! DEFINITION. Colant words (R76–R82, R87), commands and responses (R81, R83–R86), transactions on a segment (R84, R88), costs (R244),
regions (R223), the segment arbiter (R243–R251) and shapers (R252–R255). -/

namespace Sys2Proof.Machine

/-! ### Responses (R77, R83–R86, R198) -/

/-- What came back for a transaction. -/
inductive Answer where
  | silent                                -- no valid header
  | busy (n : Nat)                        -- only BUSY words so far
  | nak (reason : Nat)
  | ack
  | rdata (ws : List W16) (destructive : Bool)
  | stat (w : W16)
  | mrsp (ws : List W16)
  | badParity
  | badCrc
  | badFormat
  deriving DecidableEq, Repr

/-- A BUSY word of the addressed drop: PARAM 0 and F = 0 (R84). -/
def isBusy (drop : Nat) (w : ColWord) : Bool :=
  goodWord w && w.c && headOp w.data == opBusy && headDrop w.data == drop && headParam w.data == 0 && !w.f

/-- A response after its BUSY words; a 257th is none (R84). -/
def afterBusy (drop : Nat) (ws : List ColWord) : List ColWord :=
  let n := (ws.takeWhile (isBusy drop)).length
  if 256 < n then [] else ws.drop n

/-- A NAK on which the drop has not acted: PARITY, CRC or LENGTH (R197). -/
def retryNak (n : Nat) : Bool := n == 1 || n == 2 || n == 5

/-- An answer that counts in the drop's error window, retries apart (R452). -/
def Answer.counts : Answer → Bool
  | .silent | .badParity | .badCrc | .badFormat => true
  | .nak n => retryNak n
  | _ => false

/-- The drop has answered a command. -/
def Answer.answered : Answer → Bool
  | .ack | .rdata .. | .stat _ | .mrsp _ | .nak _ => true
  | _ => false

/-- The drop's answer shows that it received the command good (R86, R102). -/
def Answer.refreshes (a : Answer) : Bool :=
  match a with
  | .nak n => !retryNak n
  | a => a.answered

/-- Judge a response after its BUSY words; lens are the numbers of data words that an RDATA may carry. -/
def judge (op drop : Nat) (lens : List Nat) (crc : Bool) (ws : List ColWord) : Answer :=
  match ws with
  | [] => .silent
  | h :: rest =>
    if !goodWord h || !h.c then .silent
    else if !rest.all goodWord then .badParity
    else
      let data := ws.map (·.data)
      let fOk := ws.zipIdx.all fun x => x.1.f == (x.2 + 1 == ws.length)
      if crc && decide (ws.length < 2) then .badFormat
      else if crc && (data.getLast?.getD 0) != crc16 data.dropLast then .badCrc
      else
        let body := if crc then data.dropLast.drop 1 else data.drop 1
        let k := headOp h.data
        if !fOk || headDrop h.data != drop || rest.any (fun w => w.c) then .badFormat
        else if k = opNak then (if body.isEmpty then .nak (headParam h.data) else .badFormat)
        else if op = opWr ∨ op = opWrb ∨ op = opUnlockwr then (if k = opAck ∧ body.isEmpty then .ack else .badFormat)
        else if op = opPoll then
          match body with
          | [w] => if k = opStat then .stat w else .badFormat
          | _ => .badFormat
        else if op = opMeasure then (if k = opMrsp then .mrsp body else .badFormat)
        else if k = opRdata ∧ lens.contains body.length then .rdata body (bitOf (headParam h.data) 5 && crc)
        else .badFormat

/-! ### Costs (R244) -/

/-- Predicted cost in words at the transaction's rate. -/
def costWords (op addr len : Nat) (data : List W16) (crc : Bool) (p : Nat) : Nat :=
  let c := b2n crc
  let req := (commandWords op 0 addr len data).length + c
  if answerLen op len = 0 then req
  else req + (answerLen op len + c) + 4 + (if crc then ceilDiv (6 * p) 25 else ceilDiv (3 * p) 25)

/-- In w2: a Colant-1 word counts as 2. -/
def costW2 (op addr len : Nat) (data : List W16) (crc : Bool) (p : Nat) : Nat :=
  (if crc then 1 else 2) * costWords op addr len data crc p

/-! ### Regions of a cycle (R223, R226) -/

/-- Offset of a tick in the cycle in progress, in w2: 6 w2 to 50 ns. -/
def State.offsetAt (s : State) (i tick : Nat) : Nat := (tick - (s.seg i).cycleTick) * 6 / 5

/-- Offset of the present instant in the cycle. -/
def State.offsetNow (s : State) (i : Nat) : Nat := s.offsetAt i s.tick

/-- The active slots of a segment, Whistle entries apart. -/
def State.slotsNow (s : State) (i : Nat) : List Slot := (slotsOf (s.seg i).calendar).filter fun x => x.kind != 6

def State.slotAt (s : State) (i k : Nat) : Option Slot := (slotsOf (s.seg i).calendar).find? fun x => x.idx == k

/-- An offset lies in a span. -/
def Slot.holds (x : Slot) (off : Nat) : Bool := decide (x.start ≤ off) && decide (off < x.finish)

/-- The slot whose words an offset lies in: the calendar has given them to it, begun or not (R19, R223). -/
def State.slotOver (s : State) (i off : Nat) : Option Slot := (s.slotsNow i).find? (·.holds off)

/-- An offset lies in the span of a Whistle entry. -/
def State.whistleOver (s : State) (i off : Nat) : Bool := (slotsOf (s.seg i).calendar).any fun x => x.kind == 6 && x.holds off

/-- Where the tail's transactions must have ended: 1 µs before T (R222). -/
def State.tailEnd (s : State) (i : Nat) : Nat := s.offsetNow i + ((s.seg i).endNs - 1000 - s.now) * 3 / 25

/-- Where open time at an offset ends: the next slot or Whistle start, the SYNC, or the tail's bound (R222). -/
def State.openEnd (s : State) (i off : Nat) : Nat :=
  let starts := ((slotsOf (s.seg i).calendar).map (·.start)).filter fun x => decide (off < x)
  let sync := s.cycS i
  (minNat? (starts ++ (if off < sync then [sync] else []))).getD (s.tailEnd i)

/-- A stretch of words open to arbitration: the offset from which a transaction would start in it, its end in w2, whether at Colant-2 rate,
and the control slot it is. -/
structure RegionNow where
  start : Nat
  finish : Nat
  colant2 : Bool
  control : Option Slot
  deriving DecidableEq, Repr

/-- A Whistle period is on the wires (R95). -/
def State.inWhistle (s : State) (i : Nat) : Bool :=
  match (s.seg i).whistleEnd with
  | some t => decide (s.tick < t)
  | none => false

/-- The region at an offset: the slot that holds it, or open time. -/
def State.region (s : State) (i : Nat) : Region :=
  match s.slotOver i (s.offsetNow i) with
  | some e => .slot e.idx
  | none => .openTime

/-- The rate of open time: the base rate; from a SYNC to its switch the SYNC's (R96, R224). -/
def State.tailRate (s : State) (i : Nat) : Bool := if (s.seg i).syncNs.isSome then (s.seg i).syncC2 else s.base2 i

/-- The region open to arbitration at an offset; none at the SYNC's words, inside other slots and idle ones, in a Whistle period between its
slots, in a tenure, or while no cycle runs. From FREEZE to RESUME no Whistle period is sent, so a mixed segment's Colant-2-rate slots stay
shut (R101, R223, R230, R232, R243). -/
def State.regionAt (s : State) (i off : Nat) : Option RegionNow :=
  let x := s.seg i
  let S := s.cycS i
  if !x.clk || x.retired || !x.started || x.tenure.isSome || (decide (S ≤ off) && decide (off < S + 6)) then none
  else
    match s.slotOver i off with
    | some e =>
      if e.kind = 3 ∧ s.slotIdle i e = false ∧ (x.frozen && s.mixed i && e.rate == 1) = false then
        some { start := off, finish := e.finish, colant2 := e.rate == 1, control := some e }
      else none
    | none =>
      if s.inWhistle i || s.whistleOver i off then none
      else some { start := off, finish := s.openEnd i off, colant2 := s.tailRate i, control := none }

/-- The offset from which the wires can take further words: the present one, or the end of the words they carry. -/
def State.wireOff (s : State) (i : Nat) : Nat := max (s.offsetNow i) (s.seg i).wordsEnd

/-- The wires carry words whose end is still to come. -/
def State.wordsOut (s : State) (i : Nat) : Bool := decide (s.offsetNow i < (s.seg i).wordsEnd)

/-- The region open to arbitration now, after the words that the wires carry. -/
def State.regionNow (s : State) (i : Nat) : Option RegionNow := s.regionAt i (s.wireOff i)

/-- A link-hold point has been reached whose window is still to be sent; points from S − 72 on merge into the next window 0 (R234, R235). -/
def State.holdDue (s : State) (i : Nat) : Bool :=
  let x := s.seg i
  let p := x.linkHold * 120000
  x.started && decide (1 ≤ x.linkHold) && decide (p ≤ s.offsetNow i) && decide (p + 72 < s.cycS i)

/-! ### Shapers (R252–R255) -/

def State.shaper (s : State) (p n : Nat) : Option Shaper := tblFind (s.part p).shapers n
def State.onShaper (s : State) (p n : Nat) (f : Shaper → Shaper) : State :=
  s.onPart p fun x =>
    match tblFind x.shapers n with
    | some y => { x with shapers := tblPut x.shapers n (f y) }
    | none => x

/-- The wheel bucket of a debt: the first whole µs at or after the credit's return to 0, at most the wheel's horizon ahead (R255). -/
def Shaper.bucketFor (x : Shaper) (now : Nat) : Option Nat :=
  if 0 ≤ x.credit then none
  else
    let ticks := if x.rate = 0 then 409600 else ceilDiv (-x.credit).toNat x.rate
    let due := ceilDiv (now + 10 * ticks) 1000 * 1000
    let last := (now / 1000 + 4095) * 1000
    some (min due last)

/-- A completed bridge transaction's actual cost is charged (R254). -/
def State.chargeShaper (s : State) (p n cost : Nat) : State :=
  s.onShaper p n fun x =>
    let x := { x with credit := x.credit - (cost * 100000 : Nat) }
    { x with bucket := x.bucketFor s.now }

/-- The shaper lets its requester request: it exists, is out of debt and its bucket has been reached (R244, R255). -/
def State.shaperOpen (s : State) (p n : Nat) : Bool :=
  match s.shaper p n with
  | some x => decide (0 ≤ x.credit) && x.bucket.isNone
  | none => false

/-! ### Items that may request (R244) -/

/-- A drop is locked by the AtomicOp of item id of partition p, between its LOCKRD and its UNLOCKWR (R103). -/
def State.lockedBy (s : State) (g : Nat) : Option (Nat × Nat) :=
  (List.range 8).findSome? fun p => ((s.bridge p).items.find? fun it =>
    match it.atomic with
    | some a => a.step == 5 && !it.cmds.isEmpty && a.seg * 32 + a.drop == g
    | none => false).map fun it => (p, it.id)

/-- An item has business on segment i. -/
def Item.on (it : Item) (i : Nat) : Bool := it.cmds.any (fun c => c.seg == i) || (it.atomic.map fun a => a.seg == i).getD false

/-- What an item has for segment i next, the command on the wires apart: some none where it holds back everything behind it, as with a command on
another segment's wires, none where it has nothing there. -/
def Item.next (it : Item) (i : Nat) : Option (Option ColCmd) :=
  if !it.on i then none
  else if it.issued && (it.atomic.isSome || it.cmds.head?.any fun c => c.seg != i) then some none
  else
    match if it.issued then it.cmds.drop 1 else it.cmds with
    | [] => if it.atomic.isSome then some none else none
    | c :: rest => if c.seg == i then some (some c) else if rest.any fun x => x.seg == i then some none else none

/-- A read's commands have begun. -/
def Item.reading (it : Item) : Bool := it.read.any fun r => it.issued || decide (0 < r.parts)

/-- Places of the Colant-to-host completion buffer that the reads begun hold: an RDATA received, or a command that will bring one (R191). -/
def Bridge.rdataHeld (b : Bridge) : Nat :=
  sumNat ((b.items.filter Item.reading).map fun it => it.cmds.length + ((it.read.map (·.parts)).getD 0))

/-- The completion buffer of 64 has room for a read's RDATAs; one that needs more has it to itself (R191, log entry 105). -/
def Bridge.rdataRoom (b : Bridge) (it : Item) : Bool :=
  it.read.isNone || it.reading || b.rdataHeld == 0 || decide (b.rdataHeld + it.cmds.length ≤ 64)

/-- The oldest item of partition p for segment i whose next command may be issued and meets ok; where the oldest is a read or AtomicOp that cannot
go on, the oldest write passes it (R193, R195–R197). -/
def State.bridgeHead (s : State) (p i : Nat) (ok : ColCmd → Bool) : Option (Item × ColCmd) :=
  let ready := fun (x : Item × Option ColCmd) => x.2.bind fun c =>
    let lock := match s.lockedBy (i * 32 + c.drop) with
      | none => true
      | some k => k == (p, x.1.id)
    if !s.past x.1.arrival (ticksOfUs 9990) && lock && (s.bridge p).rdataRoom x.1 && ok c then some (x.1, c) else none
  let l := (s.bridge p).items.filterMap fun it => (it.next i).map fun c => (it, c)
  match l.head?.bind ready with
  | some x => some x
  | none => (l.find? fun x => x.1.read.isNone && x.1.atomic.isNone).bind ready

/-- A command of a requester that could be launched: op, drop, address, length, data. -/
structure Launch where
  who : TxFor
  requester : Nat
  drop : Nat
  op : Nat
  addr : Nat
  len : Nat
  data : List W16
  shaper : Option Nat
  epoch : W32 := 0
  deriving DecidableEq, Repr

def HkItem.launch (h : HkItem) (code : Nat) : Launch :=
  { who := h.who, requester := code, drop := h.drop, op := h.op, addr := h.addr, len := h.len, data := h.data, shaper := none, epoch := h.epoch }

/-- Requester codes (R243). -/
def codeRtv : Nat := 0x1
def codeHk : Nat := 0x2
def codeEmg : Nat := 0x10
def codeNone : Nat := 0x1F

/-- The mode on record and delay of a drop fix a command's cost (R88, R244). -/
def State.commandCost (s : State) (i drop op addr len : Nat) (data : List W16) : Nat :=
  let d := s.drop (i * 32 + drop)
  costW2 op addr len data d.colant2 (d.delay.getD 520)

def State.launchCost (s : State) (i : Nat) (l : Launch) : Nat := s.commandCost i l.drop l.op l.addr l.len l.data

/-- A command to a drop meets R244 in this region: its rate is the region's, it ends before the region does, and the drop may be addressed
(R113). -/
def State.fitsRegion (s : State) (i : Nat) (r : RegionNow) (drop op addr len : Nat) (data : List W16) : Bool :=
  let d := s.drop (i * 32 + drop)
  d.colant2 == r.colant2 && d.negoFail.isNone && decide (r.start + s.commandCost i drop op addr len data ≤ r.finish)

/-- The drop may be addressed by the bridge: enumerated and not RETIRED (R198, R453). -/
def State.reachable (s : State) (g : Nat) : Bool := (s.drop g).found && (s.drop g).state != .retired

/-- The oldest item of a requester on segment i (R243). -/
def State.oldest (s : State) (i code : Nat) (r : RegionNow) : Option Launch :=
  let hk := (s.seg i).hk
  let may := fun (h : HkItem) => !((s.seg i).frozen && h.who == .service)   -- R101: no service-port access from FREEZE to RESUME
  if code = codeEmg then (hk.find? fun h => h.emg && may h).map fun h => h.launch code
  else if code = codeHk then (hk.find? fun h => !h.emg && h.who != .telemetry && may h).map fun h => h.launch code
  else if code = codeRtv then
    if r.control.isSome then (hk.find? fun h => !h.emg && h.who == .telemetry).map fun h => h.launch code else none
  else if 8 ≤ code ∧ code < 16 then
    let p := code - 8
    let sh := match r.control with
      | some e => if e.part = p then some e.shaper else none
      | none => some 0
    match sh with
    | none => none
    | some n =>
      if !s.shaperOpen p n then none
      else (s.bridgeHead p i fun c => s.reachable (i * 32 + c.drop) && s.fitsRegion i r c.drop c.op.code c.addr c.len c.data).map fun x =>
        { who := .bridge p x.1.id, requester := code, drop := x.2.drop, op := x.2.op.code, addr := x.2.addr, len := x.2.len,
          data := x.2.data, shaper := some n }
  else none

/-- The requester's oldest item meets R244 in this region. -/
def State.eligible (s : State) (i code : Nat) (r : RegionNow) : Option Launch :=
  match s.oldest i code r with
  | none => none
  | some l =>
    let lock := match s.lockedBy (i * 32 + l.drop), l.who with
      | none, _ => true
      | some k, .bridge p id => k == (p, id)
      | some _, _ => false
    if s.fitsRegion i r l.drop l.op l.addr l.len l.data && lock then some l else none

/-! ### Groups, leashes, tenures (R245, R247, R251, R263) -/

/-- Class fields of requesters; those of the reserved codes 0x3–0x7 are reserved (R263). -/
def clsMask : W32 := 0xFFFF003F

def classOf (cls : W32) (code : Nat) : Nat := field cls.toNat (2 * (code % 16) + 1) (2 * (code % 16))
def Arb.leashOf (a : Arb) (code : Nat) : Nat :=
  if 16 ≤ code then 0 else field (tblGet (0 : W32) a.leash (code / 4)).toNat (8 * (code % 4) + 7) (8 * (code % 4))
/-- Tenure of a requester's class in w2; 0 is treated as 1. -/
def Arb.tenureOf (a : Arb) (code : Nat) : Nat :=
  let c := classOf a.cls code
  16 * max 1 (field a.tenure.toNat (8 * c + 7) (8 * c))

/-- Group of a requester: 0 emergency, 1 forced, 2 + class. -/
def Arb.groupOf (a : Arb) (code : Nat) : Nat :=
  if code = codeEmg then 0
  else
    let l := a.leashOf code
    if l ≠ 0 ∧ l ≤ tblGet 0 a.wait code then 1 else 2 + classOf a.cls code

/-- Round robin within a group: the first requester after the one that last won in it. -/
def roundRobin (l : List Nat) (last : Option Nat) : Option Nat :=
  match last with
  | none => l.head?
  | some k => ((l.filter fun x => decide (k < x)) ++ l).head?

/-- Pick the winner and update the wait counters (R245). -/
def Arb.pick (a : Arb) (requests : List Nat) : Option (Nat × Arb) :=
  match minNat? (requests.map a.groupOf) with
  | none => none
  | some g =>
    let members := requests.filter fun c => a.groupOf c == g
    (roundRobin members (tblFind a.lastWin g)).map fun w =>
      let bump := fun (wait : Tbl Nat) c =>
        let l := a.leashOf c
        tblSet 0 wait c (min (tblGet 0 wait c + 1) (if l = 0 then 255 else l))
      let wait := (requests.filter fun c => c != w && c != codeEmg).foldl bump a.wait
      (w, { a with wait := tblSet 0 wait w 0, lastWin := tblPut a.lastWin g w })

/-- The requesters that take part in arbitration. -/
def arbCodes : List Nat := [0x1, 0x2, 0x8, 0x9, 0xA, 0xB, 0xC, 0xD, 0xE, 0xF, 0x10]

/-- What a frozen arbiter, and the wires from a power fail's FREEZE on, do not let a requester start (R101, R248). -/
def Segment.bars (x : Segment) (c : Nat) : Bool := (x.arb.freeze && c != codeEmg) || (x.frozen && c != codeHk && c != codeEmg)

/-- Requests sampled at A1; the bridges' only while the segment's filter is enabled (R439). -/
def State.requests (s : State) (i : Nat) (r : RegionNow) : List Nat :=
  let x := s.seg i
  arbCodes.filter fun c => !x.bars c && (x.filter.en || decide (c < 8) || c == codeEmg) && (s.eligible i c r).isSome

/-! ### Transactions (R83, R84) -/

/-- A Colant-2-rate period of n words on a segment with drops in Colant-1 mode: WHISTLE, the words, and IDLE at Colant-1 rate (R95). -/
def State.whistlePeriod (s : State) (i n : Nat) (ws : List ColWord) : State :=
  let k := n + 3
  let s := s.sendWords i false (message [header opWhistle 0 (k / 65536), BitVec.ofNat 16 k] false)
  (s.sendWords i true ([alignWord, alignWord] ++ ws)).sendWords i false [idleWord]

/-- The drop has heard a good KEEPALIVE, SYNC or addressed command (R102, R250). -/
def State.refreshed (s : State) (g : Nat) : State := s.onDrop g fun d => { d with refreshTick := s.tick }

/-- What is left of a slot's FRAMEs is not sent: of a Wafer slot's job the slices that were stay (R333). -/
def State.dropRun (s : State) (i : Nat) : State :=
  match (s.seg i).run with
  | none => s
  | some r =>
    let left := r.frames.length
    let cut := fun (k : Nat) (o : WafOut) => if o.sent && o.index == k then { o with slices := o.slices.take (o.slices.length - left) } else o
    let s : State := match (s.seg i).region with
      | .slot k => s.onWaf (i * 32 + r.drop) fun w => { w with outs := w.outs.map (cut k) }
      | .openTime => s
    s.onSeg i fun x => { x with run := none }

/-! ### FREEZE, and the ends of Whistle periods (R95, R100, R101) -/

/-- FREEZE goes out: in a Whistle period and in a guest tenure at once, and again when the count ends. -/
def State.sendFreeze (s : State) (i : Nat) : State :=
  let x := s.seg i
  let late := s.inWhistle i || x.tenure.isSome
  let c2 : Bool := match x.tenure with
    | some t => t.colant2
    | none => s.inWhistle i || s.base2 i
  let s : State := match x.tenure with
    | some t => s.busySince i t
    | none => s
  let s := s.sendWords i c2 (broadcast opFreeze [])
  let s : State := match x.tenure with
    | some t => s.onBridge t.part fun b => { b with semWaiting := b.semWaiting.filter (· != .guest i) }
    | none => s
  (s.dropRun i).onSeg i fun x =>
    { x with frozen := true, freezeDue := false, freezeAgain := late, syncNs := none, region := .openTime,
             tenure := x.tenure.map fun t => { t with frozen := true, wait := none } }

/-- The end of a Whistle period: its IDLE at Colant-1 rate, and the second FREEZE after the count (R95, R101). -/
def State.closeWhistle (s : State) (i : Nat) : State :=
  let again := (s.seg i).freezeAgain && (s.seg i).tenure.isNone
  let s := s.onSeg i fun x => { x with whistleEnd := none, freezeAgain := x.freezeAgain && !again }
  let s := s.sendWords i false [idleWord]
  if again then s.sendWords i false (broadcast opFreeze []) else s

/-- A Whistle period whose count is over ends, once no transaction and no guest has the wires (R83, R104). -/
def State.settleWhistle (s : State) (i : Nat) : State :=
  let x := s.seg i
  match x.whistleEnd with
  | some t => if decide (s.tick < t) || x.tx.isSome || x.tenure.isSome then s else s.closeWhistle i
  | none => s

/-- FREEZE on one segment, in the first word the unit may drive: after the response of a transaction on the wires, and after the closing IDLE of a
Whistle count that is over (R83, R95). -/
def State.freezeSegment (s : State) (i : Nat) : State :=
  if !(s.seg i).clk then s
  else if (s.seg i).tx.isSome then s.onSeg i fun x => { x with freezeDue := true }
  else (s.settleWhistle i).sendFreeze i

/-- A guest tenure's count is over. After a FREEZE in it FREEZE is sent again at the rate of the words around it, and once more after the count of
a Whistle period that still runs (R88, R95, R101). -/
def State.closeTenure (s : State) (i : Nat) : State :=
  let s := ((s.dropTenure i).onSeg i fun x => { x with region := .openTime }).settleWhistle i
  if !(s.seg i).freezeAgain then s
  else (s.sendWords i (s.inWhistle i || s.base2 i) (broadcast opFreeze [])).onSeg i fun x => { x with freezeAgain := x.whistleEnd.isSome }

/-- Put a command on the wires; one with a response becomes the segment's outstanding transaction, one without has refreshed its drop. -/
def State.transmit (s : State) (i : Nat) (l : Launch) : State :=
  let d := s.drop (i * 32 + l.drop)
  let off := s.wireOff i
  let s := s.sendWords i d.colant2 (message (commandWords l.op l.drop l.addr l.len l.data) d.colant2)
  if answerLen l.op l.len = 0 then (s.refreshed (i * 32 + l.drop)).onSeg i fun x => { x with wordsEnd := off + s.launchCost i l }
  else s.onSeg i fun x => { x with tx := some {
    who := l.who, requester := l.requester, drop := l.drop, op := l.op, addr := l.addr, len := l.len, data := l.data,
    colant2 := d.colant2, busy := 0, startTick := s.tick, predicted := costW2 l.op l.addr l.len l.data d.colant2 (d.delay.getD 520),
    shaper := l.shaper, epoch := l.epoch } }

/-- Runs of a bridge command's words that pass the segment filter or do not (R437, R438). -/
def filterRuns (f : Filter) (c : ColCmd) (k : AccKind) : List (Bool × Nat × Nat) :=
  ((List.range c.len).foldl (fun (acc : List (Bool × Nat × Nat)) n =>
    let ok := f.passes k c.drop (c.addr + n)
    match acc with
    | (b, a, m) :: rest => if b == ok then (b, a, m + 1) :: rest else (ok, n, 1) :: (b, a, m) :: rest
    | [] => [(ok, n, 1)]) []).reverse

def ColOp.access : ColOp → AccKind
  | .rd | .rdb => .read
  | .wr | .wrb => .write
  | .lockrd | .unlockwr => .locked

/-- The part of a command from word n, m words long. -/
def ColCmd.cut (c : ColCmd) (n m : Nat) : ColCmd :=
  { c with
    op := match c.op with
      | .rd | .rdb => if m = 1 then .rd else .rdb
      | .wr | .wrb => if m = 1 then .wr else .wrb
      | o => o
    addr := c.addr + n, len := m, data := (c.data.drop n).take m, halves := (c.halves.drop n).take m }

/-- A host access of which a part has been refused is captured once, whatever its commands meet (R437). -/
def State.markCaptured (s : State) (p write : Nat) : State :=
  s.onBridge p fun b => { b with items := b.items.map fun i => if i.write = write then { i with captured := true } else i }

/-- The filter acts on the head command of an item at issue: refused parts fail, the rest stays to be issued (R437, R438). Answers the state
and whether anything was refused. -/
def State.filterHead (s : State) (p id i : Nat) : State × Bool :=
  match s.item p id with
  | none => (s, true)
  | some it =>
    match it.cmds with
    | [] => (s, true)
    | c :: rest =>
      let k := if it.atomic.isSome then AccKind.locked else c.op.access
      let runs := filterRuns (s.seg i).filter c k
      match runs.find? fun r => !r.1 with
      | none => (s, false)
      | some bad =>
        let split := decide (1 < ((List.range c.len).map fun n => (s.seg i).filter.part (c.addr + n)).dedup.length)
        let s := if it.captured then s else
          (s.violation p split true k 2 p (colantAddr c.seg c.drop (c.addr + bad.2.1))).markCaptured p it.write
        if it.atomic.isSome then (s.failHead p id causeGuard 0, true)
        else
          let good := (runs.filter (·.1)).map fun r => c.cut r.2.1 r.2.2
          let refused := (runs.filter fun r => !r.1).map fun r => c.cut r.2.1 r.2.2
          let s := s.onItem p id fun i =>
            { i with
              cmds := good ++ rest,
              read := i.read.map fun r =>
                { r with fails := r.fails ++ refused.map fun x => x.failRec causeGuard 0 } }
          let s := if it.read.isSome then s else refused.foldl (fun s x => s.journal p (x.journal causeGuard 0)) s
          ((if good.isEmpty then s.settleItem p id else s), true)

/-- Launch a requester's oldest eligible item. A bridge command meets the segment filter here; what it refuses is not sent. -/
def State.launch (s : State) (i : Nat) (l : Launch) : State :=
  match l.who with
  | .bridge p id =>
    let f := s.filterHead p id i
    if f.2 then f.1
    else (f.1.onItem p id fun it => { it with issued := true }).transmit i l
  | _ =>
    let s := s.onSeg i fun x => { x with hk := x.hk.eraseIdx ((firstIdx (fun h => h.who == l.who && h.drop == l.drop && h.emg == (l.requester == codeEmg)) x.hk).getD x.hk.length) }
    s.transmit i l

/-- The tenure ends: no holder; a winner already registered stays so (R247). -/
def State.releaseHolder (s : State) (i : Nat) : State :=
  s.onArb i fun a => { a with holder := codeNone, usedW2 := 0, holderLimit := 0, last := false, tail := none }

/-- No holder, and no winner waiting. -/
def State.releaseWires (s : State) (i : Nat) : State := (s.releaseHolder i).onArb i fun a => { a with next := none, nextLimit := 0 }

/-- The tenure of a requester ends at its last launch: a transaction without a response that it has just launched is marked last (R246, R247). -/
def State.endTenure (s : State) (i code : Nat) : State := (s.releaseWires i).onArb i fun a => { a with tail := if s.wordsOut i then some code else none }

/-- Where the transaction on the wires is predicted to end, as an offset; the present offset without one (R244). -/
def State.txEnd (s : State) (i : Nat) : Nat :=
  match (s.seg i).tx with
  | some t => max (s.offsetNow i) (s.offsetAt i t.startTick + t.predicted + (if t.colant2 then t.busy else 2 * t.busy))
  | none => s.offsetNow i

/-- The holder launches items until one awaits a response, or its tenure ends: nothing eligible, the limit used, the end of its region, or FREEZE
(R101, R247, R248). EMG holds the wires for one transaction. -/
def State.runHolder (fuel : Nat) (s : State) (i : Nat) : State :=
  match fuel with
  | 0 => s
  | k + 1 =>
    let a := (s.seg i).arb
    match s.regionNow i with
    | none => s.endTenure i a.holder
    | some r =>
      if a.holderLimit ≤ a.usedW2 ∨ a.regionEnd ≤ r.start ∨ (s.seg i).bars a.holder = true then s.endTenure i a.holder
      else
        match s.eligible i a.holder r with
        | none => s.endTenure i a.holder
        | some l =>
          let cost := s.launchCost i l
          let s := s.launch i l
          if (s.seg i).tx.isSome then
            -- marked last if the limit will be reached, or nothing further of the holder is eligible where it ends
            let more := (s.eligible i a.holder { r with start := s.txEnd i }).isSome
            s.onArb i fun a => { a with last := decide (a.holderLimit ≤ a.usedW2 + cost) || !more || a.holder == codeEmg }
          else
            let used := if answerLen l.op l.len = 0 then cost else 0
            let s := s.onArb i fun a => { a with usedW2 := a.usedW2 + used }
            if a.holder = codeEmg then s.endTenure i a.holder else s.runHolder k i

/-- As many items as a segment's requesters hold bound a tenure. -/
def State.itemCount (s : State) (i : Nat) : Nat :=
  (s.seg i).hk.length + sumNat ((List.range 8).map fun p => sumNat ((s.bridge p).items.map fun it => it.cmds.length + 1)) + 2

/-- A requester takes the wires in the region at hand with the tenure limit of its grant (R247, R251). -/
def State.takeWires (s : State) (i code limit : Nat) : State :=
  let finish := ((s.regionNow i).map (·.finish)).getD 0
  let s := s.onArb i fun a =>
    { a with holder := code, usedW2 := 0, holderLimit := limit, last := false, next := none, nextLimit := 0, regionEnd := finish, tail := none }
  s.runHolder (s.itemCount i) i

/-- The limit of a requester's tenure, as its class stands at the grant (R251); EMG's is one transaction. -/
def Arb.grantLimit (a : Arb) (code : Nat) : Nat := if code = codeEmg then 1 else a.tenureOf code

/-- A registered winner takes the wires once they are free in a region and no link-hold window is due (R235, R246). -/
def State.claimWires (s : State) (i : Nat) : State :=
  let x := s.seg i
  match x.arb.next with
  | some w =>
    if x.bars w then s.onArb i fun a => { a with next := none, nextLimit := 0 }
    else if x.tx.isSome || x.arb.holder != codeNone || s.holdDue i || s.wordsOut i || (s.regionNow i).isNone then s
    else s.takeWires i w x.arb.nextLimit
  | none => s

/-- The words on the wires are a requester's last transaction, one without a response. -/
def State.tailOut (s : State) (i : Nat) : Bool := (s.seg i).arb.tail.isSome && (s.seg i).arb.holder == codeNone && s.wordsOut i

/-- The region a phase decides for: where the transaction marked last ends; on idle wires the present one, or the one that starts in 10 ns;
and whether the winner may start at once (R246). -/
def State.phaseRegion (s : State) (i : Nat) : Option (RegionNow × Bool) :=
  if (s.seg i).tx.isSome then (s.regionAt i (s.txEnd i)).map fun r => (r, false)
  else
    let ahead := (s.regionAt i (s.offsetAt i (s.tick + 1))).map fun r => (r, false)
    match s.regionNow i with
    | some r => if (s.requests i r).isEmpty then ahead else some (r, !s.wordsOut i)
    | none => ahead

/-- One arbitration phase (R245, R246): while a transaction marked last is on the wires, with a response or without, or on idle wires, where the
grid of 10 ns has one phase a point. -/
def State.arbitrate (s : State) (i : Nat) : State :=
  let x := s.seg i
  let a := x.arb
  let free := x.tx.isNone && a.holder == codeNone && !s.wordsOut i && a.phaseTick != some s.tick
  let early := (x.tx.isSome && a.last) || (x.tx.isNone && s.tailOut i)
  if (!free && !early) || a.next.isSome || s.holdDue i then s
  else
    let s := if free then s.onArb i fun a => { a with phaseTick := some s.tick } else s
    match s.phaseRegion i with
    | none => s
    | some (r, now) =>
      match (s.seg i).arb.pick (s.requests i r) with
      | none => s
      | some (w, a') =>
        let s := s.onArb i fun _ => a'
        if now then s.takeWires i w (a'.grantLimit w) else s.onArb i fun a => { a with next := some w, nextLimit := a'.grantLimit w }

/-- A transaction has ended: a Whistle period that has run out closes, a FREEZE that waited is sent, the winner already registered follows, the
holder is preempted by EMG or goes on (R95, R101, R246–R249). Under FREEZE a holder or winner starts nothing further (log entry 94). -/
def State.afterTx (s : State) (i : Nat) (cost : Nat) : State :=
  let s := s.settleWhistle i
  let s := if (s.seg i).freezeDue then s.sendFreeze i else s
  let s := s.onArb i fun a => { a with usedW2 := a.usedW2 + cost }
  let a := (s.seg i).arb
  if a.next.isSome then (s.releaseHolder i).claimWires i
  else if a.holder = codeNone then s
  else if a.last || s.holdDue i then s.releaseWires i
  else
    let emg := (s.regionNow i).bind fun r => s.eligible i codeEmg r
    if emg.isSome && a.holder != codeEmg then
      let s := s.onArb i fun a =>
        { a with preempt := satInc a.preempt,
                 wait := if a.leashOf a.holder = 0 then a.wait else tblSet 0 a.wait a.holder (a.leashOf a.holder) }
      s.takeWires i codeEmg (a.grantLimit codeEmg)
    else if (s.seg i).bars a.holder then s.releaseWires i
    else s.runHolder (s.itemCount i) i

/-- Take the outstanding transaction off the segment; a bridge transaction charges its shaper (R254). Answers the state and its actual
cost in w2. -/
def State.endTx (s : State) (i : Nat) (t : Tx) (busy : Nat) : State × Nat :=
  let cost := t.predicted + (if t.colant2 then busy else 2 * busy)
  let s := s.onSeg i fun x => { x with tx := none }
  match t.who, t.shaper with
  | .bridge p _, some n => (s.chargeShaper p n cost, cost)
  | _, _ => (s, cost)

/-- The boundary after the picture slot's FRAMEs sent has been reached. -/
def State.atBoundary (s : State) (i : Nat) : Bool := ((s.seg i).run.map fun r => decide (r.off ≤ s.offsetNow i)).getD true

/-- SCH_ARB_CTRL.HOLDER: the requester of the transaction or FRAME on the wires; in a picture or Retriever slot that carries its traffic the
slot's requester holds the wires (R243, R248, R263). -/
def State.holderNow (s : State) (i : Nat) : Nat :=
  let x := s.seg i
  let code := fun (e : Slot) => if e.kind = 1 ∨ e.kind = 2 then 0 else if e.kind = 5 then codeRtv else x.arb.holder
  match x.tx with
  | some t => t.requester
  | none =>
    if !s.atBoundary i then 0
    else if s.tailOut i then x.arb.tail.getD codeNone
    else
      match s.slotOver i (s.offsetNow i) with
      | some e => if !x.clk || !x.started || x.retired || x.frozen || x.arb.freeze || s.slotIdle i e then x.arb.holder else code e
      | none => x.arb.holder

/-- A guest has the wires. -/
def State.guestHolds (s : State) (i : Nat) : Bool := ((s.seg i).tenure.map fun t => !t.returned && !t.frozen).getD false

/-- SCH_ARB_CTRL.DRAINED: no grant is held, a guest's among them, and no transaction is outstanding (R248). -/
def State.drained (s : State) (i : Nat) : Bool :=
  s.holderNow i == codeNone && (s.seg i).tx.isNone && (s.seg i).arb.next.isNone && !s.guestHolds i

/-- Housekeeping would win the phase of this instant: the arbiter after it (R245). -/
def State.hkWins (s : State) (i : Nat) (r : RegionNow) : Option Arb :=
  let l := s.requests i r
  match (s.seg i).arb.pick (arbCodes.filter fun c => c == codeHk || l.contains c) with
  | some (w, a) => if w = codeHk then some a else none
  | none => none

/-- The arbiter once housekeeping has the wires for an exchange of its own in this region; none while they are not free: a transaction, words,
a tenure, holder or registered winner on them, a window due, a frozen arbiter, a requester that goes first, a region that the exchange's longest
item would outlast or that is of another rate. Before a segment's first cycle they always are (R83, R243–R245, R248, log entry 137). -/
def State.exchangeGrant (s : State) (i cost : Nat) (ok : RegionNow → Bool) : Option Arb :=
  let x := s.seg i
  if !x.clk || x.tx.isSome || x.tenure.isSome || x.arb.holder != codeNone || x.arb.next.isSome || x.arb.freeze || s.holdDue i || s.wordsOut i then none
  else if !x.started then some x.arb
  else
    match s.regionNow i with
    | some r => if ok r && decide (r.start + cost ≤ r.finish) then s.hkWins i r else none
    | none => none

/-- An exchange that begins at Colant-1 rate and changes the rate: in Colant-1-rate words, not between a SYNC and its switch, and not to a drop
under a lock (R96, R103). Its longest item costs this many w2. -/
def State.exchangeFree (s : State) (g cost : Nat) : Option Arb :=
  if (s.seg (g / 32)).syncNs.isSome || (s.lockedBy g).isSome then none else s.exchangeGrant (g / 32) cost fun r => !r.colant2

/-- What the unit drives where it drives nothing else: IDLE at the slot's rate, at Colant-1 rate in an uncovered entry, and at the rate of open
time elsewhere; none where a drop or a guest drives, or nobody does (R78, R83, R104, R230, R233, R246). -/
def State.idleRate (s : State) (i : Nat) : Option Bool :=
  let x := s.seg i
  if !x.clk || x.tx.isSome || s.guestHolds i then none
  else if !x.started then some x.rate2
  else if x.syncNs.isSome then some x.syncC2
  else
    match s.slotOver i (s.offsetNow i) with
    | some e => some (e.rate == 1 && !s.uncovered i e && !(x.frozen && s.mixed i && !s.inWhistle i))
    | none => some (s.inWhistle i || s.base2 i)

/-- IDLE at the rate that the wires have to take now; the two ALIGN words that follow a change to Colant-2 rate go with it (R75, R78). -/
def State.settleIdle (s : State) (i : Nat) : State :=
  match s.idleRate i with
  | some c2 => if (s.seg i).rate2 == c2 || s.wordsOut i || !s.atBoundary i then s else s.sendWords i c2 [idleWord]
  | none => s

/-- Queue a housekeeping item, once (R107, R250). -/
def State.queueHk (s : State) (i : Nat) (h : HkItem) : State :=
  s.onSeg i fun x => if x.hk.any fun y => y.who == h.who && y.drop == h.drop && y.op == h.op then x else { x with hk := x.hk ++ [h] }

def pollItem (n : Nat) : HkItem := { who := .poll, drop := n, op := opPoll, addr := 0, len := 1, data := [], emg := false }
def keepaliveItem (n : Nat) (emg : Bool) : HkItem := { who := .keepalive, drop := n, op := opKeepalive, addr := 0, len := 0, data := [], emg := emg }

end Sys2Proof.Machine
end

