-- ==== Sys2Proof/Machine/Host.lean ====
section
/-! DEFINITION. Host-port commands: BAR2 accesses (R184–R192), AtomicOps (R127), host memory reads coming back (R135, R146, R498), link
and power events (R118, R119, R128–R132), MSI-X (R125, R130). -/

namespace Sys2Proof.Machine

/-- The function takes memory requests: it exists, Memory Space Enable is 1 and it is in D0 (R116, R129, R135). -/
def State.hostOpen (s : State) (p : Nat) : Bool :=
  s.map.hasPart p && (s.part p).mse && (s.part p).dstate == .d0

/-- Size of BAR2 (R121). -/
def State.bar2Size (s : State) (p : Nat) : Nat := 2 ^ (tblGet 30 s.map.bar2Log2 p)

/-- HOST_WRITE: dropped where the function takes no requests; not accepted, hence unchanged, while the posted buffer is full (R192). -/
def execHostWrite (p : PartId) (off : BitVec 34) (data : List W32) (firstBE lastBE : BitVec 4) (s : State) : Res :=
  if s.linkHeld p false then .next s
  else if !s.hostOpen p || decide (s.bar2Size p ≤ off.toNat) then .next (s.dropWrite p)
  else .next ((s.acceptWrite p (requestHalves off.toNat data.length data firstBE lastBE)).getD s)

/-- HOST_READ: Unsupported Request where the function takes no requests (R129, R135). -/
def execHostRead (p : PartId) (off : BitVec 34) (dwords : Nat) (firstBE lastBE : BitVec 4) (tag : Nat) (s : State) : Res :=
  if s.linkHeld p true then .next s
  else if !s.hostOpen p || decide (s.bar2Size p ≤ off.toNat) then .next (s.emit (.cpl p tag .ur false []))
  else .next ((s.acceptRead p off.toNat dwords tag (requestHalves off.toNat dwords [] firstBE lastBE)).getD s)

/-- Posted items of a partition towards a segment. -/
def State.postedTo (s : State) (p i : Nat) : List Nat :=
  ((s.bridge p).items.filter fun it => it.read.isNone && it.atomic.isNone && it.on i).map (·.id)

/-- ZERO_LENGTH_READ: completes once every earlier posted write to the window's segment is acknowledged or journalled (R190); not accepted, hence
unchanged, while the non-posted buffer is full (R192). A failed one is recorded in BRG_RDERR (R199). -/
def execZeroLengthRead (p : PartId) (off : BitVec 34) (tag : Nat) (s : State) : Res :=
  let w := if s.hostOpen p then (s.bridge p).windowAt (off.toNat / 2) else none
  let f : FailRec := { key := 0, cause := causeNoWindow, nak := 0, window := 0, addr := off.toNat / 2 }
  if s.linkHeld p true then .next s
  else
    match w with
    | none => .next ((if s.hostOpen p then s.recordReadErr p f else s).emit (.cpl p tag .ur false []))
    | some e =>
      match s.postedTo p e.2.seg with
      | [] => .next (s.emit (.cpl p tag .sc false (leBytes 0 4)))
      | ids => .next (s.onBridge p fun b => { b with zeroReads := b.zeroReads ++ [{ tag := tag, window := e.1, items := ids }] })

/-- ATOMICOP (R127): only 32- and 64-bit requests into BAR2 are performed; the two kinds of request that R127 refuses set ATOMIC_UR (log entry
127). -/
def execAtomicOp (p : PartId) (bar : BarId) (off : BitVec 34) (kind : AtomicKind) (bytes operand compare tag : Nat) (s : State) : Res :=
  if s.linkHeld p true then .next s
  else if !s.hostOpen p then .next (s.emit (.cpl p tag .ur false []))
  else if bar ≠ .bar2 ∨ bytes = 16 then .next ((s.onPart p (·.setErr 2)).emit (.cpl p tag .ur false []))
  else if s.bar2Size p ≤ off.toNat then .next (s.emit (.cpl p tag .ur false []))
  else .next ((s.acceptAtomic p off.toNat kind bytes operand compare tag).getD s)

/-- POISONED_WRITE: dropped; HST_ERR.POISON_RX sets, and AER reports it (R135). -/
def execPoisonedWrite (p : PartId) (s : State) : Res :=
  if s.linkHeld p false then .next s else .next (s.onPart p fun x => { x.setErr 3 with aer := { x.aer with poisoned := true } })

/-! ### Reads of host memory coming back (R135, R146, R498) -/

/-- Entry k of fetched bytes. -/
def entryOf (bytes : List Byte) (k : Nat) : BitVec 512 := BitVec.ofNat 512 (ofLe ((bytes.drop (64 * k)).take 64))

/-- A ring fetch has ended with its bytes: the entries are fetched, unknown opcodes at the front complete, and fetching goes on. -/
def State.fetchDone (s : State) (p r first count : Nat) (bytes : List Byte) : State :=
  let s := s.onRing p r fun x =>
    { x with reading := 0, retried := false, sqHead := (first + count) % x.size,
             fetched := x.fetched ++ (List.range count).map fun k => { index := first + k, entry := entryOf bytes k } }
  (s.settleRings p).fetch p r

/-- A ring fetch has failed: retried once after 10 µs, then the ring is in ERROR (R146). -/
def State.fetchFailed (s : State) (p r : Nat) : State :=
  s.onRing p r fun x =>
    if x.retried then { x with reading := 0, state := .error } else { x with reading := 0, retryTick := some s.tick }

/-- A command's read has ended (R498). -/
def State.commandRead (s : State) (p r id : Nat) (bytes : Option (List Byte)) : State :=
  s.onRing p r fun x =>
    match x.wait with
    | some (.reads ids got failed) =>
      { x with wait := some (.reads (ids.filter (· != id)) (got ++ (bytes.map fun b => (id, b)).toList) (failed || bytes.isNone)) }
    | _ => x

/-- A whole read of host memory for a ring has ended (R146, R498). -/
def State.readEnds (s : State) (d : DmaRead) (x : ReadResult) : State :=
  match d.purpose, x with
  | .fetch p r first count, .data b => s.fetchDone p r first count b
  | .fetch p r _ _, _ => s.fetchFailed p r
  | .command p r, .data b => s.commandRead p r d.read (some b)
  | .command p r, _ => s.commandRead p r d.read none
  | .guest .., _ => s

/-- DMA_READ_COMPLETION: the request with this number ends, and with the last one its read. A guest's ends with GUEST_READ_COMPLETION. -/
def execDmaReadCompletion (id : Nat) (result : ReadResult) (s : State) : Res :=
  match s.dma.find? fun d => d.id == id && d.open with
  | none => .next s
  | some d =>
    let guest := match d.purpose with
      | .guest .. => true
      | _ => false
    if guest || !s.endsWith d result then .next s
    else
      let e := s.endRequest d result
      let t := e.1.readFailed d.part result
      .next ((e.2.map (t.readEnds d)).getD t)

/-! ### Links (R118, R119, R131) -/

/-- Accepted guest writes that have not left are lost with the link (R209). -/
def State.loseGuestPosted (s : State) (p : Nat) : State :=
  let l := (s.bridge p).guestPosted
  let s := s.onBridge p fun b => { b with guestPosted := [] }
  l.foldl (fun s g => s.journal p
    { seq := 0, cause := BitVec.ofNat 4 causeHostDropped, nowin := false, dir := true, seg := g.seg, drop := g.drop, window := g.window,
      words := g.len - 1, nak := 0, addr := g.word, time := 0 }) s

/-- Width of a port's links by its mode (R116). -/
def State.fullWidth (s : State) (p : Nat) : Nat := if s.map.mode (p / 2) = 2 then 4 else 8

/-- A level that holds the link begins or ends (R41, R119). -/
def LinkHolds.after (h : LinkHolds) : LinkEvent → LinkHolds
  | .perst b => { h with perst := b }
  | .refClock b => { h with noClock := !b }
  | .linkDisable b => { h with disabled := b }
  | _ => h

/-- Something holds the link down (R41). -/
def LinkHolds.down (h : LinkHolds) : Bool := h.perst || h.noClock || h.disabled

/-- The event takes the link down; the others only end a hold. -/
def linkFalls : LinkEvent → Bool
  | .perst b => b
  | .refClock b => !b
  | .linkDisable b => b
  | _ => true

/-- A partition whose link goes down: reset, not ready, and a link loss counted; also where the link is down already (log entry 132);
SPEED and WIDTH read 0 (R119, R138, log entry 99). -/
def State.linkDown (s : State) (p : Nat) : State :=
  (((s.composeFirst p).resetPartition p).loseGuestPosted p).onPart p fun x =>
    { x with ready := false, linkUp := false, l0Tick := none, downCnt := satInc x.downCnt, speed := 0, width := 0, degraded := false }

/-- The port halves a link spans: both of an x8 port, one of an x4+x4 port; the second half of an x8 port carries no link (R41, R116). What holds
a half is kept with the partition of its number. -/
def State.halvesOf (s : State) (l : Nat) : List Nat :=
  if s.map.mode (l / 2) = 2 then [l] else if l % 2 = 0 then [l, l + 1] else []

/-- Partition p's link is held down (R41). -/
def State.held (s : State) (p : Nat) : Bool := (s.part (s.map.linkOf p)).holds.down

/-- LINK_RESET: what takes the link down resets every partition on it, which must become ready again (R119); PERST#, an absent reference
clock and Link Disable hold it down until they end (R41). -/
def execLinkReset (x : LinkSignal) (s : State) : Res :=
  let t := if linkFalls x.event then (s.map.partsOf x.link).foldl (fun s p => s.linkDown p) s else s
  .next ((s.halvesOf x.link).foldl (fun s p => s.onPart p fun y => { y with holds := y.holds.after x.event }) (s.fairly t))

/-- PARTITION_READY: configuration requests are answered from now on; only once start-up has completed, and not while the link is held
down (R41, R119). A link that reported no training is at its full speed and width (log entry 99). -/
def execPartitionReady (p : PartId) (s : State) : Res :=
  if !s.map.hasPart p || s.boot.phase != .running || (s.part p).ready || s.held p then .next s
  else .next (s.onPart p fun x =>
    { x with ready := true, linkUp := true, l0Tick := some s.tick, idleTick := s.tick,
             speed := if x.speed = 0 then 5 else x.speed, width := if x.width = 0 then BitVec.ofNat 6 (s.fullWidth p) else x.width })

/-- A configuration write by the host. It takes the link out of L1; until the partition is ready it has no effect and is answered with
Configuration Request Retry Status (R119); an absent function has no configuration space (R116), and no non-posted request arrives while
the link is held down or withholds that class's credits (R192, R488). -/
def State.cfgWrite (s : State) (p : Nat) (f : State → State) : Res :=
  if !s.map.hasPart p || s.linkHeld p true then .next s
  else if !(s.part p).ready then .next (s.emit (.cfgRetry p))
  else .next (f (s.onPart p fun x => { x with inL1 := false, idleTick := s.tick }))

/-- FUNCTION_LEVEL_RESET: a configuration write (R29, R160). -/
def execFunctionLevelReset (p : PartId) (s : State) : Res := s.cfgWrite p fun s => (s.composeFirst p).resetPartition p

/-- LINK_DEGRADED: a link has trained; the degraded condition and the return from it signal the host-link source (R118, R400). A link
that is held down does not train (R41, R488). -/
def execLinkDegraded (l : LinkId) (speed : BitVec 4) (width : BitVec 6) (s : State) : Res :=
  .next (((s.map.partsOf l).filter fun p => s.linksLive && !s.held p).foldl (fun s p =>
    let bad := decide (speed.toNat < 5) || decide (width.toNat < s.fullWidth p)
    let was := (s.part p).degraded
    let s := s.onPart p fun x => { x with linkUp := true, speed := speed, width := width, degraded := bad }
    if bad == was then s else s.signalUnit p 20) s)

/-- PME_En and the clearing of PME_Status in a write of the power management control (R130). -/
def Partition.pmeWrite (x : Partition) (pmeEn clearPme : Bool) : Partition :=
  { x with pmeEn := pmeEn, pmeStatus := x.pmeStatus && !clearPme, pmeTick := if clearPme then none else x.pmeTick }

/-- The function enters D3hot: the Sheepdog timer pauses (R129). -/
def Partition.enterD3 (x : Partition) : Partition := if x.dstate = .d3hot then x else { x with dstate := .d3hot, hbPaused := true }

/-- The link enters L1 once every function on it is in D3hot (R131). -/
def State.l1OnD3hot (s : State) (p : Nat) : State :=
  let ps := s.map.partsOf (s.map.linkOf p)
  if ps.all fun q => (s.part q).dstate == .d3hot then ps.foldl (fun s q => s.onPart q fun x => { x with inL1 := true }) s else s

/-- What falls due when a function may write again: held entries in ring order, then pending vectors, then log records and fetches. -/
def State.resumeDma (s : State) (p : Nat) : State :=
  if (s.part p).dmaOk then ((((s.releaseHeld p).sendPending p).flushLog p).sendReads p).fetchAll p else s

/-- The function returns to D0: held entries and pending vectors leave; the timer restarts with its full interval (R129, R130). -/
def State.returnD0 (s : State) (p : Nat) : State :=
  if (s.part p).dstate = .d0 then s
  else (s.onPart p fun x => { x with dstate := .d0, hbPaused := false, hbTick := s.tick }).resumeDma p

/-- D3HOT_ENTRY: a write of the power management control. PowerState 3 enters D3hot, 0 is D0, and D1 or D2 is ignored (R128, R129);
PME_Status clears only where the host clears it (R130). -/
def execD3hotEntry (p : PartId) (w : PmWrite) (s : State) : Res :=
  s.cfgWrite p fun s =>
    let s := s.onPart p (·.pmeWrite w.pmeEn w.clearPme)
    if w.power = 3 then (s.onPart p (·.enterD3)).l1OnD3hot p else if w.power = 0 then s.returnD0 p else s

/-- D0_RETURN: a write of the power management control with PowerState D0 (R130). -/
def execD0Return (w : D0Write) (s : State) : Res :=
  s.cfgWrite w.part fun s => (s.onPart w.part (·.pmeWrite w.pmeEn w.clearPme)).returnD0 w.part

/-- PME_RESEND: every 100 ms while PME_Status stays 1 in D3hot (R130). -/
def execPmeResend (p : PartId) (s : State) : Res :=
  let x := s.part p
  match x.pmeTick with
  | none => .next s
  | some t =>
    if x.dstate != .d3hot || !x.pmeStatus || !s.past t (ticksOfMs 100) then .next s
    else .next ((s.onPart p fun y => { y with pmeSent := satInc y.pmeSent, pmeTick := some s.tick }).emit (.pme p))

/-- PME_TURN_OFF: answered with PME_TO_Ack (R131). -/
def execPmeTurnOff (l : LinkId) (s : State) : Res := .next (s.emit (.pmeToAck l))

/-- A link is in L1: every function on it is (R131). -/
def State.linkInL1 (s : State) (l : Nat) : Bool :=
  !(s.map.partsOf l).isEmpty && (s.map.partsOf l).all fun p => (s.part p).inL1

/-- ASPM_L1_ENTRY: after 32 µs with nothing to send and no outstanding request, where every function of the link enables it (R131). -/
def execAspmL1Entry (l : LinkId) (s : State) : Res :=
  let ps := s.map.partsOf l
  let idle := fun p =>
    let x := s.part p
    x.linkUp && x.aspmEn && s.past x.idleTick (ticksOfUs 32) && (s.bridge p).guestPosted.isEmpty && s.dma.all fun d => d.part != p
  if ps.isEmpty || !ps.all idle then .next s
  else .next (ps.foldl (fun s p => s.onPart p fun x => { x with inL1 := true }) s)

/-- A DWord of configuration space as the function's registers fill it, with PCI Express's bit places (R117, log entry 103). -/
def Partition.cfgWord (x : Partition) : CfgReg → Nat
  | .command => packFields [(b2n x.mse, 1), (b2n x.bme, 2)]
  | .bar n high => field (tblGet 0 x.bars n).toNat (if high then 63 else 31) (if high then 32 else 0)
  | .linkControl => packFields [(b2n x.aspmEn, 1)]
  | .deviceControl => packFields [(x.dev.mps.toNat, 5), (x.dev.mrrs.toNat, 12)]
  | .deviceControl2 => packFields [(x.dev.timeoutRange.toNat, 0), (b2n x.dev.timeoutOff, 4)]
  | .msixControl => packFields [(0x0FF, 16), (b2n x.funcMask, 30), (b2n x.msixEn, 31)]
  | .aerStatus => packFields [(b2n x.aer.poisoned, 12), (b2n x.aer.timeout, 14), (b2n x.aer.abort, 15), (b2n x.aer.unsupported, 20)]
  | .aerControl => packFields [(b2n x.dev.ecrcGenerate, 6), (b2n x.dev.ecrcCheck, 8)]

/-- The bytes of a DWord that the byte enables select are taken from the new value. -/
def mergeBytes (old new : Nat) (be : BitVec 4) : Nat :=
  ofLe ((List.range 4).map fun k => BitVec.ofNat 8 ((if be.getLsbD k then new else old) / 256 ^ k))

/-- What a configuration write of a whole DWord leaves in the function's registers (R117, R121, R125, R131, R133). MSI-X
Enable is held and gates nothing (log entry 126). -/
def Partition.cfg (x : Partition) (v : Nat) : CfgReg → Partition
  | .command => { x with mse := v.testBit 1, bme := v.testBit 2 }
  | .bar n high =>
    let old := (tblGet 0 x.bars n).toNat
    { x with bars := tblSet 0 x.bars n (BitVec.ofNat 64 (if high then v * 2 ^ 32 + old % 2 ^ 32 else old / 2 ^ 32 * 2 ^ 32 + v)) }
  | .linkControl => { x with aspmEn := v.testBit 1 }
  | .deviceControl => { x with dev := { x.dev with mps := BitVec.ofNat 3 (field v 7 5), mrrs := BitVec.ofNat 3 (field v 14 12) } }
  | .deviceControl2 => { x with dev := { x.dev with timeoutRange := BitVec.ofNat 4 (field v 3 0), timeoutOff := v.testBit 4 } }
  | .msixControl => { x with funcMask := v.testBit 30, msixEn := v.testBit 31 }
  | .aerStatus =>
    { x with aer := { poisoned := x.aer.poisoned && !v.testBit 12, timeout := x.aer.timeout && !v.testBit 14,
                      unsupported := x.aer.unsupported && !v.testBit 20, abort := x.aer.abort && !v.testBit 15 } }
  | .aerControl => { x with dev := { x.dev with ecrcGenerate := v.testBit 6, ecrcCheck := v.testBit 8 } }

/-- The DWord that a configuration write leaves to be taken: bytes not enabled keep what they hold, and write 0 to the status bits that a 1
clears. -/
def Partition.cfgMerged (x : Partition) (reg : CfgReg) (value : W32) (be : BitVec 4) : Nat :=
  mergeBytes (if reg = .aerStatus then 0 else x.cfgWord reg) value.toNat be

/-- BUS_MASTER_ENABLE_SET: a configuration write that is neither a power state nor a reset; with Bus Master Enable 1 in D0 what was held
leaves (R129–R131, R135, log entry 5), and with the Function Mask cleared a pending vector is sent once (R125). -/
def execBusMasterEnableSet (p : PartId) (reg : CfgReg) (value : W32) (be : BitVec 4) (s : State) : Res :=
  s.cfgWrite p fun s =>
    let s := s.onPart p fun x => x.cfg (x.cfgMerged reg value be) reg
    if reg = .msixControl then s.sendPending p else s.resumeDma p

/-- The DWords of a vector's table entry: address, data, vector control with the mask in bit 0 (R125). -/
def MsixVec.word (x : MsixVec) : Nat → Nat
  | 0 => x.addr.toNat % 2 ^ 32
  | 1 => x.addr.toNat / 2 ^ 32
  | 2 => x.data.toNat
  | _ => b2n x.mask

def MsixVec.put (x : MsixVec) (word : Fin 4) (v : W32) : MsixVec :=
  match word with
  | 0 => { x with addr := x.addr.extractLsb' 32 32 ++ v }
  | 1 => { x with addr := v ++ x.addr.extractLsb' 0 32 }
  | 2 => { x with data := v }
  | 3 => { x with mask := v.getLsbD 0 }

/-- DWord of BAR4: the table at 0, the Pending Bit Array at 0x1000 (R125). -/
def Partition.bar4 (x : Partition) (off : Nat) : Nat :=
  if off < 0x1000 then (tblGet {} x.vectors (off / 16)).word (off % 16 / 4)
  else if off < 0x1020 then
    (List.range 32).foldl (fun v k => v + b2n (tblGet {} x.vectors ((off - 0x1000) / 4 * 32 + k)).pending * 2 ^ k) 0
  else 0

/-- A write of a DWord of BAR4: a table entry's takes it; the Pending Bit Array and what lies past it are read-only (R125). -/
def Partition.bar4Write (x : Partition) (off : Nat) (v : W32) : Partition :=
  if off < 0x1000 then
    { x with vectors := tblSet {} x.vectors (off / 16) ((tblGet {} x.vectors (off / 16)).put (Fin.ofNat 4 (off / 4)) v) }
  else x

/-- MSIX_UNMASK: a write or a read of a DWord of BAR4. With the vector's mask cleared a pending vector is sent once (R125); BAR4 takes no
requests in D3hot or with Memory Space Enable 0 (R129, R135). -/
def execMsixUnmask (p : PartId) (off : BitVec 13) (write : Option W32) (tag : Nat) (s : State) : Res :=
  match write with
  | some v => if s.linkHeld p false then .next s else if !s.hostOpen p then .next (s.dropWrite p) else .next ((s.onPart p (·.bar4Write off.toNat v)).sendPending p)
  | none =>
    if s.linkHeld p true then .next s
    else if !s.hostOpen p then .next (s.emit (.cpl p tag .ur false []))
    else .next (s.emit (.cpl p tag .sc false (leBytes ((s.part p).bar4 (off.toNat / 4 * 4)) 4)))

end Sys2Proof.Machine
end

