-- ==== Sys2Proof/Machine/Access.lean ====
section
/-! DEFINITION. Register accesses that have a command of their own: who may reach a register of BAR0 or of the internal control space
(R122, R123, R423–R427, R437, R508). -/

namespace Sys2Proof.Machine

/-! ### The control space (R508) -/

def ctlTb : Nat := 0x10000000
def ctlEvc : Nat := 0x10010000
def ctlGrd : Nat := 0x10020000
def ctlFlt : Nat := 0x10030000
def ctlPwr : Nat := 0x10040000
def ctlCc : Nat := 0x10050000
def ctlDec : Nat := 0x10060000
def ctlCmp : Nat := 0x10070000
def ctlClr : Nat := 0x10080000
def ctlWaf : Nat := 0x10090000
def ctlSch : Nat := 0x100A0000

/-- The address lies in n bytes from base. -/
def within (addr base n : Nat) : Bool := decide (base ≤ addr) && decide (addr < base + n)

/-- A doorbell write names private source 32–47 of CC2 or CC3 (R403, R421): bit 31 private, [29:28] core, [11:0] source. -/
def interCore (v : Nat) : Bool := bitOf v 31 && decide (2 ≤ field v 29 28) && within (field v 11 0) 32 16

/-- The customer default map of customer core c over the control space; v is the value of a write (R427). -/
def custControl (c : Nat) (k : AccKind) (addr v : Nat) : Bool :=
  match k with
  | .read =>
    within addr (ctlCc + 0x100 * c) 0x100 || within addr (ctlEvc + 0x200 + 32 * (c + 2)) 32 || within addr (ctlGrd + 0x40 * (8 + c)) 0x40
      || within addr (ctlTb + 8) 8
  | .write =>
    within addr (ctlCc + 0x100 * c) 0x100 || within addr (ctlEvc + 0x200 + 32 * (c + 2)) 32 || within addr (ctlGrd + 0x40 * (8 + c)) 0x40
      || (addr == ctlEvc && interCore v)
  | _ => false

/-- The requester code of an access (R423). -/
def State.reqCode (s : State) : Requester → Nat
  | .host p => p
  | .core c => if 2 ≤ c.val ∧ (s.cust (c - 2)).task = true then 0x12 + c else 0x10 + c
  | .service => 0x18

/-- The bank pair that captures a requester's violations and, but for CC2 and CC3 in supervisor mode, checks it (R423, R440). -/
def pairOf : Requester → Nat
  | .host p => p
  | .core c => if c.val < 2 then 10 else 6 + c
  | .service => 10

/-! ### The default maps and the decision (R423, R426, R427) -/

/-- An address range of a space and the rights the map gives there. -/
structure MapRange where
  space : Nat
  base : Nat
  size : Nat
  r : Bool
  w : Bool
  x : Bool
  deriving DecidableEq, Repr

/-- The ranges of customer core c in which a whole region can lie. TB_TIME and EVC_DOORBELL are smaller than a region's 64 bytes. -/
def State.customerMap (s : State) (c : Nat) : List MapRange :=
  [{ space := 0, base := s.cmemBase c, size := s.cmemBytes c, r := true, w := true, x := true },
   { space := 0, base := s.fbAreaBase c, size := s.fbAreaBytes c, r := true, w := true, x := false },
   { space := 1, base := ctlCc + 0x100 * c, size := 0x100, r := true, w := true, x := false },
   { space := 1, base := ctlEvc + 0x200 + 32 * (c + 2), size := 32, r := true, w := true, x := false },
   { space := 1, base := ctlGrd + 0x40 * (8 + c), size := 0x40, r := true, w := true, x := false }]

/-- The vendor default map for requester who at an address of a space (R12, R427): memory is fetched only from the 2 GiB vendor reserve, which
lies below the customer memory (log entry 109), and only by CC0 and CC1. -/
def vendorMap (who : Requester) (k : AccKind) (space addr : Nat) : Bool :=
  match k, space with
  | .fetch, 0 => decide (addr < 0x80000000) && (match who with | .core c => decide (c.val < 2) | _ => false)
  | .fetch, _ => false
  | _, 3 => decide (who ≠ .service)
  | _, _ => true

/-- The customer default map as a decision on one address (R427); v is the value of a write. -/
def State.customerOk (s : State) (c : Nat) (k : AccKind) (space addr v : Nat) : Bool :=
  match space with
  | 0 => (s.customerMap c).any fun m =>
      m.space == 0 && within addr m.base m.size && (match k with | .read => m.r | .write => m.w | .fetch => m.x | .locked => m.r && m.w)
  | 1 => custControl c k addr v
  | _ => false

/-- The guard's decision on one address of a space (R423, R426, R427). In host space a partition or its guests meet bank pair p; the decision
of Colant space is the bridge's (R437). -/
def State.guardOk (s : State) (who : Requester) (k : AccKind) (space addr v : Nat) : Bool :=
  match who with
  | .host p => ((s.pair p).user space addr k).2
  | .core c =>
    if c.val < 2 then
      match (s.pair 10).find space addr with
      | some e => e.2.covers k
      | none => vendorMap who k space addr
    else if (s.cust (c - 2)).task then ((s.pair (6 + c)).user space addr k).2
    else s.customerOk (c - 2) k space addr v
  | .service =>
    match (s.pair 10).find space addr with
    | some e => e.2.covers k
    | none => vendorMap who k space addr

/-- The guard's decision on one DWord of control space (R423, R426, R427); a partition's way there is its BAR0 layout alone (R424). -/
def State.controlOk (s : State) (who : Requester) (k : AccKind) (addr v : Nat) : Bool :=
  match who with
  | .host _ => true
  | _ => s.guardOk who k 1 addr v

/-- A task reaches no CC and no GRD register: they answer their core in supervisor mode alone (R479, R508); an access that the task's rules allow
reads 0 there and writes nothing (log entry 155). -/
def State.taskBarred (s : State) (who : Requester) (addr : Nat) : Bool :=
  match who with
  | .core c => decide (2 ≤ c.val) && (s.cust (c - 2)).task && (within addr ctlCc 0x10000 || within addr ctlGrd 0x10000)
  | _ => false

/-- A bus error to a core: one in task mode leaves it, and bits [33:6] of the refused address are recorded (R437, R468). -/
def State.busError (s : State) (who : Requester) (addr : Nat) : State :=
  let s : State := match who with
    | .core c =>
      if 2 ≤ c.val && (s.cust (c - 2)).task then
        s.onCust (c - 2) fun x => { x with task := false, taskCause := 3, taskAddr := BitVec.ofNat 28 (addr / 64) }
      else s
    | _ => s
  s.emit (.busError who)

/-- An access to a register that stands at a BAR0 offset, at a control-space address, or at both. Through BAR0 the partition must take
requests; in control space the guard decides, and a refusal is captured and is a bus error to the core (R122, R437, R440). -/
def State.access (s : State) (who : Requester) (k : AccKind) (bar0 ctl : Bool) (addr : Nat) (v : W32) (ok : State → Res) : Res :=
  match who with
  | .host p =>
    if s.linkHeld p (k == .read) then .next s
    else if bar0 && s.hostOpen p then ok s
    else .next (if k == .read then s.emit (.regAbort p .ur) else s.dropWrite p)
  | _ =>
    if !ctl then .next s
    else if s.controlOk who k addr v.toNat then
      if s.taskBarred who addr then .next (if k == .read then s.emit (.regData who 0) else s) else ok s
    else .next ((s.violation (pairOf who) false false k 1 (s.reqCode who) addr).busError who addr)

/-- A write by a partition through its own BAR0 (R122). -/
def State.barWrite (s : State) (p : Nat) (ok : State → Res) : Res :=
  if s.linkHeld p false then .next s else if s.hostOpen p then ok s else .next (s.dropWrite p)

/-- A read by a partition through its own BAR0; Unsupported Request where the function takes none (R129). -/
def State.barRead (s : State) (p : Nat) (ok : State → Res) : Res :=
  if s.linkHeld p true then .next s else if s.hostOpen p then ok s else .next (s.emit (.regAbort p .ur))

/-- The latch a requester has of its own for the upper halves (R56): partitions 0–7, cores 8–11, the service port 12. -/
def latchOf : Requester → Nat
  | .host p => p
  | .core c => 8 + c
  | .service => 12

end Sys2Proof.Machine
end

