-- ==== Sys2Proof/Machine/BridgeEvents.lean ====
section
/-! DEFINITION. Bridge events and registers: STALE (R196), read-ahead expiry (R205), the semaphore (R210, R219) and BRG_JRN_ACK (R200). -/

namespace Sys2Proof.Machine

/-- An item whose next command was not issued within 9,990 µs of its arrival; an AtomicOp may still wait for the semaphore (R196, R211). -/
def State.staleItem (s : State) (p : Nat) : Option Item :=
  (s.bridge p).items.find? fun it =>
    !it.issued && s.past it.arrival (ticksOfUs 9990) && (!it.cmds.isEmpty || (it.atomic.map fun a => a.step == 0 && a.fail.isNone).getD false)

/-- BRG_STAT.STALE counts the whole host write or request that a stale command belongs to, once (R196, R220). -/
def State.countStale (s : State) (p : Nat) (it : Item) : State :=
  if it.staleSeen then s
  else s.onBridge p fun b =>
    { b with staleCnt := satInc b.staleCnt, items := b.items.map fun x => if x.write = it.write then { x with staleSeen := true } else x }

def State.failStale (fuel : Nat) (s : State) (p : Nat) : State :=
  match fuel with
  | 0 => s
  | k + 1 =>
    match s.staleItem p with
    | none => s
    | some it => ((s.failHead p it.id causeStale 0).countStale p it).failStale k p

/-- STALE. -/
def execStale (p : PartId) (s : State) : Res :=
  .next (s.failStale (sumNat ((s.bridge p).items.map fun i => i.cmds.length + 1)) p)

/-- PREFETCH_EXPIRY: 100 µs after the RDB that filled the buffer. -/
def execPrefetchExpiry (p : PartId) (w : Fin 256) (s : State) : Res :=
  match (s.win p w).bind (·.ahead) with
  | some a => .next (if s.past a.tick (ticksOfUs 100) then s.invalidate p w else s)
  | none => .next s

/-- CLAIM takes the semaphore for host software if it is free and nothing waits. -/
def execClaim (p : PartId) (s : State) : Res :=
  s.barWrite p fun s =>
    let b := s.bridge p
    if b.semOwner = .none ∧ b.semWaiting = [] then
      .next (s.onBridge p fun b => { b with semOwner := .host, semExpiry := some (s.tick + ticksOfMs 1) })
    else .next s

/-- RELEASE frees a semaphore that host software holds; what waits takes it in order of arrival. -/
def execRelease (p : PartId) (s : State) : Res :=
  s.barWrite p fun s => .next (if (s.bridge p).semOwner = .host then (s.freeSem p).grantSem p else s)

/-- SEMAPHORE_EXPIRY: the hold is released, EXPIRED sets and the bridge event source signals. -/
def execSemaphoreExpiry (p : PartId) (s : State) : Res :=
  match (s.bridge p).semExpiry with
  | some t =>
    if s.tick < t then .next s
    else .next ((((s.freeSem p).onBridge p fun b => { b with semExpired := true }).signalUnit p 16).grantSem p)
  | none => .next s

/-- BRG_JRN_ACK_WRITE: the highest SEQ the host driver has consumed; a value outside [ACK, NEXT − 1] is ignored (R200, R218). -/
def execBrgJrnAckWrite (p : PartId) (v : W32) (s : State) : Res :=
  s.barWrite p fun s => .next (s.onBridge p fun b =>
    if (v - b.jrnAck).toNat ≤ (b.jrnNext - 1 - b.jrnAck).toNat then { b with jrnAck := v } else b)

end Sys2Proof.Machine
end

