-- ==== Sys2Proof/Machine/Rings.lean ====
section
/-! DEFINITION. Rings and sessions: doorbells (R142–R145), fetch retries (R146), ring 0 (R177), the heartbeat (R161), OPEN_SESSION,
CLOSE_SESSION, HANDBACK (R156–R164), RING_CREATE and RING_DELETE (R141, R147), ADMISSION_QUERY (R376). -/

namespace Sys2Proof.Machine

/-! ### Doorbells (R142–R145) -/

/-- A doorbell write is ignored and recorded (R145). -/
def Partition.doorbellErr (x : Partition) (bit : Nat) : Partition := { x with dbErr := x.dbErr ||| BitVec.ofNat 32 (2 ^ bit) }

/-- The entries from index a up to, not including, b of a ring of n entries, in order. -/
def ringSpan (a b n : Nat) : List Nat := (List.range ((b + n - a) % n)).map fun k => (a + k) % n

/-- SQ_TAIL_DOORBELL: the new entries are announced and fetched. -/
def execSqTailDoorbell (p : PartId) (r : RingId) (v : W32) (s : State) : Res :=
  let g := s.ring p r
  let t := field v.toNat 11 0
  if s.linkHeld p false then .next s
  else if !s.hostOpen p then .next (s.dropWrite p)
  else if g.state == .absent || decide (g.size ≤ t) then .next (s.onPart p (·.doorbellErr r))
  else
    let marks := (ringSpan g.sqTail t g.size).foldl (fun m k => tblPut m k s.nextId) g.announced
    .next ((s.onRing p r fun g => { g with sqTail := t, announced := marks }).fetch p r)

/-- Completion entries of a ring that the unit holds (R129, R135). -/
def State.heldOn (s : State) (p r : Nat) : Nat := ((s.part p).held.filter fun h => h.ring == r).length

/-- Completions of a ring written and not released. -/
def State.written (s : State) (p r : Nat) : Nat := (s.ring p r).unreleased - s.heldOn p r

/-- CQ_HEAD_DOORBELL: every completion before the new head is released; none where it is the present head (log entry 133). -/
def execCqHeadDoorbell (p : PartId) (r : RingId) (v : W32) (s : State) : Res :=
  let g := s.ring p r
  let h := field v.toNat 11 0
  let n := (h + g.cqSize - g.cqHead) % g.cqSize
  if s.linkHeld p false then .next s
  else if !s.hostOpen p then .next (s.dropWrite p)
  else if g.state == .absent || decide (g.cqSize ≤ h) || decide (s.written p r < n) then .next (s.onPart p (·.doorbellErr (16 + r)))
  else .next ((s.onRing p r fun g => { g with cqHead := h, unreleased := g.unreleased - n }).fetch p r)

/-- SQ_FETCH_RETRY: 10 µs after the failed read (R146). -/
def execSqFetchRetry (p : PartId) (r : RingId) (s : State) : Res :=
  match (s.ring p r).retryTick with
  | none => .next s
  | some t =>
    if !s.past t (ticksOfUs 10) then .next s
    else .next ((s.onRing p r fun g => { g with retryTick := none, retried := true }).fetch p r)

/-! ### Ring 0 (R177) -/

/-- The sizes of a ring are legal (R141, R177). -/
def logsOk (sq cq : Nat) : Bool := decide (4 ≤ sq) && decide (sq ≤ cq) && decide (cq ≤ 12)

/-- Ring 0 ceases to be ACTIVE or ERROR. -/
def State.clearRing0 (s : State) (p : Nat) : State :=
  (s.dropReads p fun _ => true).onPart p fun x => { x with admEn := false, rings := tblErase x.rings 0 }

/-- ADMIN_RING_ENABLE: a write of HST_ADM_CFG; the logs are ignored while EN is 1. -/
def execAdminRingEnable (p : PartId) (v : W32) (s : State) : Res :=
  let x := s.part p
  let en := v.getLsbD 31
  let sq := field v.toNat 3 0
  let cq := field v.toNat 11 8
  if s.linkHeld p false then .next s
  else if !s.hostOpen p then .next (s.dropWrite p)
  else if x.admEn then
    if en then .next s
    else if x.session != .closed then .next ((s.composeFirst p).endSession p)
    else .next (s.clearRing0 p)
  else
    let s := s.onPart p fun x => { x with admSqLog2 := sq, admCqLog2 := cq }
    if !en then .next (s.clearRing0 p)
    else if logsOk sq cq then
      .next ((s.onPart p fun x => { x with admEn := true }).onRing p 0 fun _ =>
        { state := .active, sqAddr := x.admSq, cqAddr := x.admCq, sqLog2 := sq, cqLog2 := cq })
    else .next (s.onRing p 0 fun _ => { state := .error })

/-! ### The heartbeat (R161) -/

/-- HEARTBEAT: any write of HST_HEARTBEAT in OPEN or LAPSED restarts the timer. -/
def execHeartbeat (p : PartId) (s : State) : Res :=
  if s.linkHeld p false then .next s
  else if !s.hostOpen p then .next (s.dropWrite p)
  else if (s.part p).session == .closed then .next s
  else .next (s.restartHeartbeat p)

/-- HEARTBEAT_LAPSE: the timer has run out. A lapse inside a vendor core restart is acted on when the core runs again (R481). -/
def execHeartbeatLapse (p : PartId) (s : State) : Res :=
  if !s.heartbeatDue p then .next s
  else if s.boot.coreDown.isEmpty then .next (s.lapse p)
  else .next (s.onBoot fun b => { b with lapsesDue := insertAsc b.lapsesDue p })

/-! ### Sessions (R157–R164) -/

/-- A partition's journal starts anew with what the unit kept since the last session (R200, R218). -/
def Bridge.openJournal (b : Bridge) : Bridge :=
  let k := b.kept.length
  let seqs := b.kept.zipIdx.map fun e => { e.1 with seq := BitVec.ofNat 32 (e.2 + 1) }
  { b with
    journal := seqs.foldl (fun j e => tblPut j (e.seq.toNat % 256) e) []
    jrnNext := BitVec.ofNat 32 (k + 1), jrnAck := 0, jrnLost := BitVec.ofNat 32 (min b.keptLost 0xFFFFFFFF), kept := [], keptLost := 0
    fenceSeqs := (seqs.filter fun e => !e.dir).map (·.seq) }

/-- The next session number: 1 after 0xFFFF (R157). -/
def nextSession (n : W16) : W16 := if n = 0xFFFF then 1 else n + 1

def openLayout : List (Nat × Nat) := [(bitPos 0x10 0, 8), (bitPos 0x11 0, 8), (bitPos 0x12 0, 8), (bitPos 0x14 0, 32)]

/-- Fields of OPEN_SESSION out of range (R157, R500). -/
def openChecks (e : BitVec 512) : List (Bool × Nat) :=
  let hb := entryField e 0x14 0 32
  [objectCheck e 0 0, (decide (entryField e 0x11 0 8 < entryField e 0x10 0 8), bitPos 0x10 0),
   (decide (1 < entryField e 0x12 0 8), bitPos 0x12 0), (decide (hb < 100) || decide (60000 < hb), bitPos 0x14 0)]

/-- The session opens at a level (R157, R164, R200, R252); drops still in FALLBACK keep the value of the session before (R476). -/
def State.openSession (s : State) (p level hb : Nat) (fallback : Bool) : State :=
  let s := s.onPart p fun x =>
    { x with session := .opened, level := level, sessNum := nextSession x.sessNum, hbMs := hb, hbTick := s.tick,
             hbPaused := x.dstate == .d3hot, sessFallback := fallback, opened := true,
             shapers := tblPut x.shapers 0 { rate := 1000, burst := 1024 }, bridge := x.bridge.openJournal }
  (s.returnDrops p (s.now + 2000000)).updateTakeover

/-- OPEN_SESSION's validation and effect. -/
def openAct (p : Nat) (s : State) (e : BitVec 512) : CmdOut :=
  let lo := entryField e 0x10 0 8
  let level := min 2 (entryField e 0x11 0 8)
  let st := (s.part p).session
  checked s [failIf (decide (level < max lo 1)) replyVersion, failIf (st != .closed) (replyConflict typeSession st.code 0)]
    (let t := (s.composeFirst p).openSession p level (entryField e 0x14 0 32) (entryField e 0x12 0 8 == 1)
     .reply (replyOk (level + (t.part p).sessNum.toNat * 256)) t)

/-- OPEN_SESSION; failures kept between sessions signal the bridge source once, after the completion (R200). -/
def execOpenSession (p : PartId) (r : RingId) (s : State) : Res :=
  let kept := (s.turn p r 0x01).isSome && (s.part p).session == .closed && !(s.bridge p).kept.isEmpty
  match ringCmd s p r 0x01 true openLayout openChecks (openAct p) with
  | .next t => .next (if kept && (t.part p).session == .opened then t.signalUnit p 16 else t)
  | o => o

/-- A ring of the partition waits for a restore sequence. -/
def Partition.restoring (x : Partition) : Bool :=
  x.rings.any fun g => match g.2.wait with
    | some (.restore _) => true
    | _ => false

/-- A wait that an end of its object or session completes ABORTED: those of R153, but for a restore, which the close waits for (R504, R507). -/
def Wait.aborts : Wait → Bool
  | .feedSpace .. | .drain _ | .fence _ => true
  | .restore _ | .reads .. | .close => false

/-- Every waiting command on rings 1–15 completes ABORTED; nothing more is fetched there (R159 step 1, R153, log entry 24). -/
def State.abortWaits (s : State) (p : Nat) : State :=
  ((natRange 1 15).filter fun r => (s.ring p r).wait.any (·.aborts)).foldl (fun s r =>
    (s.onRing p r fun g => { g with state := .error }).complete p r replyAborted (s.ring p r).validNs) s

/-- R159, steps 1–4 and 6. -/
def State.closeNow (s : State) (p : Nat) : State :=
  let s := (((s.composeFirst p).abortWaits p).sheepdog p).destroyObjects p
  let s := (s.dropReads p fun r => r != 0).onPart p fun x => { x with rings := x.rings.filter fun g => g.1 == 0 }
  s.closeSession p

/-- CLOSE_SESSION: waits for running restores of the partition (R504). -/
def execCloseSession (p : PartId) (r : RingId) (s : State) : Res :=
  ringCmd s p r 0x02 true [] (fun e => [objectCheck e 0 0]) fun s _ =>
    if (s.part p).restoring then .hold .close s else .reply (replyOk 0) (s.closeNow p)

/-- A CLOSE_SESSION that waited for restores takes its steps once none runs. -/
def State.resumeClose (s : State) (p : Nat) : State :=
  if (s.ring p 0).wait == some .close && !(s.part p).restoring then (s.closeNow p).endWait p 0 (replyOk 0) else s

/-- HANDBACK (R163). -/
def execHandback (p : PartId) (r : RingId) (s : State) : Res :=
  ringCmd s p r 0x03 true [(bitPos 0x10 0, 64)] (fun e => [objectCheck e 0 0]) fun s e =>
    let at_ := entryField e 0x10 0 64
    let st := (s.part p).session
    checked s [failIf (st != .lapsed) (replyConflict typeSession st.code 0),
               failIf (at_ != 0 && decide (at_ < s.now + 2000000)) replyPastBase]
      (let t := if at_ = 0 then s.now + 2000000 else at_
       let s' := (s.returnDrops p t).restartHeartbeat p
       let s' := (s'.onPart p fun x => { x with session := .opened }).setLive (0x010 + 2 * p) false
       .reply (replyOk (s.latestReturn p t)) s')

/-! ### RING_CREATE, RING_DELETE (R141, R147) -/

def ringLayout : List (Nat × Nat) := [(bitPos 0x10 0, 64), (bitPos 0x18 0, 64), (bitPos 0x20 0, 4), (bitPos 0x21 0, 4)]

def ringChecks (e : BitVec 512) : List (Bool × Nat) :=
  let sq := entryField e 0x20 0 4
  let cq := entryField e 0x21 0 4
  [objectCheck e 1 15, (entryField e 0x10 0 12 != 0, bitPos 0x10 0), (entryField e 0x18 0 12 != 0, bitPos 0x18 0),
   (decide (sq < 4) || decide (12 < sq), bitPos 0x20 0), (decide (cq < sq) || decide (12 < cq), bitPos 0x21 0)]

def execRingCreate (p : PartId) (r : RingId) (s : State) : Res :=
  ringCmd s p r 0x04 true ringLayout ringChecks fun s e =>
    let k := entryObject e
    let g := s.ring p k
    checked s [failIf (g.state != .absent) (replyConflict typeRing g.state.code k)]
      (.reply (replyOk 0) (s.onRing p k fun _ =>
        { state := .active, sqAddr := BitVec.ofNat 64 (entryField e 0x10 0 64), cqAddr := BitVec.ofNat 64 (entryField e 0x18 0 64),
          sqLog2 := entryField e 0x20 0 4, cqLog2 := entryField e 0x21 0 4 }))

/-- RING_DELETE of an ABSENT ring is a conflict with that state (log entry 26); a command whose completion entry is held has not completed
(log entry 100). -/
def execRingDelete (p : PartId) (r : RingId) (s : State) : Res :=
  ringCmd s p r 0x05 true [] (fun e => [objectCheck e 1 15]) fun s e =>
    let k := entryObject e
    let g := s.ring p k
    checked s [failIf (g.state == .absent || !g.fetched.isEmpty || s.heldOn p k != 0) (replyConflict typeRing g.state.code k)]
      (let t := s.onPart p fun x => { x with rings := tblErase x.rings k }
       .reply (replyOk 0) (t.dropReads p fun j => j == k))

/-! ### ADMISSION_QUERY (R376) -/

def addrLayout : List (Nat × Nat) := [(bitPos 0x10 0, 64)]
/-- A record's bus address must be aligned to 64 bytes. -/
def recordCheck (e : BitVec 512) : Bool × Nat := (entryField e 0x10 0 6 != 0, bitPos 0x10 0)

def execAdmissionQuery (p : PartId) (r : RingId) (s : State) : Res :=
  ringCmd s p r 0x06 false addrLayout (fun e => [objectCheck e 0 0, recordCheck e]) fun s e =>
    .reply (replyOk 0) (s.writeRecord p (entryField e 0x10 0 64) (s.admissionRecord p))

end Sys2Proof.Machine
end

