-- ==== Sys2Proof/Machine/StreamCmd.lean ====
section
/-! DEFINITION. Stream commands (R165–R168, R268–R271, R276–R279, R290, R505) and the reads of host memory a command makes (R498). -/

namespace Sys2Proof.Machine

/-! ### Reads of a command (R129, R135, R498) -/

/-- The reads of a ring's present command leave; where DMA may not run they count as failed (log entry 29). -/
def State.startCmdReads (s : State) (p r : Nat) (l : List (Nat × Nat)) : Wait × State :=
  if (s.part p).dmaOk then
    let k := l.foldl (fun (a : List Nat × State) x => (a.1 ++ [a.2.nextId], a.2.startRead p (.command p r) x.1 x.2)) (([] : List Nat), s)
    (.reads k.1 [] false, k.2)
  else (.reads [] [] true, s.onPart p (·.setErr 4))

/-- A ring goes on waiting under another condition. -/
def State.rewait (s : State) (p r : Nat) (w : Wait) : State := s.onRing p r fun g => { g with wait := some w }

/-- The bytes of a read that has ended. -/
def gotBytes (got : List (Nat × List Byte)) : List Byte := (got.insertionSort fun a b => a.1 ≤ b.1).flatMap (·.2)

/-! ### STREAM_CREATE (R264, R268–R271) -/

def streamLayout : List (Nat × Nat) :=
  [(bitPos 0x10 0, 8), (bitPos 0x11 0, 8), (bitPos 0x12 0, 8), (bitPos 0x13 0, 4), (bitPos 0x14 0, 16), (bitPos 0x16 0, 16),
   (bitPos 0x18 0, 32), (bitPos 0x1C 0, 8), (bitPos 0x1D 0, 8), (bitPos 0x1E 0, 8), (bitPos 0x1F 0, 8), (bitPos 0x20 0, 32),
   (bitPos 0x24 0, 32), (bitPos 0x28 0, 8)]

/-- Level codes up to the highest level of R264, as each standard codes them (log entry 30). -/
def levelCodes (codec : Nat) : List Nat :=
  if codec = 1 then [9, 10, 11, 12, 13, 20, 21, 22, 30, 31, 32, 40, 41, 42, 50, 51, 52]
  else if codec = 2 then [30, 60, 63, 90, 93, 120, 123, 150, 153, 156, 180, 183]
  else [0, 1, 4, 5, 8, 9, 12, 13, 14, 15, 16]

/-- Largest picture and rate of a codec (R264). -/
def codecPicture (codec : Nat) : Nat := if codec = 1 then 9437184 else 35651584
def codecRate (codec : Nat) : Nat := if codec = 1 then 530841600 else 2139095040

/-- Largest picture and rate, in luma samples, of the levels of H.264, H.265 and AV1 below the highest of R264, and the buffer of H.264 in macroblocks, by the
standards' tables (log entry 30). -/
def levelRow (codec level : Nat) : Nat × Nat × Nat :=
  let h264 : List (Nat × Nat × Nat × Nat) :=
    [(9, 99, 1485, 396), (10, 99, 1485, 396), (11, 396, 3000, 900), (12, 396, 6000, 2376), (13, 396, 11880, 2376), (20, 396, 11880, 2376),
     (21, 792, 19800, 4752), (22, 1620, 20250, 8100), (30, 1620, 40500, 8100), (31, 3600, 108000, 18000), (32, 5120, 216000, 20480),
     (40, 8192, 245760, 32768), (41, 8192, 245760, 32768), (42, 8704, 522240, 34816), (50, 22080, 589824, 110400),
     (51, 36864, 983040, 184320), (52, 36864, 2073600, 184320)]
  let h265 : List (Nat × Nat × Nat × Nat) :=
    [(30, 36864, 552960, 0), (60, 122880, 3686400, 0), (63, 245760, 7372800, 0), (90, 552960, 16588800, 0), (93, 983040, 33177600, 0),
     (120, 2228224, 66846720, 0), (123, 2228224, 133693440, 0), (150, 8912896, 267386880, 0), (153, 8912896, 534773760, 0),
     (156, 8912896, 1069547520, 0), (180, 35651584, 1069547520, 0), (183, 35651584, 2139095040, 0)]
  let av1 : List (Nat × Nat × Nat × Nat) :=
    [(0, 147456, 4423680, 0), (1, 278784, 8363520, 0), (4, 665856, 19975680, 0), (5, 1065024, 31950720, 0), (8, 2359296, 70778880, 0),
     (9, 2359296, 141557760, 0), (12, 8912896, 267386880, 0), (13, 8912896, 534773760, 0), (14, 8912896, 1069547520, 0),
     (15, 8912896, 1069547520, 0), (16, 35651584, 2139095040, 0)]
  let row := fun (l : List (Nat × Nat × Nat × Nat)) => (tblFind l level).getD (0, 0, 0)
  if codec = 1 then (let x := row h264; (x.1 * 256, x.2.1 * 256, x.2.2)) else if codec = 2 then row h265 else row av1

/-- The picture, or its rate (fps in mHz), exceeds the created level's limit (R264, R269). -/
def overLevel (codec level w h fps : Nat) : Bool :=
  decide ((levelRow codec level).1 < w * h) || decide ((levelRow codec level).2.1 * 1000 < w * h * fps)

/-- DPB 0: the value of the standard's level rules for the picture; 8 for AV1 (R269, log entry 30). -/
def levelDpb (codec level w h : Nat) : Nat :=
  let x := levelRow codec level
  if codec = 1 then min 16 (x.2.2 / (ceilDiv w 16 * ceilDiv h 16))
  else if codec = 2 then (if 4 * (w * h) ≤ x.1 then 16 else if 2 * (w * h) ≤ x.1 then 12 else if 4 * (w * h) ≤ 3 * x.1 then 8 else 6)
  else 8

/-- x lies outside lo … hi. -/
def outside (x lo hi : Nat) : Bool := decide (x < lo) || decide (hi < x)

def streamChecks (e : BitVec 512) : List (Bool × Nat) :=
  let codec := entryField e 0x10 0 8
  let profile := entryField e 0x11 0 8
  let level := entryField e 0x12 0 8
  let tier := entryField e 0x13 3 1
  let w := entryField e 0x14 0 16
  let h := entryField e 0x16 0 16
  let fps := entryField e 0x18 0 32
  let depth := entryField e 0x1E 0 8
  let inBuf := entryField e 0x20 0 32
  let known := !outside codec 1 3
  [objectCheck e 0 255,
   (!known, bitPos 0x10 0),
   (known && outside profile 1 (if codec = 3 then 1 else 2), bitPos 0x11 0),
   (known && !(levelCodes codec).contains level, bitPos 0x12 0),
   (tier == 1 && codec != 2, bitPos 0x13 3),
   (outside w 16 8192 || (known && (decide (codecPicture codec < w * h) || decide (codecRate codec * 1000 < w * h * fps)
      || ((levelCodes codec).contains level && overLevel codec level w h fps))), bitPos 0x14 0),
   (outside h 16 4352, bitPos 0x16 0),
   (outside fps 1000 240000, bitPos 0x18 0),
   (decide (16 < entryField e 0x1C 0 8), bitPos 0x1C 0),
   (outside (entryField e 0x1D 0 8) 2 16, bitPos 0x1D 0),
   ((depth != 8 && depth != 10) || (depth == 10 && (codec == 1 || (codec == 2 && profile == 1))), bitPos 0x1E 0),
   (decide (31 < entryField e 0x1F 0 8) || (entryField e 0x1F 0 8 != 0 && codec != 3), bitPos 0x1F 0),
   (inBuf % 4096 != 0 || outside inBuf 65536 67108864, bitPos 0x20 0),
   (outside (entryField e 0x24 0 32) 1000000 1000000000, bitPos 0x24 0),
   (decide (7 < entryField e 0x28 0 8), bitPos 0x28 0)]

/-- R270. -/
def streamAlloc (codec w h depth dpb outFrames inBuf : Nat) : Nat :=
  let a := if codec = 3 then 128 else 64
  let wa := ceilDiv w a * a
  let ha := ceilDiv h a * a
  let frame := wa * ha * 3 / 2 * (if depth = 10 then 2 else 1)
  let mv := wa / 16 * (ha / 16) * 16
  ceilDiv ((dpb + outFrames) * (frame + mv) + inBuf + 1048576) 65536 * 65536

/-- The stream a STREAM_CREATE describes, on no core yet. -/
def newStream (p : Nat) (e : BitVec 512) : Stream :=
  let codec := entryField e 0x10 0 8
  let level := entryField e 0x12 0 8
  let w := entryField e 0x14 0 16
  let h := entryField e 0x16 0 16
  let fps := entryField e 0x18 0 32
  let d := entryField e 0x1C 0 8
  let dpb := if d ≠ 0 then d else levelDpb codec level w h
  let outFrames := entryField e 0x1D 0 8
  let depth := entryField e 0x1E 0 8
  let inBuf := entryField e 0x20 0 32
  { part := p, index := entryObject e, codec := codec, profile := entryField e 0x11 0 8, level := level, flags := entryField e 0x13 0 4,
    maxW := w, maxH := h, maxFps := fps, dpb := dpb, outFrames := outFrames, depth := depth, op := entryField e 0x1F 0 8,
    inBuf := inBuf, frameDur := entryField e 0x24 0 32, colourDefault := entryField e 0x28 0 8,
    alloc := streamAlloc codec w h depth dpb outFrames inBuf, q := decodeCost w h fps, firstCore := 0, cores := 0, coreList := [] }

/-- The lowest free unit slot (log entry 27). -/
def State.freeSlot (s : State) : Option Nat := (List.range 256).find? fun k => (s.stream k).isNone

def Stream.lowDelay (x : Stream) : Bool := bitOf x.flags 0

/-- A stream comes to be in a unit slot: its error window is empty (R451), its two sources are at reset (R402, R405). -/
def State.makeStream (s : State) (slot : Nat) (x : Stream) : State :=
  (({ s with streams := tblPut s.streams slot x } : State).clearWindow 5 slot).resetStreamSources slot

/-- STREAM_CREATE's validation after step 2, and its effect. -/
def streamCreateAct (p : Nat) (s : State) (e : BitVec 512) : CmdOut :=
  let k := entryObject e
  let x := newStream p e
  match (s.slotOf p k).bind s.stream, s.freeSlot with
  | some old, _ => .reply (replyConflict typeStream old.state.code k) s
  | none, none => .reply replyResource s
  | none, some slot =>
    if !s.fits x.alloc || s.indexHeld p k then .reply replyResource s
    else
      match s.place x.q x.lowDelay with
      | none => .reply (refused 0x03 (groupSize x.q x.lowDelay) 0 x.q (s.largestQ x.lowDelay)) s
      | some l =>
        let x := { x with coreList := l, firstCore := l.headD 0, cores := l.length, firstUid := s.nextId }
        let t := s.makeStream slot x
        checked s (t.admitStream p)
          (.reply { res0 := x.alloc, res1 := some (packFields [(slot, 0), (x.firstCore, 8), (x.cores - 1, 12)]) } t)

def execStreamCreate (p : PartId) (r : RingId) (s : State) : Res := ringCmd s p r 0x10 false streamLayout streamChecks (streamCreateAct p)

/-! ### START, STOP, DESTROY, QUERY -/

/-- A command on a stream of the partition by its index: NOT_OWNER where it does not exist (R496), a conflict outside the listed states. -/
def onNamedStream (s : State) (p : Nat) (e : BitVec 512) (legal : List StreamState) (k : Nat → Stream → CmdOut) : CmdOut :=
  match s.slotOf p (entryObject e) with
  | none => .reply replyNotOwner s
  | some slot =>
    match s.stream slot with
    | none => .reply replyNotOwner s
    | some x => if legal.contains x.state then k slot x else .reply (replyConflict typeStream x.state.code x.index) s

def streamObject (e : BitVec 512) : List (Bool × Nat) := [objectCheck e 0 255]

/-- Decoding begins anew; an END_OF_STREAM fed in IDLE makes the next feed one with DISCONTINUITY all the same (R165, R277, R279). -/
def Stream.started (x : Stream) (now uid : Nat) : Stream :=
  { x with
    state := .running, needRap := true, leading := false, badSets := [], lastField := false, startUid := uid, freshPts := true,
    afterEos := x.afterEos && !x.queue.isEmpty, pictures := 0, frames := 0, coded := [], refs := [],
    fieldOpen := none, nextS := 0, readyNs := now, maxPtsSeen := none, errRun := 0, taint := false }

/-- STREAM_START: the status source signals (R289). -/
def execStreamStart (p : PartId) (r : RingId) (s : State) : Res :=
  ringCmd s p r 0x11 false [] streamObject fun s e =>
    onNamedStream s p e [.idle] fun slot _ =>
      .reply (replyOk 0) (((s.onStream slot (·.started s.now s.nextId)).recoverStream slot).signal (2048 + 2 * slot))

/-- Frames released without ever having been chosen (R284). -/
def unusedOf (l : List Frame) : Nat := (l.filter fun f => !f.chosen).length

/-- Something other than a reference holds the frame for the compositor: it is available, awaits its output, or lacks its second field (R283). -/
def Stream.holdsFrame (x : Stream) (f : Frame) : Bool :=
  (x.avail ++ x.heldForEos).any (fun g => g.uid == f.uid) || x.fieldOpen.any fun o => o.frame.uid == f.uid

/-- References let go the frames that keep does not name; one that nothing else holds is released unchosen (R283, R284). -/
def Stream.letGo (x : Stream) (keep : Frame → Bool) : Stream :=
  let gone := x.refs.filter fun f => !keep f && !x.holdsFrame f
  { x with refs := x.refs.filter keep, unused := satAdd x.unused gone.length }

/-- The decoder's hold on input and frames ends; layers keep what they show (R165, R168, R283). -/
def Stream.stopped (x : Stream) : Stream :=
  let x := { x with fieldOpen := none }.letGo fun _ => false
  { x with state := .idle, failReason := 0, inUsed := x.inUsed - sumNat (x.queue.map (·.bytes)), queue := [], paused := false,
           unused := satAdd x.unused (unusedOf x.avail + unusedOf x.heldForEos), avail := [], heldForEos := [], errRun := 0,
           taint := false, coded := [] }

def execStreamStop (p : PartId) (r : RingId) (s : State) : Res :=
  ringCmd s p r 0x13 false [] streamObject fun s e =>
    onNamedStream s p e [.running, .failed] fun slot _ => .reply (replyOk 0) (((s.composeFirst p).onStream slot (·.stopped)).abortFeeds slot)

def execStreamDestroy (p : PartId) (r : RingId) (s : State) : Res :=
  ringCmd s p r 0x14 false [] streamObject fun s e =>
    onNamedStream s p e [.idle, .failed] fun slot x => .reply (replyOk x.alloc) ((s.composeFirst p).dropStream slot)

/-- The 64 bytes of STREAM_QUERY (R290). -/
def Stream.record (x : Stream) (slot : Nat) : List Byte :=
  recordBytes ([packFields [(x.state.code, 0), (if x.state = .failed then x.failReason else 0, 8), (slot, 16), (x.firstCore, 24), (x.cores - 1, 28)],
    x.inBuf - x.inUsed, x.decoded.toNat, x.concealed.toNat, x.cblocks.toNat, x.taintedCnt.toNat, x.skipped.toNat, x.unused.toNat,
    x.late.toNat, x.reorder.toNat] ++ qword x.lastAvailPts ++ qword x.lastAvailTime
    ++ [packFields [(x.lastW, 0), (x.lastH, 16)], x.lastDepth])

def Stream.clearCounters (x : Stream) : Stream :=
  { x with decoded := 0, concealed := 0, cblocks := 0, taintedCnt := 0, skipped := 0, unused := 0, late := 0, reorder := 0 }

def execStreamQuery (p : PartId) (r : RingId) (s : State) : Res :=
  ringCmd s p r 0x15 false [(bitPos 0x10 0, 64), (bitPos 0x18 0, 1)] (fun e => [objectCheck e 0 255, recordCheck e]) fun s e =>
    onNamedStream s p e [.idle, .running, .failed] fun slot x =>
      let s := s.writeRecord p (entryField e 0x10 0 64) (x.record slot)
      .reply (replyOk 0) (if entryField e 0x18 0 1 = 1 then s.onStream slot (·.clearCounters) else s)

/-! ### STREAM_FEED (R166–R168, R276–R279, R505) -/

def feedIndirect (e : BitVec 512) : Bool := entryField e 0x19 0 1 == 1
def feedCount (e : BitVec 512) : Nat := entryField e 0x18 0 8

def feedLayout (e : BitVec 512) : List (Nat × Nat) :=
  [(bitPos 0x10 0, 64), (bitPos 0x18 0, 8), (bitPos 0x19 0, 4), (bitPos 0x20 0, 64)]
    ++ (if feedIndirect e then [] else [(bitPos 0x28 0, 24)])
    ++ (if !feedIndirect e && feedCount e == 2 then [(bitPos 0x30 0, 64), (bitPos 0x38 0, 24)] else [])

/-- Inline descriptors. -/
def feedDescs (e : BitVec 512) : List (Nat × Nat) :=
  (entryField e 0x20 0 64, entryField e 0x28 0 24)
    :: (if feedCount e = 2 then [(entryField e 0x30 0 64, entryField e 0x38 0 24)] else [])

def descBytes (l : List (Nat × Nat)) : Nat := sumNat (l.map (·.2))

/-- Step 1 of STREAM_FEED; the total of inline descriptors is held against the stream's IN_BUF where the stream exists (log entry 28). -/
def feedChecks (s : State) (p : Nat) (e : BitVec 512) : List (Bool × Nat) :=
  let ind := feedIndirect e
  let big := ((s.slotOf p (entryObject e)).bind s.stream).any fun x => decide (x.inBuf < descBytes (feedDescs e))
  [(!ind && big, bitPos 0x28 0), objectCheck e 0 255, (outside (feedCount e) 1 (if ind then 255 else 2), bitPos 0x18 0),
   (ind && entryField e 0x20 0 4 != 0, bitPos 0x20 0), (!ind && entryField e 0x28 0 24 == 0, bitPos 0x28 0),
   (!ind && feedCount e == 2 && entryField e 0x38 0 24 == 0, bitPos 0x38 0)]

/-- Descriptors of a list; none if one breaks R167. -/
def listDescs (bytes : List Byte) (n : Nat) : Option (List (Nat × Nat)) :=
  (List.range n).mapM fun k =>
    let d := ofLe ((bytes.drop (16 * k)).take 16)
    if d / 2 ^ 88 ≠ 0 ∨ field d 87 64 = 0 then none else some (field d 63 0, field d 87 64)

/-- A feed whose descriptors are known goes on: it reads its bytes, waits for space, or ends (R166, R168). badAt is the entry position that
reports a total above IN_BUF (log entry 28). -/
def State.feedGo (s : State) (p r slot : Nat) (x : Stream) (l : List (Nat × Nat)) (badAt : Nat) : CmdOut :=
  let n := descBytes l
  if x.inBuf < n then .reply (replyBadParam badAt) s
  else
    let s := s.onRing p r fun g => { g with descs := l }
    if x.inBuf - x.inUsed < n then
      if x.state = .running then .hold (.feedSpace slot n) s else .reply replyResource s
    else
      let w := (s.onStream slot fun x => { x with inUsed := x.inUsed + n }).startCmdReads p r l
      .hold w.1 w.2

/-- STREAM_FEED. -/
def execStreamFeed (p : PartId) (r : RingId) (s : State) : Res :=
  match s.turn p r 0x12 with
  | none => .next s
  | some e =>
    ringCmd s p r 0x12 false (feedLayout e) (feedChecks s p) fun s e =>
      onNamedStream s p e [.idle, .running] fun slot x =>
        if feedIndirect e then
          let w := s.startCmdReads p r [(entryField e 0x20 0 64, 16 * feedCount e)]
          .hold w.1 w.2
        else s.feedGo p r slot x (feedDescs e) (bitPos 0x28 0)

/-- STREAM_FEED_SPACE: a waiting feed has room now and reads its bytes. -/
def execStreamFeedSpace (p : PartId) (r : RingId) (s : State) : Res :=
  let g := s.ring p r
  match g.wait with
  | some (.feedSpace slot n) =>
    match s.stream slot with
    | some x =>
      if x.inBuf - x.inUsed < n then .next s
      else
        let w := (s.onStream slot fun x => { x with inUsed := x.inUsed + n }).startCmdReads p r g.descs
        .next (w.2.rewait p r w.1)
    | none => .next s
  | _ => .next s

/-- One error of R285: it counts in the stream's window and signals its error source. -/
def State.streamError (s : State) (slot : Nat) : State := (s.countError 5 slot).signal (2049 + 2 * slot)

/-- An access unit ended with errors or without: 64 in a row with errors fail a RUNNING stream (R288). -/
def State.unitErrors (s : State) (slot : Nat) (bad : Bool) : State :=
  let s := s.onStream slot fun x => { x with errRun := if bad then x.errRun + 1 else 0 }
  match s.stream slot with
  | some x => if x.state = .running ∧ 64 ≤ x.errRun then s.failStream slot 0x04 else s
  | none => s

/-- PTS of a feed (R278): validNs is its validation time. -/
def Stream.feedPts (x : Stream) (e : BitVec 512) (validNs : Nat) : Nat :=
  if entryField e 0x19 1 1 = 1 then entryField e 0x10 0 64
  else
    match x.lastPts with
    | some t => if x.freshPts || entryField e 0x19 2 1 == 1 then validNs + 2000000 else t + x.frameDur
    | none => validNs + 2000000

/-- The access unit of a feed enters the stream's queue; the first after END_OF_STREAM counts as one with DISCONTINUITY (R276, R279). -/
def Stream.feed (x : Stream) (e : BitVec 512) (validNs now bytes : Nat) (data : List Byte) (failed : Bool) : Stream :=
  let pts := x.feedPts e validNs
  let eos := entryField e 0x19 3 1 == 1
  { x with queue := x.queue ++ [{ bytes := if failed then 0 else bytes, data := data, pts := pts,
                                  discontinuity := x.afterEos || entryField e 0x19 2 1 == 1,
                                  endOfStream := eos, readFailed := failed, doneNs := now }],
           lastPts := some pts, freshPts := eos, afterEos := eos, inUsed := if failed then x.inUsed - bytes else x.inUsed }

/-- The reads of a feed have ended: the list's, then the bytes' (R167, R168). A feed whose stream has gone is ABORTED. -/
def State.feedEnd (s : State) (p r : Nat) (e : BitVec 512) (got : List (Nat × List Byte)) (failed : Bool) : State :=
  let g := s.ring p r
  match s.slotOf p (entryObject e) with
  | none => s.endWait p r replyAborted
  | some slot =>
    match s.stream slot with
    | none => s.endWait p r replyAborted
    | some x =>
      let n := descBytes g.descs
      if failed then
        ((s.onStream slot fun x => x.feed e g.validNs s.now n [] true).streamError slot).endWait p r (replyOk 0)
      else if g.descs.isEmpty then
        if x.state = .failed then s.endWait p r replyAborted
        else
        match listDescs (gotBytes got) (feedCount e) with
        | none => s.endWait p r (replyBadParam (bitPos 0x20 0))
        | some l =>
          match s.feedGo p r slot x l (bitPos 0x20 0) with
          | .reply y t => (if y.status = 0 then t else s).endWait p r y
          | .hold w t => t.rewait p r w
      else (s.onStream slot fun x => x.feed e g.validNs s.now n (gotBytes got) false).endWait p r (replyOk n)

end Sys2Proof.Machine
end

