-- ==== Sys2Proof/Machine/Discover.lean ====
section
/-! DEFINITION. Discovery of a drop (R112, R394, R456, R514), its path delay (R64, R65), negotiation (R113, R329), and DROP_QUERY and
DROP_RESTORE (R503, R504). -/

namespace Sys2Proof.Machine

/-! ### Commands the unit sends on its own behalf -/

/-- Words of a command to a drop at a rate. -/
def State.sendTo (s : State) (g op addr len : Nat) (data : List W16) (c2 : Bool) : State :=
  s.sendWords (g / 32) c2 (message (commandWords op (g % 32) addr len data) c2)

/-- A command to a drop at the rate of its mode on record, inside a Whistle period of its own where drops in Colant-1 mode would hear it (R88,
R95). -/
def State.exchange (s : State) (g op addr len : Nat) (data : List W16) : State :=
  let d := s.drop g
  if d.colant2 && !s.base2 (g / 32) then
    s.whistlePeriod (g / 32) (costWords op addr len data true (d.delay.getD 520)) (message (commandWords op (g % 32) addr len data) true)
  else s.sendTo g op addr len data d.colant2

/-- An access of the segment schedulers to words of a drop, as the guard decides it (R423, R426). -/
def State.schedAccess (s : State) (k : AccKind) (g addr len : Nat) : Bool × State := s.blockAccess 0x24 k g addr len

/-- The PRBS-15 words of MEASURE (R113). -/
def prbsWord (reg : Nat) : W16 × Nat :=
  (List.range 16).foldl (fun a _ =>
    let b := (a.2 / 2 ^ 14 + a.2 / 2 ^ 13) % 2
    (BitVec.ofNat 16 (2 * a.1.toNat + b), (2 * a.2 + b) % 2 ^ 15)) ((0 : W16), reg)

def prbsWords (n reg : Nat) : List W16 :=
  match n with
  | 0 => []
  | k + 1 => (prbsWord reg).1 :: prbsWords k (prbsWord reg).2

/-- A full MEASURE (R81, R113). -/
def measureWords (drop : Nat) : List W16 := header opMeasure drop 0 :: prbsWords 256 0x7FFF

/-! ### Path delays (R64, R65, R112) -/

/-- p: half of the measured turnaround less two words at the rate of the MEASURE, in ns, held in 11 bits. -/
def oneWay (c2 : Bool) (turnaroundNs : Nat) : Nat :=
  (clampInt 0 2047 (roundHalfEven (3 * turnaroundNs - (if c2 then 50 else 100)) 6)).toNat

/-- A drop's q = Dmax − p; a delay not known counts as 0 (log entry 124). -/
def State.wantedQ (s : State) (g : Nat) : Nat := s.dmax (g / 32) - (s.drop g).delay.getD 0

/-- DD_QDELAY is written to a drop in an exchange of its own (R112, R514), unless the guard refuses it; q is on record as written, whatever the
answer (log entry 125). -/
def State.writeQ (s : State) (g : Nat) : State :=
  let q := s.wantedQ g
  let a := s.schedAccess .write g 0xFFFF09 1
  if (s.drop g).state = .retired then s
  else if !a.1 then a.2
  else (a.2.exchange g opWr 0xFFFF09 1 [BitVec.ofNat 16 q]).onDrop g fun d => { d with qdelay := q }

/-- A DD_QDELAY write queued with housekeeping, in place of an older one; the guard may refuse it to the scheduler (R423, R426). -/
def State.queueQ (s : State) (g : Nat) : State :=
  let a := s.schedAccess .write g 0xFFFF09 1
  if !a.1 then a.2
  else
    let h : HkItem := { who := .qdelay, drop := g % 32, op := opWr, addr := 0xFFFF09, len := 1, data := [BitVec.ofNat 16 (s.wantedQ g)], emg := false,
                        epoch := (s.pair 10).epoch }
    s.onSeg (g / 32) fun x => { x with hk := (x.hk.filter fun y => !(y.who == .qdelay && y.drop == g % 32)) ++ [h] }

/-- Housekeeping rewrites DD_QDELAY on every drop of a segment whose q has changed (R65, R243). A drop that nothing may be addressed to gets
its q with NEGOTIATION_FAIL_WAIT. -/
def State.setQdelays (s : State) (i : Nat) : State :=
  (s.segDrops i).foldl (fun s g =>
    let d := s.drop g
    if s.wantedQ g = d.qdelay ∨ d.negoFail.isSome ∨ d.state = .retired then s else s.queueQ g) s

/-! ### Negotiation (R113, R329) -/

/-- DD_MODE of a drop as the unit has it on record (R111). -/
def Drop.mode (d : Drop) : Nat := packFields [(if d.colant2 then 2 else 1, 14), (d.wafer, 12), (depthCode d.depth, 10)]

/-- The highest Wafer version the drop's capabilities and its limit in the map permit (R329). -/
def State.waferWanted (s : State) (g : Nat) : Nat :=
  let d := s.drop g
  let limit := tblGet 2 s.map.waferLimit g
  if d.cap 12 && decide (2 ≤ limit) then 2 else if d.cap 13 && decide (1 ≤ limit) then 1 else 0

/-- A drop's answer to a MEASURE, after its BUSY words (R84, R113). -/
def measureAnswer (n : Nat) (ws : List ColWord) : Answer := judge opMeasure n [] true (afterBusy n ws)

/-- A MEASURE passes: a count of 0, no wrong returned word, no CRC failure (R113). -/
def Answer.passes (a : Answer) : Bool := a == .mrsp (0 :: prbsWords 256 0x7FFF)

/-- The series of 16 MEASUREs ends at the first that does not pass. -/
def measureSeries (l : List Answer) : List Answer := (l.take ((l.takeWhile Answer.passes).length + 1)).take 16

/-- Words of one full MEASURE and its answer, with the turnaround (R81, R83, R244). -/
def measureCost (p : Nat) : Nat := 258 + 259 + 4 + ceilDiv (6 * p) 25

/-- Colant-2-rate words of a drop's housekeeping: inside a Whistle period of n words where drops in Colant-1 mode would hear them. -/
def State.sendC2 (s : State) (i n : Nat) (ws : List ColWord) : State :=
  if s.base2 i then s.sendWords i true ws else s.whistlePeriod i n ws

/-- The Wafer version written: each lower value after a NAK MODE; the number of NAKs before the ACK. -/
def waferTaken (wanted : Nat) (acks : List Bool) : Nat := wanted - ((acks.take (wanted + 1)).takeWhile (!·)).length

/-- The drop's answer to a write, after its BUSY words (R84). -/
def writeAnswer (n : Nat) (crc : Bool) (ws : List ColWord) : Answer := judge opWr n [] crc (afterBusy n ws)

/-- The drop acknowledges a write. -/
def acked (n : Nat) (crc : Bool) (ws : List ColWord) : Bool := writeAnswer n crc ws == .ack

/-- What the answer to a command of an exchange does: it ends NO_ANSWER, refreshes the drop, or counts in its window (R102, R250, R444, R452). -/
def State.heard (s : State) (g : Nat) (a : Answer) : State :=
  let s := if a.answered then s.answered (g / 32) else s
  let s := if a.refreshes then s.refreshed g else s
  if a.counts then s.countError 4 g else s

/-- DD_MODE.DEPTH on record; a change of it makes every tile UNKNOWN (R334). -/
def State.setDepth (s : State) (g bits : Nat) : State :=
  let s' := s.onDrop g fun d => { d with depth := bits }
  if (s.drop g).depth = bits then s' else s'.markUnknown g

/-- The link has passed: the drop stays in Colant-2 mode and takes its Wafer version and native depth, DD_MODE written for each value tried, until an
error retires the drop. A write that ends otherwise than in ACK is taken as NAK MODE, and the next lower value is written (log entry 151). Where the
guard refuses the write, WAFER 0 and the present depth stay. -/
def State.negotiated (s : State) (g : Nat) (answers : List Answer) : State :=
  let wanted := s.waferWanted g
  let w := waferTaken wanted ((List.range (wanted + 1)).map fun k => answers.getD k .silent == .ack)
  let a := s.schedAccess .write g 0xFFFF05 1
  if !a.1 then a.2.onDrop g fun d => { d with negoFail := none }
  else
    let s := a.2.setDepth g (depthBits (((s.drop g).desc.map fun x => field x.caps.toNat 7 6).getD 0))
    (List.range (wanted - w + 1)).foldl (fun s k =>
      if (s.drop g).state = .retired then s
      else
        let s := s.onDrop g fun d => { d with wafer := wanted - k, negoFail := none }
        (s.exchange g opWr 0xFFFF05 1 [BitVec.ofNat 16 (s.drop g).mode]).heard g (answers.getD k .silent)) s

/-- A failed negotiation: Colant-1 mode on record; nothing is addressed to the drop for 3 ms. -/
def State.negotiationFails (s : State) (g : Nat) : State :=
  (s.setMode g false).onDrop g fun d => { d with wafer := 0, negoFail := some s.tick }

/-- Negotiation of a found drop with DD_CAPS.LEVEL 0x2. Whatever the cable's length, its link runs in Colant-2 mode only where all 16 MEASUREs pass
(R73). Where the guard refuses the write of LEVEL there is no negotiation (R423, R426). -/
def State.negotiate (s : State) (g : Nat) (a : NegoAnswers) : State :=
  let d := s.drop g
  let w := s.schedAccess .write g 0xFFFF05 1
  if !d.found || d.state == .retired || (d.desc.map Descriptor.level).getD 1 != 2 then s
  else if !w.1 then w.2
  else
    let s := w.2.sendTo g opWr 0xFFFF05 1 [BitVec.ofNat 16 (packFields [(2, 14), (depthCode d.depth, 10)])] false
    let s := s.heard g (writeAnswer (g % 32) false a.level)
    if !acked (g % 32) false a.level then s.negotiationFails g
    else
      let s := s.setMode g true
      let run := measureSeries ((List.range 16).map fun k => measureAnswer (g % 32) (a.measures.getD k []))
      let s := s.sendC2 (g / 32) (16 * measureCost (d.delay.getD 520)) (run.flatMap fun _ => message (measureWords (g % 32)) true)
      let s := run.foldl (fun s x => s.heard g x) s
      if run.length = 16 ∧ run.all (·.passes) = true then s.negotiated g (a.wafer.map (writeAnswer (g % 32) true)) else s.negotiationFails g

/-- The costs, in w2, of the longest item of a negotiation: the write of LEVEL, the MEASUREs (all in one Whistle period where another drop is in
Colant-1 mode), the write of DD_MODE (R95, R113, R244). -/
def State.negotiationCost (s : State) (g p : Nat) : Nat :=
  let mixed := (s.segDrops (g / 32)).any fun h => h != g && !(s.drop h).colant2
  max (costW2 opWr 0xFFFF05 1 [0] false p) (max (if mixed then 16 * measureCost p + 8 else measureCost p) (costW2 opWr 0xFFFF05 1 [0] true p + 8))

/-- An exchange with drop g begins, once a Whistle period that has run out is closed and housekeeping has the wires. -/
def State.beginExchange (s : State) (g cost : Nat) : Option State :=
  let s := s.settleWhistle (g / 32)
  (s.exchangeFree g cost).map fun a => s.onArb (g / 32) fun _ => a

/-! ### A drop newly found (R112, R394, R456, R514) -/

/-- The state a drop found takes (R169): ACTIVE in an OPEN session of its owner, FALLBACK otherwise. -/
def State.foundState (s : State) (g : Nat) : DropState :=
  match s.owner g with
  | some p => if (s.part p).session = .opened then .active else .fallback
  | none => .fallback

/-- The telemetry words of a drop that offers K channels: descriptor, gain and offset of each; none for a K of 0 or above 15 (R394). -/
def telemetryWords (x : List W16) : List W16 :=
  match x with
  | c :: ws => if 1 ≤ c.toNat ∧ c.toNat ≤ 15 ∧ ws.length = 3 * c.toNat then ws else []
  | [] => []

/-- The answer to the read of the telemetry static words, 1 + 3K of them by the K it begins with (R84, R394). -/
def telemetryAnswer (n : Nat) (crc : Bool) (ws : List ColWord) : Answer :=
  let body := afterBusy n ws
  let k := (((body.drop 1).head?).map (·.data.toNat)).getD 0
  judge opRdb n (if k ≤ 15 then [1 + 3 * k] else (List.range 16).map fun j => 1 + 3 * j) crc body

/-- The words an answer carries. -/
def Answer.words : Answer → List W16
  | .rdata ws _ => ws
  | _ => []

/-- How one RDB of the descriptor ends (R112). -/
inductive Attempt where
  | good (ws : List W16)
  | silent
  | bad
  deriving DecidableEq, Repr

/-- Judge the words received in an attempt's span: nothing but released lanes, an RDATA of 11 good words from the drop number, or anything
else (R77, R112). BUSY words may come before the RDATA as before any response (R84, log entry 134). -/
def attemptOf (n : Nat) (ws : List ColWord) : Attempt :=
  let core := (((ws.dropWhile released).reverse).dropWhile released).reverse
  if core.isEmpty then .silent
  else match judge opRdb n [11] false (afterBusy n core) with
    | .rdata body _ => .good body
    | _ => .bad

/-- What a drop number's attempts come to (R112). -/
inductive DropRead where
  | found (ws : List W16)
  | empty
  | conflict
  deriving DecidableEq, Repr

/-- The words of the first good attempt, and its place. -/
def firstGood (l : List Attempt) : Option (List W16 × Nat) :=
  l.zipIdx.findSome? fun x => match x.1 with
    | .good ws => some (ws, x.2)
    | _ => none

/-- The result of a drop number's attempts and how many were made: none after a silent first one, at most three (R112). -/
def readResult (l : List Attempt) : DropRead × Nat :=
  match l with
  | [] => (.empty, 1)
  | .silent :: _ => (.empty, 1)
  | a :: rest => match firstGood ((a :: rest).take 3) with
    | some (ws, k) => (.found ws, k + 1)
    | none => (.conflict, 3)

/-- The descriptor as its eleven words give it (R109). -/
def descriptorOf (ws : List W16) : Descriptor :=
  let w := fun n => ws.getD n 0
  { ident := w 0, model := w 1, caps := w 2, width := w 3, height := w 4, mode := w 5, status := w 6, attnCause := w 7, attnEn := w 8,
    qdelay := w 9, keepalive := w 10 }

/-- One attempt after another, k of them at most, to read a drop number's descriptor; l is what came in their spans. Bad ones count in the drop's
window, and so does a silent one of a number that has answered before; a drop they retire is not addressed again (R112, R452, R453). What the guard
refuses is not sent (R423, R426, log entry 141). -/
def State.readAttempts (k : Nat) (s : State) (g : Nat) (l : List (List ColWord)) (first : Bool) : State × DropRead :=
  match k with
  | 0 => (s, .conflict)
  | k + 1 =>
    let a := s.schedAccess .read g 0xFFFF00 11
    if !a.1 then (a.2, .empty)
    else
      let s := a.2.sendTo g opRdb 0xFFFF00 11 [] false
      match attemptOf (g % 32) (l.headD []) with
      | .good ws => (s.answered (g / 32), .found ws)
      | x =>
        let silent := first && x == .silent
        let s := if silent && !(s.drop g).found then s else s.countError 4 g
        if silent || ((s.drop g).state == .retired && k != 0) then (s, .empty) else s.readAttempts k g (l.drop 1) false

/-- The RDBs of a drop number's descriptor, and their result. -/
def State.readDrop (s : State) (g : Nat) (x : Discovery) : State × DropRead := s.readAttempts 3 g x.attempts true

/-- The longest item of an exchange with a drop treated as newly found, by the LEVEL of the descriptor read and the telemetry words there are (R514). -/
def State.discoverCost (s : State) (g : Nat) (x : Discovery) : Nat :=
  let level := match (readResult (x.attempts.map (attemptOf (g % 32)))).1 with
    | .found ws => Descriptor.level (descriptorOf ws)
    | _ => 1
  let tlm := (telemetryWords (telemetryAnswer (g % 32) (level == 2) x.telemetry).words).length
  max (max (costW2 opRdb 0xFFFF00 11 [] false 520) (costW2 opRdb 0xFFFF20 (1 + tlm) [] false 520)) (if level = 2 then s.negotiationCost g 520 else 0)

/-- A panel's reference copy and pictures stay where its size is the same; the refinement pointers start at group 0 (R333, R350). -/
def WaferDrop.enumerated (w : WaferDrop) (same : Bool) : WaferDrop :=
  if same then { w with pointer := [], outs := [] } else { w with pointer := [], outs := [], ref := [], prevCodes := [], changed := [], unsettled := [], lastShift := [] }

/-- Descriptors of panels of one size and kind. -/
def samePanel (a b : Descriptor) : Bool := a.width == b.width && a.height == b.height && Descriptor.chan a == Descriptor.chan b

/-- A drop whose descriptor has been read is on record, in Colant-1 mode and not yet measured (R107, R112, R514). Its charge stays while a calendar
names it (R360, R362, log entry 139). -/
def State.record (s : State) (g : Nat) (x : Descriptor) : State :=
  let held := s.holdsSlots g
  s.onDrop g fun d =>
    { d with desc := some x, charge := if held then d.charge else some x, attnEn := x.attnEn, depth := depthBits (field x.mode.toNat 11 10), wafer := 0,
             delay := none, qdelay := 0, refreshTick := s.tick, tlmStatic := [], tlmDue := none, tlmLater := none, discardLoss := true,
             pollTimeouts := 0, c2Silent := 0, renewDue := false, negoFail := none, expected := [], waf := d.waf.enumerated (d.desc.any (samePanel x)) }

/-- The delay-only MEASURE of a drop found; one without an answer is a Colant timeout (R112, R452). -/
def State.measureDrop (s : State) (g : Nat) (x : Discovery) : State :=
  if (s.drop g).state = .retired then s
  else
    let s := (s.sendTo g opMeasure 0 1 [] false).onDrop g fun d => { d with delay := x.turnaroundNs.map (oneWay false), pMeasTick := s.tick }
    if x.turnaroundNs.isSome then s.answered (g / 32) else s.countError 4 g

/-- Runs of words that may be read: first and number. -/
def okRuns (oks : List Bool) : List (Nat × Nat) :=
  (oks.zipIdx.foldl (fun acc e =>
    if !e.1 then acc
    else match acc with
      | (a, m) :: rest => if a + m = e.2 then (a, m + 1) :: rest else (e.2, 1) :: (a, m) :: rest
      | [] => [(e.2, 1)]) []).reverse

/-- A read of len words by the segment schedulers, split as the guard divides it: what may be read is, and for each word whether it may (R423, R437). -/
def State.readRuns (s : State) (g addr len : Nat) : State × List Bool :=
  let oks := (List.range len).map fun n => s.blockOk .read 2 (colantAddr (g / 32) (g % 32) (addr + n))
  let t := (s.schedAccess .read g addr len).2
  ((okRuns oks).foldl (fun t r => t.exchange g (if r.2 = 1 then opRd else opRdb) (addr + r.1) r.2 []) t, oks)

/-- The telemetry static words are read (R394); a word the guard refuses is read as 0 (R437, log entry 141). -/
def State.readStatic (s : State) (g : Nat) (answer : List ColWord) : State :=
  let a := telemetryAnswer (g % 32) (s.drop g).colant2 answer
  let r := s.readRuns g 0xFFFF20 (max 1 a.words.length)
  let s := if r.2.any id then r.1.heard g a else r.1
  let tlm := telemetryWords ((a.words.zip r.2).map fun w => if w.2 then w.1 else 0)
  s.onDrop g fun d => { d with tlmStatic := tlm, tlmLater := none,
                               tlmDue := if tlm.isEmpty || d.tlmInt = 0 || d.state = .retired then none else some s.tick }

/-- The telemetry static words are read, or will be once a failed negotiation's 3 ms and its read of DD_MODE are over (R113, R514, log entry
136). -/
def State.readTelemetry (s : State) (g : Nat) (x : Discovery) : State :=
  if (s.drop g).state == .retired then s
  else if (s.drop g).negoFail.isSome then s.onDrop g fun d => { d with tlmLater := some x.telemetry }
  else s.readStatic g x.telemetry

/-- A drop's tiles after it has been negotiated again, or found again without negotiation: all UNKNOWN, the renegotiation a cause of its own (R334). -/
def State.renewTiles (s : State) (g : Nat) : State :=
  let p := s.panel g
  if ((s.drop g).desc.map Descriptor.level).getD 1 = 2 then s.markUnknown g
  else s.onWaf g fun w => { w with unknown := List.range (p.tw * p.nb) }

/-- A drop treated as newly found, its descriptor read: measured, given its q, negotiated, its telemetry read (R456, R514). -/
def State.discover (s : State) (g : Nat) (d : Descriptor) (x : Discovery) : State :=
  let s := (((s.record g d).measureDrop g x).writeQ g).setQdelays (g / 32)
  ((s.negotiate g x.nego).renewTiles g).readTelemetry g x

/-- A drop number that gave no answer: ABSENT; what the bridge holds for it fails (R198, R514). What it was when last enumerated stays on
record: its entries stay charged (R360, R362). -/
def State.loseDrop (s : State) (g : Nat) : State :=
  let s := s.remix (g / 32) fun s => s.onDrop g fun d =>
    { d with state := .absent, colant2 := false, wafer := 0, delay := none, activeAt := none, passes := [], renewDue := false,
             negoFail := none, tlmStatic := [], tlmDue := none, tlmLater := none }
  let s := s.onSeg (g / 32) fun x => { x with hk := x.hk.filter fun h => h.drop != g % 32 }
  ((((s.invalidateDrop g).suspendPrefetch g).failNoDropAll fun i n => i * 32 + n == g).signalSeg (g / 32) 2).updateTakeover

/-! ### DROP_QUERY (R503) -/

def dropObject (e : BitVec 512) : List (Bool × Nat) := [objectCheck e 0 2047]

def execDropQuery (p : PartId) (r : RingId) (s : State) : Res :=
  ringCmd s p r 0x20 false [] dropObject fun s e =>
    let g := entryObject e
    let d := s.drop g
    let st := s.dropState g
    let status := d.latched.toNat + d.lastStat.toNat * 2 ^ 13
    let body := d.desc.filter fun _ => st != .absent
    checked s [ownDrop s p g]
      (.reply { res0 := packFields (match body with
                  | some x => [(status, 0), (x.caps.toNat, 16), (d.mode, 32), (st.code, 48)]
                  | none => [(st.code, 48)]),
                res1 := some (packFields (match body with
                  | some x => [(x.width.toNat, 0), (x.height.toNat, 16), (d.delay.getD 0, 32), (x.keepalive.toNat, 48)]
                  | none => [])) }
        (s.onDrop g fun d => { d with latched := 0 }))

/-! ### DROP_RESTORE (R456, R504) -/

def execDropRestore (p : PartId) (r : RingId) (s : State) : Res :=
  ringCmd s p r 0x21 false [] dropObject fun s e =>
    let g := entryObject e
    let st := s.dropState g
    checked s [ownDrop s p g,
               failIf (st != .retired || (s.seg (g / 32)).retired || (s.drop g).restoring) (replyConflict typeDrop st.code g)]
      (.hold (.restore g) (((s.clearWindow 4 g).markUnknown g).onDrop g fun d => { d with restoring := true }))

/-- The restore sequence has ended for drop g: found, not found, or RETIRED again by the errors of its own answers. A segment retired meanwhile keeps
the drop RETIRED. -/
def State.restored (s : State) (g : Nat) (x : Discovery) : State :=
  let s := s.onDrop g fun d => { d with restoring := false }
  if (s.seg (g / 32)).retired then s
  else
    let s := (s.setLive (0x080 + g) false).occurRestore (0x080 + g)
    let lapsed : Bool := match s.owner g with
      | some p => (s.part p).session == .lapsed
      | none => false
    let s := s.remix (g / 32) fun s => s.onDrop g fun d =>
      { d with state := if lapsed then .fallback else .active, activeAt := none, colant2 := false }
    let (s, r) := (s.suspendPrefetch g).readDrop g x
    if (s.drop g).state == .retired then s.updateTakeover
    else match r with
    | .found ws => ((s.discover g (descriptorOf ws) x).signalSeg (g / 32) 2).updateTakeover
    | _ => s.loseDrop g

/-- The 3 ms after a failed negotiation, in which nothing is addressed to the drop, are over (R113). -/
def State.quietOver (s : State) (g : Nat) : Bool := ((s.drop g).negoFail.map fun t => s.past t (ticksOfMs 3)).getD true

/-- DROP_RESTORE_END: the restore's exchange is made once housekeeping has the wires and no failed negotiation keeps the drop quiet, and not at all on
a segment retired meanwhile; the command completes with the drop's new state code; a CLOSE_SESSION that waited goes on. -/
def execDropRestoreEnd (p : PartId) (r : RingId) (answers : Discovery) (s : State) : Res :=
  match (s.ring p r).wait with
  | some (.restore g) =>
    let go := fun (s : State) =>
      let s := s.restored g answers
      Host.Outcome.next ((s.endWait p r (replyOk (s.dropState g).code)).resumeClose p)
    if (s.seg (g / 32)).retired then go s
    else if !s.quietOver g then .next s
    else
      match s.beginExchange g (s.discoverCost g answers) with
      | some s => go s
      | none => .next s
  | _ => .next s

end Sys2Proof.Machine
end

