-- ==== Sys2Proof/Machine/SurfaceCmd.lean ====
section
/-! DEFINITION. Images (R300–R302, R498), layers and surfaces (R292–R295), SURFACE_QUERY (R326), wall canvases (R303, R304). -/

namespace Sys2Proof.Machine

/-! ### Images -/

def State.onImage (s : State) (p k : Nat) (f : HostImage → HostImage) : State :=
  s.onPart p fun x =>
    match tblFind x.images k with
    | some i => { x with images := tblPut x.images k (f i) }
    | none => x

/-- The passes begun and not ended that read the image with a number: drop and T (R302). -/
def State.imageReaders (s : State) (uid : Nat) : List (Nat × Nat) :=
  s.drops.flatMap fun e => (e.2.passes.filter fun x => x.imageIds.contains uid).map fun x => (e.1, x.tNs)

def imageCreateLayout : List (Nat × Nat) := [(bitPos 0x10 0, 8), (bitPos 0x11 0, 8), (bitPos 0x14 0, 16), (bitPos 0x16 0, 16)]

def imageCreateChecks (e : BitVec 512) : List (Bool × Nat) :=
  [objectCheck e 0 1023, (outside (entryField e 0x10 0 8) 1 2, bitPos 0x10 0), (decide (7 < entryField e 0x11 0 8), bitPos 0x11 0),
   (outside (entryField e 0x14 0 16) 1 8192, bitPos 0x14 0), (outside (entryField e 0x16 0 16) 1 8192, bitPos 0x16 0)]

def execImageCreate (p : PartId) (r : RingId) (s : State) : Res :=
  ringCmd s p r 0x28 false imageCreateLayout imageCreateChecks fun s e =>
    let k := entryObject e
    let w := entryField e 0x14 0 16
    let h := entryField e 0x16 0 16
    checked s [failIf (s.image p k).isSome (replyConflict typeImage 1 k), failIf (!s.fits (imageAlloc w h)) replyResource]
      (let n := s.newId
       let img : HostImage := {
         uid := n.1, format := entryField e 0x10 0 8, colour := entryField e 0x11 0 8, width := w, height := h,
         visible := List.replicate (w * h) 0, pending := none, completed := false }
       .reply (replyOk (imageAlloc w h)) (n.2.onPart p fun x => { x with images := tblPut x.images k img }))

def imageWriteLayout : List (Nat × Nat) :=
  [(bitPos 0x10 0, 64), (bitPos 0x18 0, 32), (bitPos 0x1C 0, 16), (bitPos 0x1E 0, 16), (bitPos 0x20 0, 16), (bitPos 0x22 0, 16)]

/-- Step 1 of IMAGE_WRITE; the rectangle is held against the image where it exists. -/
def imageWriteChecks (s : State) (p : Nat) (e : BitVec 512) : List (Bool × Nat) :=
  let pitch := entryField e 0x18 0 32
  let w := entryField e 0x20 0 16
  let h := entryField e 0x22 0 16
  let i := s.image p (entryObject e)
  [objectCheck e 0 1023, (entryField e 0x10 0 2 != 0, bitPos 0x10 0), (pitch % 4 != 0 || decide (pitch < 4 * w), bitPos 0x18 0),
   (w == 0 || i.any fun i => decide (i.width < entryField e 0x1C 0 16 + w), bitPos 0x20 0),
   (h == 0 || i.any fun i => decide (i.height < entryField e 0x1E 0 16 + h), bitPos 0x22 0)]

/-- IMAGE_WRITE: one read for each line leaves (R301, R498). -/
def execImageWrite (p : PartId) (r : RingId) (s : State) : Res :=
  ringCmd s p r 0x29 false imageWriteLayout (imageWriteChecks s p) fun s e =>
    let w := entryField e 0x20 0 16
    checked s [failIf (s.image p (entryObject e)).isNone replyNotOwner]
      (let k := s.startCmdReads p r
         ((List.range (entryField e 0x22 0 16)).map fun n => (entryField e 0x10 0 64 + n * entryField e 0x18 0 32, 4 * w))
       .hold k.1 k.2)

/-- A rectangle of pixels put into a picture of width iw. -/
def putRect (pix : List W32) (iw x y w : Nat) (new : List W32) : List W32 :=
  pix.zipIdx.map fun q =>
    let px := q.2 % iw
    let py := q.2 / iw
    if x ≤ px ∧ px < x + w ∧ y ≤ py ∧ (py - y) * w + (px - x) < new.length then new.getD ((py - y) * w + (px - x)) 0 else q.1

/-- The reads of an IMAGE_WRITE have ended (R301). Where the image has been destroyed meanwhile the bytes go nowhere; the completion is the same, as
no status of the opcode fits (R507, log entry 150). -/
def State.imageWriteEnd (s : State) (p r : Nat) (e : BitVec 512) (got : List (Nat × List Byte)) (failed : Bool) : State :=
  let k := entryObject e
  let s := s.composeFirst p
  match s.image p k with
  | none => s.endWait p r (replyOk (if failed then 0 else (gotBytes got).length))
  | some i =>
    if failed then (s.onImage p k fun i => { i with pending := none, completed := false }).endWait p r (replyOk 0)
    else
      let bytes := gotBytes got
      let new := (dwordsOf bytes).map fun d => BitVec.ofNat 32 d
      let pix := putRect (i.pending.getD i.visible) i.width (entryField e 0x1C 0 16) (entryField e 0x1E 0 16) (entryField e 0x20 0 16) new
      (s.onImage p k fun i => { i with pending := some pix, completed := true }).endWait p r (replyOk bytes.length)

def execImageDestroy (p : PartId) (r : RingId) (s : State) : Res :=
  ringCmd s p r 0x2A false [] (fun e => [objectCheck e 0 1023]) fun s e =>
    let k := entryObject e
    let s := s.composeFirst p
    match s.image p k with
    | none => .reply replyNotOwner s
    | some i =>
      (let s := s.holdGone p { bytes := imageAlloc i.width i.height, stream := none, readers := s.imageReaders i.uid }
       .reply (replyOk 0) ((s.orphanPages p .image k).onPart p fun x => { x with images := tblErase x.images k }))

/-! ### LAYER_SET (R293, R294) -/

def layerLayout : List (Nat × Nat) :=
  [(bitPos 0x10 0, 8), (bitPos 0x11 0, 8), (bitPos 0x12 0, 8), (bitPos 0x13 0, 4), (bitPos 0x14 0, 16), (bitPos 0x16 0, 16),
   (bitPos 0x18 0, 16), (bitPos 0x1A 0, 16), (bitPos 0x1C 0, 16), (bitPos 0x1E 0, 16), (bitPos 0x20 0, 32), (bitPos 0x24 0, 32),
   (bitPos 0x28 0, 16), (bitPos 0x2A 0, 16), (bitPos 0x2C 0, 16), (bitPos 0x2E 0, 16), (bitPos 0x30 0, 16), (bitPos 0x32 0, 8)]

/-- OBJECT's range follows TARGET (R495). -/
def targetCheck (e : BitVec 512) (canvas : Bool) : Bool × Nat := objectCheck e 0 (if canvas then 63 else 2047)

/-- A ratio is judged where DST gives one; a solid page's FILTER is ignored (R293, R294, log entry 113). -/
def layerChecks (e : BitVec 512) : List (Bool × Nat) :=
  let src := entryField e 0x12 0 8
  let fit := entryField e 0x13 1 1 == 1
  let half := fun o => entryField e o 0 16
  let bound := src == 1 || src == 2
  let rect := [0x18, 0x1A, 0x1C, 0x1E]
  [targetCheck e (entryField e 0x13 0 1 == 1), (decide (3 < entryField e 0x10 0 8), bitPos 0x10 0), (decide (15 < entryField e 0x11 0 8), bitPos 0x11 0),
   (decide (3 < src), bitPos 0x12 0), (src != 3 && entryField e 0x13 2 2 == 3, bitPos 0x13 2),
   ((src == 1 && decide (255 < half 0x14)) || (src == 2 && decide (1023 < half 0x14)) || (src == 3 && half 0x14 != 0), bitPos 0x14 0),
   (decide (4096 < half 0x16), bitPos 0x16 0),
   (bound && !fit && half 0x28 != 0 && ratioBad (half 0x1C) (half 0x28), bitPos 0x1C 0),
   (bound && !fit && half 0x2A != 0 && ratioBad (half 0x1E) (half 0x2A), bitPos 0x1E 0),
   (outside (half 0x28) 1 32768, bitPos 0x28 0), (outside (half 0x2A) 1 32768, bitPos 0x2A 0),
   (decide (4096 < half 0x2C), bitPos 0x2C 0), (decide (4096 < half 0x2E), bitPos 0x2E 0), (decide (4096 < half 0x30), bitPos 0x30 0),
   (decide (7 < entryField e 0x32 0 8), bitPos 0x32 0)]
    ++ rect.map fun o => ((src == 3 || (bound && fit)) && half o != 0, bitPos o 0)

/-- The page a LAYER_SET binds; none for SOURCE 0x0. -/
def layerPage (e : BitVec 512) : Option Page :=
  let src := entryField e 0x12 0 8
  let half := fun o => entryField e o 0 16
  if src = 0 then none
  else some {
    source := if src = 1 then .stream else if src = 2 then .image else .solid, fit := entryField e 0x13 1 1 == 1,
    filter := entryField e 0x13 2 2, srcIndex := half 0x14, opacity := half 0x16, srcX := half 0x18, srcY := half 0x1A,
    srcW := half 0x1C, srcH := half 0x1E, dstX := signedOf (entryField e 0x20 0 32) 32, dstY := signedOf (entryField e 0x24 0 32) 32,
    dstW := half 0x28, dstH := half 0x2A, solid := [half 0x2C, half 0x2E, half 0x30], solidColour := entryField e 0x32 0 8, gone := false }

/-- Bind or empty page n of layer l. -/
def Surface.setPage (f : Surface) (l n : Nat) (x : Option Page) : Surface :=
  { f with pages := match x with
      | some y => tblPut f.pages (l * 16 + n) y
      | none => tblErase f.pages (l * 16 + n) }

/-- The source a page names belongs to the partition (R26). -/
def State.sourceOwned (s : State) (p : Nat) (x : Option Page) : Bool :=
  match x with
  | none => true
  | some y =>
    match y.source with
    | .stream => (s.slotOf p y.srcIndex).isSome
    | .image => (s.image p y.srcIndex).isSome
    | .solid => true

/-- The canvas with index k, if partition p holds it. -/
def State.canvasOf (s : State) (p k : Nat) : Option Canvas := (tblFind s.canvases k).filter fun c => c.part == p

def layerAct (p : Nat) (s : State) (e : BitVec 512) : CmdOut :=
  let s := s.composeFirst p
  let k := entryObject e
  let page := layerPage e
  let own := failIf (!s.sourceOwned p page) replyNotOwner
  let put := fun (f : Surface) => f.setPage (entryField e 0x10 0 8) (entryField e 0x11 0 8) page
  if entryField e 0x13 0 1 = 1 then
    match s.canvasOf p k with
    | none => .reply replyNotOwner s
    | some c =>
      let t := (s.onCanvas k fun c => { c with surface := put c.surface }).recharge c.drops
      checked s (own :: t.admitCompose p ((c.members.map (·.1)).headD 0 / 32)) (.reply (replyOk 0) t)
  else
    let t := (s.onSurf k put).recharge [k]
    checked s ([ownDrop s p k, own, notRetired s k, dropPresent s k] ++ t.admitCompose p (k / 32)) (.reply (replyOk 0) t)

def execLayerSet (p : PartId) (r : RingId) (s : State) : Res := ringCmd s p r 0x30 false layerLayout layerChecks (layerAct p)

/-! ### SURFACE_SET (R295) -/

def surfaceLayout : List (Nat × Nat) :=
  [(bitPos 0x10 0, 4), (bitPos 0x11 0, 4), (bitPos 0x12 0, 16), (bitPos 0x14 0, 8), (bitPos 0x15 0, 1), (bitPos 0x18 0, 20),
   (bitPos 0x1C 0, 20), (bitPos 0x20 0, 20)]

/-- The items of a surface that MASK names; BRIGHT is separate, since a canvas has none. -/
def Surface.apply (f : Surface) (e : BitVec 512) : Surface :=
  let m := entryField e 0x10 0 4
  { f with layerEn := if bitOf m 0 then BitVec.ofNat 4 (entryField e 0x11 0 4) else f.layerEn,
           sel := if bitOf m 1 then BitVec.ofNat 16 (entryField e 0x12 0 16) else f.sel,
           background := if bitOf m 3 then [entryField e 0x18 0 20, entryField e 0x1C 0 20, entryField e 0x20 0 20] else f.background }

def Surface.applyBright (f : Surface) (e : BitVec 512) : Surface :=
  { f with bright := if bitOf (entryField e 0x10 0 4) 2 then BitVec.ofNat 8 (entryField e 0x14 0 8) else f.bright }

def execSurfaceSet (p : PartId) (r : RingId) (s : State) : Res :=
  ringCmd s p r 0x31 false surfaceLayout (fun e => [targetCheck e (entryField e 0x15 0 1 == 1)]) fun s e =>
    let s := s.composeFirst p
    let k := entryObject e
    if entryField e 0x15 0 1 = 1 then
      match s.canvasOf p k with
      | none => .reply replyNotOwner s
      | some c =>
        let s := (s.settleCanvas k c).onCanvas k fun c => { c with surface := c.surface.apply e }
        .reply (replyOk 0) (c.drops.foldl (fun s g => (s.settleGates g).onSurf g (·.applyBright e)) s)
    else
      checked s [ownDrop s p k, notRetired s k, dropPresent s k]
        (.reply (replyOk 0) ((s.settleGates k).onSurf k fun f => (f.apply e).applyBright e))

/-! ### SURFACE_QUERY (R326) -/

def SatCounters.list (c : SatCounters) : List Nat :=
  [c.scale, c.inmat, c.gamut, c.cal, c.unif, c.oetf, c.dither].map (·.toNat)

def State.surfaceRecord (s : State) (g : Nat) : List Byte :=
  let d := s.drop g
  let f := d.latchedSurface
  let known := d.desc.isSome
  recordBytes ([packFields [((s.dropState g).code, 0), (if known then d.depth else 0, 8), (b2n (d.chan == 3), 23), (b2n d.calValid, 24), (b2n d.canvas.isSome, 25),
      (d.canvas.getD 0, 26)],
    packFields [(f.sel.toNat, 0), (f.layerEn.toNat, 20), (f.bright.toNat, 24)]] ++ d.sat.list
    ++ [d.composeLate.toNat, if known then d.calCrc.toNat else 0, 0] ++ qword d.lastK ++ qword (d.lastT.getD 0))

/-- SURFACE_QUERY: legal in every drop state, RETIRED while a DROP_RESTORE of the drop runs (R326, R504, log entry 121). -/
def execSurfaceQuery (p : PartId) (r : RingId) (s : State) : Res :=
  ringCmd s p r 0x32 false [(bitPos 0x10 0, 64), (bitPos 0x18 0, 1)] (fun e => [objectCheck e 0 2047, recordCheck e]) fun s e =>
    let g := entryObject e
    checked s [ownDrop s p g, failIf (s.drop g).restoring replyRetired]
      (let t := s.writeRecord p (entryField e 0x10 0 64) (s.surfaceRecord g)
       .reply (replyOk 0) (if entryField e 0x18 0 1 = 1 then t.onDrop g fun d => { d with sat := {}, composeLate := 0 } else t))

/-! ### Canvases (R303, R304, R498) -/

def canvasLayout : List (Nat × Nat) := [(bitPos 0x10 0, 16), (bitPos 0x12 0, 16), (bitPos 0x14 0, 16), (bitPos 0x18 0, 64)]

def canvasChecks (e : BitVec 512) : List (Bool × Nat) :=
  [objectCheck e 0 63, (outside (entryField e 0x10 0 16) 1 32768, bitPos 0x10 0), (outside (entryField e 0x12 0 16) 1 32768, bitPos 0x12 0),
   (outside (entryField e 0x14 0 16) 1 256, bitPos 0x14 0), (entryField e 0x18 0 3 != 0, bitPos 0x18 0)]

/-- The member table's read can be made. -/
def canvasReadable (e : BitVec 512) : Bool := !outside (entryField e 0x14 0 16) 1 256 && entryField e 0x18 0 3 == 0

/-- Members of a table, and whether its reserved bits are 0. -/
def memberTable (bytes : List Byte) (n : Nat) : List (Nat × Int × Int) × Bool :=
  let ds := dwordsOf bytes
  ((List.range n).map fun k => (ds.getD (2 * k) 0 % 2048, signedOf (ds.getD (2 * k + 1) 0) 16, signedOf (ds.getD (2 * k + 1) 0 / 65536) 16),
   (List.range n).all fun k => decide (ds.getD (2 * k) 0 < 2048))

/-- Conditions of R303 that complete BAD_PARAM; they are reported at TABLE. -/
def State.membersBad (s : State) (w h : Nat) (l : List (Nat × Int × Int)) : Bool :=
  let key := fun (m : Nat × Int × Int) => (s.cycleUs (m.1 / 32), s.phaseUs (m.1 / 32))
  l.any (fun m => decide (m.2.1 < 0) || decide (m.2.2 < 0) || decide ((w : Int) < m.2.1 + (s.drop m.1).width)
      || decide ((h : Int) < m.2.2 + (s.drop m.1).height))
    || !(l.map (·.1)).Nodup || decide (1 < (l.map key).dedup.length)

/-- Step 1 with the table read, and the rest of R151 for CANVAS_CREATE. -/
def canvasAct (p r : Nat) (s : State) (e : BitVec 512) (bytes : List Byte) : CmdOut :=
  let k := entryObject e
  let w := entryField e 0x10 0 16
  let h := entryField e 0x12 0 16
  let t := memberTable bytes (entryField e 0x14 0 16)
  let l := t.1
  match badField canvasLayout (canvasChecks e ++ [(canvasReadable e && (!t.2 || s.membersBad w h l), bitPos 0x18 0)]) e with
  | some b => .reply (replyBadParam b) s
  | none =>
    let held := tblFind s.canvases k
    let steps : List (Option Reply) := sessionCheck s p r 0x33 false
      ++ (l.map fun m => ownDrop s p m.1) ++ [failIf (held.isSome && (s.canvasOf p k).isNone) replyNotOwner]
      ++ (l.map fun m => notRetired s m.1)
      ++ (l.map fun m => dropPresent s m.1 <|> failIf ((s.drop m.1).canvas.any (· != k)) (replyConflict typeDrop (s.dropState m.1).code m.1))
      ++ [failIf held.isSome (replyConflict typeCanvas 1 k)]
    let t := s.composeFirst p
    let t : State := { t with canvases := tblPut t.canvases k { part := p, width := w, height := h, members := l } }
    let t := (l.foldl (fun s m => s.onDrop m.1 fun d => { d with canvas := some k }) t).recharge (l.map (·.1))
    checked s (steps ++ t.admitCompose p ((l.map (·.1)).headD 0 / 32)) (.reply (replyOk 0) t)

/-- CANVAS_CREATE: its table is read before step 1 (R498); a length or address that cannot be read fails step 1 at once. -/
def execCanvasCreate (p : PartId) (r : RingId) (s : State) : Res :=
  match s.turn p r 0x33 with
  | none => .next s
  | some e =>
    let s := s.onPart p fun x => { x with lastRing := r }
    .next (s.finish p r
      (if canvasReadable e then
        let k := s.startCmdReads p r [(entryField e 0x18 0 64, 8 * entryField e 0x14 0 16)]
        .hold k.1 k.2
      else canvasAct p r s e []))

/-- A command validated after its reads: its validation time is now (R149, R498). -/
def State.finishRead (s : State) (p r : Nat) (o : CmdOut) : State :=
  match o with
  | .reply x t => ((if x.status = 0 then t else s).complete p r x s.now).settleRings p
  | .hold w t => (t.onRing p r fun g => { g with wait := some w, validNs := s.now }).settleRings p

/-- The table's read has ended. -/
def State.canvasEnd (s : State) (p r : Nat) (e : BitVec 512) (got : List (Nat × List Byte)) (failed : Bool) : State :=
  s.finishRead p r (if failed then .reply (replyBadParam (bitPos 0x18 0)) s else canvasAct p r s e (gotBytes got))

def execCanvasDestroy (p : PartId) (r : RingId) (s : State) : Res :=
  ringCmd s p r 0x34 false [] (fun e => [objectCheck e 0 63]) fun s e =>
    let k := entryObject e
    match s.canvasOf p k with
    | none => .reply replyNotOwner s
    | some c =>
      let t := s.composeFirst p
      let t := c.members.foldl (fun s m => s.onDrop m.1 fun d => { d with canvas := none }) t
      .reply (replyOk 0) { t with canvases := tblErase t.canvases k }

end Sys2Proof.Machine
end

