-- ==== Sys2Proof/Machine/CalCmd.lean ====
section
/-! DEFINITION. Calendar commands (R172, R173, R228, R229), shapers (R252, R256, R499) and gate lists (R174, R237–R240, R502). -/

namespace Sys2Proof.Machine

/-! ### Calendars -/

def State.staged (s : State) (p i : Nat) : Staged := tblGet {} (s.seg i).staged p
def State.setStaged (s : State) (p i : Nat) (x : Staged) : State := s.onSeg i fun g => { g with staged := tblSet {} g.staged p x }

/-- ENTRY of a CAL_WRITE. -/
def calEntry (e : BitVec 512) : W64 := BitVec.ofNat 64 (entryField e 0x18 0 64)

def calLayout : List (Nat × Nat) :=
  [(bitPos 0x10 0, 16), (bitPos 0x18 4, 5), (bitPos 0x18 9, 3), (bitPos 0x18 12, 1), (bitPos 0x18 13, 3), (bitPos 0x18 16, 5),
   (bitPos 0x18 21, 20), (bitPos 0x18 41, 23)]

/-- Fields of a slot entry that CAL_WRITE refuses as BAD_PARAM, by bit of the entry (R225, R228, R385); of an idle entry START, LEN and
SHAPER are not judged (R226, log entry 32). -/
def slotFaults (x : Slot) (p S : Nat) : List (Bool × Nat) :=
  let busy := x.kind != 0
  [(busy && x.kind != 3 && x.shaper != 0, 4), (x.part != p, 9), ((x.kind == 2 || x.kind == 5) && x.rate == 0, 12),
   (x.kind == 6 || x.kind == 7, 13),
   (busy && (x.len == 0 || (x.kind == 3 && decide (x.len < 16)) || (x.kind == 4 && decide (x.len < 8))), 21),
   (busy && x.kind != 6 && (decide (x.start < 120) || decide (S < x.finish)), 41)]

def calChecks (s : State) (p : Nat) (e : BitVec 512) : List (Bool × Nat) :=
  let i := entryObject e
  [objectCheck e 0 63, (decide (511 < entryField e 0x10 0 16), bitPos 0x10 0)]
    ++ (slotFaults (entrySlot 0 (calEntry e)) p (s.cycS i)).map fun x => (x.1, bitPos 0x18 x.2)

/-- The index is held in the active calendar, or staged, by another partition or by the unit: for a Whistle period in effect, or one
derived and not yet swapped in (R228, R233). -/
def State.heldByOther (s : State) (p i k : Nat) : Bool :=
  let x := s.seg i
  ((tblFind x.calendar k).any fun w => (entrySlot k w).part != p || (entrySlot k w).kind == 6)
    || (x.changing && (tblFind (x.calendarAt x.lastDue).1 k).any fun w => (entrySlot k w).kind == 6)
    || x.staged.any fun t => t.1 != p && (tblFind t.2.changes k).isSome

def execCalWrite (p : PartId) (r : RingId) (s : State) : Res :=
  ringCmd s p r 0x50 false calLayout (calChecks s p) fun s e =>
    let i := entryObject e
    let s := s.settleCal i
    let k := entryField e 0x10 0 16
    let x := entrySlot k (calEntry e)
    let busy := x.kind != 0
    let g := i * 32 + x.drop
    let t := s.staged p i
    checked s [failIf (x.kind != 4 && !s.owns p g) replyNotOwner,
               failIf (x.kind == 3 && (s.shaper p x.shaper).isNone) replyNotOwner,
               failIf (s.heldByOther p i k) replyNotOwner,
               failIf ((s.seg i).retired || s.dropState g == .retired) replyRetired,
               failIf (t.state == .pending) (replyConflict typeCalendar t.state.code i)]
      (.reply (replyOk 0) (s.setStaged p i
        { state := .staged, changes := tblPut t.changes k (if busy then calEntry e else 0), due := 0 }))

/-- A partition's staged shadow is discarded; an index it had staged may be idle again, so a mixed segment's Whistle entries are derived
again (R172, R233). -/
def State.discardCal (s : State) (p i : Nat) : State :=
  let t := s.setStaged p i {}
  if t.mixed i && !(s.staged p i).changes.isEmpty then t.rederive i else t

def execCalDiscard (p : PartId) (r : RingId) (s : State) : Res :=
  ringCmd s p r 0x51 false [] (fun e => [objectCheck e 0 63]) fun s e =>
    let i := entryObject e
    let s := s.settleCal i
    let t := s.staged p i
    checked s [failIf (t.state != .staged) (replyConflict typeCalendar t.state.code i)] (.reply (replyOk 0) (s.discardCal p i))

/-- The state with partition p's changes on segment i committed for boundary due; Whistle entries are derived with them, and its drops are charged as
last enumerated (R173, R233, R362). -/
def State.commitCal (s : State) (p i due : Nat) : State :=
  let t := s.staged p i
  (((s.setStaged p i { t with state := .pending, due := due }).onSeg i fun x =>
    { x with vendor := x.vendor ++ [{ due := due, idle := none, mixed := s.mixed i }] }).recharge (s.recordedDrops i)).chargeColant i

/-- Steps 1–3 of R229 on the calendar a state has decided. -/
def State.wordsSteps (s : State) (i : Nat) : List (Option Reply) :=
  let x := s.seg i
  let cal := x.calendarAt x.lastDue
  let c2 := (s.segDrops i).any fun g => (s.drop g).colant2
  [(wordsCheck (slotsOf cal.1) (s.cycS i) (s.mixed i) c2).map (fun w => refused 0x01 i w.idx w.figure w.limit), failIf cal.2 replyResource]

/-- A staged entry's drop has become RETIRED. -/
def State.namesRetired (s : State) (i : Nat) (t : Tbl W64) : Bool :=
  t.any fun w => (entrySlot w.1 w.2).kind != 0 && s.dropState (i * 32 + (entrySlot w.1 w.2).drop) == .retired

def execCalCommit (p : PartId) (r : RingId) (s : State) : Res :=
  ringCmd s p r 0x52 false [] (fun e => [objectCheck e 0 63]) fun s e =>
    let i := entryObject e
    let s := s.settleCal i
    let t := s.staged p i
    let due := s.swapInstant i
    let c := s.commitCal p i due
    let x := c.seg i
    checked s ([failIf ((s.seg i).retired || s.namesRetired i t.changes) replyRetired, failIf (t.state != .staged) (replyConflict typeCalendar t.state.code i)]
        ++ c.wordsSteps i ++ c.admitCalendar p i (slotsOf (x.calendarAt x.lastDue).1))
      (.reply (replyOk due) c)

/-! ### Shapers -/

def shaperLayout : List (Nat × Nat) := [(bitPos 0x10 0, 32), (bitPos 0x14 0, 16)]
def shaperChecks (lo : Nat) (e : BitVec 512) : List (Bool × Nat) :=
  [objectCheck e lo 31, (outside (entryField e 0x10 0 32) 1 120000, bitPos 0x10 0), (outside (entryField e 0x14 0 16) 128 65535, bitPos 0x14 0)]

def execShaperCreate (p : PartId) (r : RingId) (s : State) : Res :=
  ringCmd s p r 0x60 false shaperLayout (shaperChecks 1) fun s e =>
    let k := entryObject e
    checked s [failIf (s.shaper p k).isSome (replyConflict typeShaper 1 k)]
      (.reply (replyOk 0) (s.onPart p fun x =>
        { x with shapers := tblPut x.shapers k { rate := entryField e 0x10 0 32, burst := entryField e 0x14 0 16 } }))

/-- SHAPER_SET keeps credit or debt, clamps it to the new BURST and finds the wheel bucket again (R256). -/
def Shaper.retune (x : Shaper) (rate burst now : Nat) : Shaper :=
  let y := { x with rate := rate, burst := burst, credit := min x.credit (burst * 100000 : Nat) }
  { y with bucket := y.bucketFor now }

def execShaperSet (p : PartId) (r : RingId) (s : State) : Res :=
  ringCmd s p r 0x61 false shaperLayout (shaperChecks 0) fun s e =>
    let k := entryObject e
    checked s [failIf (s.shaper p k).isNone replyNotOwner]
      (.reply (replyOk 0) (s.onShaper p k fun x => x.retune (entryField e 0x10 0 32) (entryField e 0x14 0 16) s.now))

/-- A segment where an active or staged entry of the partition names a shaper. -/
def State.shaperNamed (s : State) (p k : Nat) : Option Nat :=
  let names := fun (i : Nat) (w : W64) => (entrySlot i w).kind == 3 && (entrySlot i w).part == p && (entrySlot i w).shaper == k
  (s.segs.find? fun x => x.2.calendar.any (fun e => names e.1 e.2) || x.2.staged.any fun t => t.2.changes.any fun e => names e.1 e.2).map (·.1)

def execShaperDestroy (p : PartId) (r : RingId) (s : State) : Res :=
  ringCmd s p r 0x62 false [] (fun e => [objectCheck e 1 31]) fun s e =>
    let k := entryObject e
    let s := s.segs.foldl (fun s x => s.settleCal x.1) s
    checked s [failIf (s.shaper p k).isNone replyNotOwner,
               (s.shaperNamed p k).map fun i => replyConflict typeCalendar (s.staged p i).state.code i]
      (.reply (replyOk 0) (s.onPart p fun x => { x with shapers := tblErase x.shapers k }))

/-! ### Gate lists -/

def State.gate (s : State) (k : Nat) : Option GateList := tblFind s.gates k
def State.onGate (s : State) (k : Nat) (f : GateList → GateList) : State :=
  match s.gate k with
  | some g => { s with gates := tblPut s.gates k (f g) }
  | none => s

/-- The list by the validation time: a base that falls in this tick or before has been reached (R175). -/
def GateList.reached (g : GateList) (now : Nat) : GateList :=
  if g.state = .armed ∧ g.base ≤ now then { g with state := .running } else g

/-- The list with index k, if partition p holds it. -/
def State.gateOf (s : State) (p k : Nat) : Option GateList := (s.gate k).filter fun g => g.part == p

def gateCreateLayout : List (Nat × Nat) := [(bitPos 0x10 0, 64), (bitPos 0x18 0, 64)]
def gateObject (e : BitVec 512) : List (Bool × Nat) := [objectCheck e 0 255]

/-- Drops of a 256-byte group map. -/
def groupMap (bytes : List Byte) : List Nat := (List.range 2048).filter fun g => (bytes.getD (g / 8) 0).getLsbD (g % 8)

/-- GATE_LIST_CREATE with its group map read. -/
def gateCreateAct (p r : Nat) (s : State) (e : BitVec 512) (bytes : List Byte) : CmdOut :=
  let k := entryObject e
  let group := groupMap bytes
  let aligned := entryField e 0x18 0 3 == 0
  let checks := gateObject e ++ [(outside (entryField e 0x10 0 64) 1000000 604800000000000, bitPos 0x10 0),
    (!aligned || group.isEmpty, bitPos 0x18 0)]
  match badField gateCreateLayout checks e with
  | some b => .reply (replyBadParam b) s
  | none =>
    let held := s.gate k
    checked s (sessionCheck s p r 0x58 false ++ (group.map (ownDrop s p)) ++ [failIf (held.any fun g => g.part != p) replyNotOwner,
        held.map fun g => replyConflict typeGateList (g.reached s.now).state.code k])
      (.reply (replyOk 0) { s with gates := tblPut s.gates k { part := p, cycle := entryField e 0x10 0 64, group := group } })

/-- GATE_LIST_CREATE: its group map is read before step 1 (R498). -/
def execGateListCreate (p : PartId) (r : RingId) (s : State) : Res :=
  match s.turn p r 0x58 with
  | none => .next s
  | some e =>
    let s := s.onPart p fun x => { x with lastRing := r }
    .next (s.finish p r
      (if entryField e 0x18 0 3 = 0 then
        let k := s.startCmdReads p r [(entryField e 0x18 0 64, 256)]
        .hold k.1 k.2
      else gateCreateAct p r s e []))

def State.gateEnd (s : State) (p r : Nat) (e : BitVec 512) (got : List (Nat × List Byte)) (failed : Bool) : State :=
  s.finishRead p r (if failed then .reply (replyBadParam (bitPos 0x18 0)) s else gateCreateAct p r s e (gotBytes got))

/-- Fields of one entry at byte o. -/
def gateEntryLayout (o : Nat) : List (Nat × Nat) := [(bitPos o 0, 64), (bitPos (o + 8) 0, 8), (bitPos (o + 9) 0, 8), (bitPos (o + 10) 0, 16)]

def gateWriteLayout (e : BitVec 512) : List (Nat × Nat) :=
  [(bitPos 0x10 0, 8), (bitPos 0x11 0, 8)] ++ gateEntryLayout 0x20 ++ (if entryField e 0x11 0 8 = 2 then gateEntryLayout 0x30 else [])

def gateEntry (e : BitVec 512) (o : Nat) : GateEntry :=
  { offset := entryField e o 0 64, action := entryField e (o + 8) 0 8, target := entryField e (o + 9) 0 8, value := entryField e (o + 10) 0 16 }

def gateEntryChecks (g : Option GateList) (e : BitVec 512) (o : Nat) : List (Bool × Nat) :=
  let x := gateEntry e o
  [(g.any fun g => decide (g.cycle ≤ x.offset), bitPos o 0), (outside x.action 1 3, bitPos (o + 8) 0),
   (if x.action = 1 then decide (3 < x.target) else x.target != 0, bitPos (o + 9) 0),
   (decide ((if x.action = 3 then 255 else 15) < x.value), bitPos (o + 10) 0)]

/-- ENTRIES of a list (R502). -/
def GateList.count (g : GateList) : Nat := g.entries.length

def gateWriteChecks (s : State) (p : Nat) (e : BitVec 512) : List (Bool × Nat) :=
  let g := s.gateOf p (entryObject e)
  let first := entryField e 0x10 0 8
  let n := entryField e 0x11 0 8
  gateObject e ++ [(decide (63 < first) || decide (64 < first + n) || g.any fun g => decide (g.count < first), bitPos 0x10 0),
    (outside n 1 2, bitPos 0x11 0)] ++ gateEntryChecks g e 0x20 ++ (if n = 2 then gateEntryChecks g e 0x30 else [])

/-- A gate list of the partition in one of some states. -/
def onNamedGate (s : State) (p : Nat) (e : BitVec 512) (legal : List GateState) (f : Nat → GateList → CmdOut) : CmdOut :=
  let k := entryObject e
  match (s.gateOf p k).map (·.reached s.now) with
  | none => .reply replyNotOwner s
  | some g => if legal.contains g.state then f k g else .reply (replyConflict typeGateList g.state.code k) s

def execGateListWrite (p : PartId) (r : RingId) (s : State) : Res :=
  match s.turn p r 0x59 with
  | none => .next s
  | some e0 =>
    ringCmd s p r 0x59 false (gateWriteLayout e0) (gateWriteChecks s p) fun s e =>
      onNamedGate s p e [.idle] fun k _ =>
        let first := entryField e 0x10 0 8
        .reply (replyOk 0) (s.onGate k fun g =>
          let t := tblPut g.entries first (gateEntry e 0x20)
          { g with entries := if entryField e 0x11 0 8 = 2 then tblPut t (first + 1) (gateEntry e 0x30) else t })

/-- The OFFSETs strictly ascend by index, and there is one (R240). -/
def GateList.startable (g : GateList) : Bool :=
  !g.entries.isEmpty && (g.entries.zip (g.entries.drop 1)).all fun x => decide (x.1.2.offset < x.2.2.offset)

/-- The base in use: BASE, or rolled forward by whole cycles (R240). -/
def gateBase (base cycle v : Nat) : Nat :=
  if v + 2000000 ≤ base then base else base + ceilDiv (v + 2000000 - base) cycle * cycle

def execGateListStart (p : PartId) (r : RingId) (s : State) : Res :=
  ringCmd s p r 0x5A false [(bitPos 0x10 0, 64), (bitPos 0x18 0, 1)] gateObject fun s e =>
    let roll := entryField e 0x18 0 1 == 1
    let base := entryField e 0x10 0 64
    if roll && decide ((s.part p).level < 2) then .reply replyVersion s
    else
      onNamedGate s p e [.idle] fun k g =>
        checked s [failIf (!g.startable) (replyConflict typeGateList g.state.code k),
                   failIf (decide (base < s.now + 2000000) && !roll) replyPastBase]
          (let b := gateBase base g.cycle s.now
           .reply (replyOk b) ((s.composeFirst p).onGate k fun g => { g with state := .armed, base := b, rep := 0, next := 0, applied := [] }))

def execGateListStop (p : PartId) (r : RingId) (s : State) : Res :=
  ringCmd s p r 0x5B false [] gateObject fun s e =>
    onNamedGate s p e [.armed, .running] fun k _ => .reply (replyOk 0) ((s.composeFirst p).onGate k fun g => { g with state := .idle })

def execGateListDestroy (p : PartId) (r : RingId) (s : State) : Res :=
  ringCmd s p r 0x5C false [] gateObject fun s e =>
    onNamedGate s p e [.idle] fun k _ =>
      let t := s.composeFirst p
      .reply (replyOk 0) { t with gates := tblErase t.gates k }

/-! ### The reads of a command have ended (R498) -/

/-- COMMAND_READ_END: no read of the ring's command is outstanding any more. While a vendor core restarts, a command that adds load waits, and
each of a partition whose own core it is (R481). -/
def execCommandReadEnd (p : PartId) (r : RingId) (s : State) : Res :=
  let g := s.ring p r
  if !s.interprets p || s.loadWaits g then .next s
  else
  match g.wait, g.fetched with
  | some (.reads [] got failed), c :: _ =>
    let op := entryOpcode c.entry
    if op = 0x12 then .next (s.feedEnd p r c.entry got failed)
    else if op = 0x29 then .next (s.imageWriteEnd p r c.entry got failed)
    else if op = 0x33 then .next (s.canvasEnd p r c.entry got failed)
    else .next (s.gateEnd p r c.entry got failed)
  | _, _ => .next s

end Sys2Proof.Machine
end

