-- ==== Sys2Proof/Machine/Time.lean ====
section
/-! DEFINITION. The timebase: ticks (R54), shaper credit (R253), the references and their servo (R55–R61), steps (R61, R62), PPS OUT
(R63), the TB registers with effects (R56, R67–R69), and the measurement of path delays (R65). -/

namespace Sys2Proof.Machine

def second : Nat := 1000000000

def TbState.code : TbState → Nat
  | .freeRun => 0
  | .acquiring => 1
  | .locked => 2
  | .holdover => 3

/-! ### Rates and steps (R54, R55, R61, R62) -/

/-- The limit of RATE, ±10 ppm (R55). -/
def rateLimit : Int := 429497

/-- The wanted correction, in 10^-3 ppb, as RATE before saturation (R55). -/
def rateOf (milliPpb : Int) : Int := roundHalfEven (milliPpb * 42949672960) 1000000000000

/-- RATE as the registers hold it. -/
def rateWord (r : Int) : W32 := BitVec.ofInt 32 r

/-- Unit time with one more tick (R54). -/
def Timebase.advance (t : Timebase) : Timebase :=
  { t with tick := t.tick + 1, acc := t.acc + (10 : BitVec 96) <<< 32 + t.rate.signExtend 96 }

/-- Every partition's unit source of one kind signals (R400). -/
def State.signalParts (s : State) (kind : Nat) : State :=
  ((List.range 8).filter s.map.hasPart).foldl (fun s p => s.signalUnit p kind) s

/-- A cycle in progress completes under its old timing: its instants, its SYNC's among them, move with unit time (R62). -/
def Segment.stepped (x : Segment) (ns : Int) : Segment :=
  let f := fun (t : Nat) => ((t : Int) + ns).toNat
  if x.started then { x with cycleStartNs := f x.cycleStartNs, beginNs := f x.beginNs, endNs := f x.endNs, syncNs := x.syncNs.map f } else x

/-- The SYNC of segment i's cycle in progress is still to come, and its time lies in a jump of unit time by ns (R62). -/
def State.syncJumped (s : State) (i : Nat) (ns : Int) : Bool :=
  let x := s.seg i
  x.started && x.syncNs.isNone && decide (s.offsetNow i < s.cycS i)
    && decide (3 * (x.beginNs : Int) + 25 * s.cycS i ≤ 3 * ((s.now : Int) + ns))

/-- Where a step puts a presentation instant of segment i that passes have been begun for: the end of the cycle in progress moves with its old
timing, and the next cycle ends at its new place (R62). -/
def State.steppedT (s : State) (i : Nat) (ns : Int) (t : Nat) : Nat :=
  let x := s.seg i
  if !x.started || decide (t < x.endNs) then t
  else
    let e := ((x.endNs : Int) + ns).toNat
    if t = x.endNs then e else s.instantFrom i e + s.cycleNs i

/-- What the drop holds for presentation instants moves with them. -/
def Drop.stepped (d : Drop) (f : Nat → Nat) : Drop :=
  { d with backFor := d.backFor.map f, lateFor := d.lateFor.map f, lastT := d.lastT.map f, instantT := d.instantT.map f,
           passes := d.passes.map fun p => { p with tNs := f p.tNs } }

/-- The passes that hold a destroyed object's memory, named by drop and presentation instant, keep their names (R302). -/
def State.stepReaders (s : State) (ns : Int) (l : List (Nat × Nat)) : List (Nat × Nat) := l.map fun r => (r.1, s.steppedT (r.1 / 32) ns r.2)

/-- Unit time is stepped by an amount of ns; the timebase-step event is raised (R62). -/
def State.stepTime (s : State) (ns : Int) : State :=
  let s : State := { s with parts := tblMap (fun _ x => { x with memGone := x.memGone.map fun m => { m with readers := s.stepReaders ns m.readers } }) s.parts }
  let jumped := (s.segs.map (·.1)).filter fun i => s.syncJumped i ns
  let s : State := { s with
    drops := tblMap (fun g d => d.stepped (s.steppedT (g / 32) ns)) s.drops,
    canvases := tblMap (fun _ c => { c with latched := c.latched.map fun p => { p with tNs := s.steppedT (c.drops.headD 0 / 32) ns p.tNs } }) s.canvases }
  let s : State := { s with segs := tblMap (fun i x => { x.stepped ns with syncNow := x.syncNow || jumped.contains i }) s.segs }
  (s.onTb fun t => 
    { t with acc := t.acc + BitVec.ofInt 96 (ns * 4294967296) }).signalParts 21 |>.vendorSignal 2

/-! ### The state of the timebase (R59, R60) -/

/-- The mean of what the last 1,000 s of lock logged, half to even; none before the first whole second of lock. -/
def Timebase.average (t : Timebase) : Option (Int × Int) :=
  match t.rateLog with
  | [] => none
  | l =>
    let sum := fun (f : Int × Int → Int) => l.foldl (fun a x => a + f x) 0
    some (roundHalfEven (sum (·.1)) l.length, roundHalfEven (sum (·.2)) l.length)

/-- A change of TB_STATUS.STATE: entering holdover freezes RATE and control voltage and is a fault, which lives while it lasts (R59, R60,
R400, R444). -/
def State.enterTb (s : State) (x : TbState) : State :=
  if s.tb.state == x then s
  else
    let was := s.tb.state
    let s := s.onTb fun t => { t with state := x, goodRun := 0, badRun := 0 }
    let s := s.onTb fun t =>
      match x with
      | .locked => { t with lockedEver := true, rateLog := [] }
      | .holdover =>
        match t.average with
        | some a => { t with rate := rateWord a.1, ocxoVolt := a.2 }
        | none => t
      | _ => t
    let s := (s.signalParts 22).vendorSignal 2
    if x = .holdover then (s.setLive 0x006 true).raise 0x006 0
    else if was = .holdover then s.setLive 0x006 false else s

/-- The reference that SRC names is present: a selected master, 1PPS edges, or either (R58, R59). -/
def Timebase.present (t : Timebase) : Bool :=
  if t.src = 0 then t.ptpPresent
  else if t.src = 1 then t.ppsPresent || t.ptpPresent
  else if t.src = 2 then t.ppsPresent
  else false

/-- The loss condition of R59: for SRC 0x1 and 0x2 neither edges nor a valid PTP master. -/
def Timebase.lost (t : Timebase) : Bool :=
  if t.src = 0 then !t.ptpPresent else if t.src = 3 then false else !t.ppsPresent && !t.ptpPresent

/-- Free-run or holdover with its reference present goes to Acquiring (R59). -/
def State.acquire (s : State) : State :=
  if (s.tb.state == .freeRun || s.tb.state == .holdover) && s.tb.present then s.enterTb .acquiring else s

/-- Where the loss of the reference leads (R59). -/
def State.loseReference (s : State) : State :=
  match s.tb.state with
  | .locked => s.enterTb .holdover
  | .acquiring => if s.tb.lockedEver then s.enterTb .holdover else s.enterTb .freeRun
  | _ => s

/-! ### Measurements (R55, R59, R61) -/

/-- The median of four. -/
def median4 (l : List Int) : Int :=
  let o := l.insertionSort fun a b => a ≤ b
  roundHalfEven (o.getD 1 0 + o.getD 2 0) 2

/-- The range of the control voltage, ±2 ppm of pull, in 10^-3 ppb (R53). -/
def voltLimit : Int := 2000000

/-- The servo turns a measurement into RATE and a control voltage; its law is not stated, its limits are (R53, R55). -/
def State.servo (s : State) (off : Int) : State :=
  let (n, s) := s.draw
  let r := rateOf (Config.servoCorrection n off)
  let c := clampInt (-rateLimit) rateLimit r
  s.onTb fun t =>
    { t with rate := rateWord c, ocxoVolt := clampInt (-voltLimit) voltLimit (Config.servoVoltage n off),
             satCount := if c = r then t.satCount else satInc t.satCount }

/-- The first four offsets after start-up: their median may step unit time at the next tick (R61). -/
def State.firstFour (s : State) (off : Int) : State :=
  let l := s.tb.firstOffsets ++ [off]
  if l.length < 4 then s.onTb fun t => { t with firstOffsets := l }
  else
    let m := median4 l
    s.onTb fun t =>
      if m.natAbs ≤ 10000 then { t with firstOffsets := [], initStepDone := true }
      else { t with firstOffsets := [], initStepDone := true, initStep := some (-m), goodRun := 0 }

/-- TB_OFFSET holds an offset in signed 32 bits; one outside saturates and is counted (R7, R69). -/
def Timebase.showOffset (t : Timebase) (off : Int) : Timebase :=
  let o := clampInt (-2147483648) 2147483647 off
  { t with offset := BitVec.ofInt 32 o, satCount := if o = off then t.satCount else satInc t.satCount }

/-- One offset measurement, unit time minus reference in ns, in Acquiring or Locked (R55, R59, R61). -/
def State.measure (s : State) (off : Int) : State :=
  let s := (s.onTb (·.showOffset off)).acquire
  match s.tb.state with
  | .acquiring =>
    let s := s.servo off
    let s := s.onTb fun t => { t with goodRun := if off.natAbs < 100 then t.goodRun + 1 else 0 }
    let s := if s.tb.initStepDone then s else s.firstFour off
    if 16 ≤ s.tb.goodRun then s.enterTb .locked else s
  | .locked =>
    let s := s.servo off
    let s := s.onTb fun t => { t with badRun := if 1000 < off.natAbs then t.badRun + 1 else 0 }
    if 16 ≤ s.tb.badRun then s.enterTb .holdover else s
  | _ => s

/-! ### Ticks (R54, R60, R61, R253) -/

/-- Each shaper's credit grows by RATE up to its burst (R253). -/
def Shaper.accrue (x : Shaper) : Shaper := { x with credit := min (x.credit + x.rate) (x.burst * 100000) }

def Partition.accrue (x : Partition) : Partition := { x with shapers := tblMap (fun _ h => h.accrue) x.shapers }

/-- A whole second of lock is logged for the averages of R60. -/
def Timebase.logSecond (t : Timebase) (before : Nat) : Timebase :=
  if t.state == .locked && decide (before / second < (t.acc.extractLsb' 32 64).toNat / second) then
    { t with rateLog := ((t.rate.toInt, t.ocxoVolt) :: t.rateLog).take 1000 }
  else t

/-- DOMAIN as it is used: above 127 it is 127 (R69). -/
def Timebase.domainUsed (t : Timebase) : Nat := min t.domain.toNat 127

/-- The Delay_Req interval in ticks: 2^n s for DELAY_REQ_LOG n, which saturates to −4 … 1 (R57, R69). -/
def Timebase.delayReqTicks (t : Timebase) : Nat :=
  let n := clampInt (-4) 1 t.delayReqLog.toInt
  ticksOfS 2 / 2 ^ (1 - n).toNat

/-- PTP reaches the timing port: over UDP only while the port has an address (R45). -/
def State.ptpCarried (s : State) : Bool := s.tb.transport == 1 || s.plant.timing.addr.isSome

/-- A Delay_Req leaves for the selected master when its interval is over (R57). -/
def State.sendDelayReq (s : State) : State :=
  let t := s.tb
  let due := (t.delayReqTick.map fun k => s.past k t.delayReqTicks).getD true
  if t.master.isSome && due && s.ptpCarried then
    (s.onTb fun t => { t with delayReqTick := some t.tick }).emit (.delayReq t.domainUsed)
  else s

/-- TIMEBASE_TICK. -/
def execTimebaseTick (s : State) : Res :=
  let before := s.now
  let s := s.onTb fun t => t.advance.logSecond before
  let s : State := ({ s with parts := tblMap (fun _ x => x.accrue) s.parts } : State).sendDelayReq
  match s.tb.initStep with
  | some ns => .next ((s.onTb fun t => { t with initStep := none }).stepTime ns)
  | none => .next s

/-! ### PTP (R57, R58) -/

/-- Masters of the domain in use whose Announces have not stopped for 3 intervals (R57, R59). -/
def Timebase.fresh (t : Timebase) : List Foreign :=
  t.masters.filter fun m => m.domain == t.domainUsed && decide (t.tick < m.tick + 3 * m.interval)

/-- The default algorithm considers a foreign master once two of its Announces have come within four announce intervals, and none that is
255 or more steps away (R57, log entry 86). -/
def Foreign.qualified (m : Foreign) : Bool :=
  (m.before.map fun k => decide (m.tick ≤ k + 4 * m.interval)).getD false && decide (m.quality.stepsRemoved < 255)

/-- What the default algorithm compares, in its order: the lower value is the better clock (R57, log entry 86). -/
def Foreign.rank (m : Foreign) : List Nat :=
  let q := m.quality
  [q.priority1, q.clockClass, q.accuracy, q.variance, q.priority2, q.grandmaster, q.stepsRemoved, m.id]

/-- The first list is the smaller in lexicographic order. -/
def lexLess : List Nat → List Nat → Bool
  | a :: l, b :: m => if a = b then lexLess l m else decide (a < b)
  | [], _ :: _ => true
  | _, [] => false

/-- The best of the qualified masters (R57). -/
def bestMaster (l : List Foreign) : Option Nat :=
  ((l.filter (·.qualified)).foldl (fun (b : Option Foreign) m =>
    match b with
    | none => some m
    | some x => if lexLess m.rank x.rank then some m else some x) none).map (·.id)

/-- The master is selected anew among those heard; what was measured against another master is of no more use. -/
def Timebase.select (t : Timebase) : Timebase :=
  let l := t.fresh
  let m := bestMaster l
  let u := { t with masters := l, master := m, ptpPresent := m.isSome }
  if m = t.master then u
  else { u with twoStepWait := none, ptpFix := none, roundTrip := none, transit := none, syncUsed := false, delayReqTick := none }

/-- The selected master's message in the domain. -/
def Timebase.hears (t : Timebase) (domain : Byte) (m : Nat) : Bool := domain.toNat == t.domainUsed && t.master == some m

/-- A PTP offset: phase and frequency in SRC 0x0, and in SRC 0x1 while no edge is present (R58). From the first one on the seconds count
as having come from PTP (R68, log entry 87). -/
def State.ptpMeasured (s : State) (off : Int) : State :=
  let s := s.onTb fun t =>
    { t with ptpFix := some { off := off, ns := s.now, tick := t.tick }, taiValid := t.taiValid || decide (t.src.toNat < 2) }
  if s.tb.src = 0 ∨ (s.tb.src = 1 ∧ s.tb.ppsPresent = false) then s.measure off else s

/-- A Sync's transit less the mean path delay is an offset, once a delay has been measured (R57). -/
def State.syncOffset (s : State) : State :=
  match s.tb.transit, s.tb.roundTrip with
  | some m, some r => (s.onTb fun t => { t with syncUsed := true }).ptpMeasured (roundHalfEven (2 * m - r) 2)
  | _, _ => s

/-- The transit of a Sync is known: from its own origin time, or from its Follow_Up's. -/
def State.takeSync (s : State) (origin rx : Nat) : State :=
  (s.onTb fun t => { t with twoStepWait := none, transit := some ((rx : Int) - origin), syncUsed := false }).syncOffset

/-- PTP_MESSAGE: Announces select the master, each Sync gives an offset by the mean path delay, each Delay_Resp that delay (R57). A first
delay gives the Sync before it its offset (log entry 86), and only the selected master's Announces give the UTC offset (log entry 92). -/
def execPtpMessage (m : PtpMsg) (s : State) : Res :=
  let t := s.tb
  if !s.ptpCarried then .next s
  else match m with
  | .management => .next s
  | .announce domain id quality interval utc _ =>
    if domain.toNat ≠ t.domainUsed then .next s
    else
      let others := t.masters.filter fun x => x.id != id
      let before := (t.masters.find? fun x => x.id == id).map (·.tick)
      let heard : Foreign := { id := id, domain := domain.toNat, quality := quality, tick := t.tick, before := before, interval := interval }
      let t := ({ t with masters := others ++ [heard] } : Timebase).select
      let t := if t.master = some id then { t with utcOffset := utc, utcValid := true } else t
      .next ({ s with tb := t } : State).acquire
  | .sync domain id twoStep origin rx =>
    let early := match t.lastSyncTick with
      | some k => decide (t.tick < k + 6250000)
      | none => false
    if !t.hears domain id || early then .next s
    else
      let s := s.onTb fun t => { t with lastSyncTick := some t.tick }
      if twoStep then .next (s.onTb fun t => { t with twoStepWait := some (id, rx) }) else .next (s.takeSync origin rx)
  | .followUp domain id origin =>
    match t.twoStepWait with
    | some (k, rx) => if t.hears domain id && k == id then .next (s.takeSync origin rx) else .next s
    | none => .next s
  | .delayResp domain id reqTx reqRx =>
    match t.transit with
    | some m =>
      if t.hears domain id then
        let s := s.onTb fun t => { t with roundTrip := some (m + ((reqRx : Int) - reqTx)) }
        .next (if t.syncUsed then s else s.syncOffset)
      else .next s
    | none => .next s

/-! ### 1PPS (R58) -/

/-- The nearest whole second to t, in ns. -/
def nearestSecond (t : Int) : Int := (t + 500000000).fdiv second * second

/-- The PTP offset carried forward from its measurement: what unit time has gained since on ticks of 10 ns each (R54, R58, log entry 16). -/
def State.ptpOffset (s : State) : Option Int :=
  s.tb.ptpFix.map fun f => f.off + (((s.now : Int) - f.ns) - 10 * ((s.tick : Int) - f.tick))

/-- PPS_EDGE. In SRC 0x1 the edge is a whole second of PTP time or is rejected; without a PTP measurement, and in SRC 0x2, it is the
nearest whole second of unit time. -/
def execPpsEdge (stampNs : Nat) (s : State) : Res :=
  let t := s.tb
  let at_ := (stampNs : Int) - t.ppsInDelay.toNat
  let ptp := if t.src = 1 then s.ptpOffset.getD 0 else 0
  let ref := nearestSecond (at_ - ptp)
  if t.src = 1 ∧ s.ptpOffset.isSome ∧ 1000 < (at_ - ptp - ref).natAbs then
    .next (s.onTb fun t => { t with ppsReject := satInc t.ppsReject })
  else
    let s := s.onTb fun t => { t with ppsPresent := true, ppsTick := some t.tick }
    if t.src = 1 ∨ t.src = 2 then .next (s.measure (at_ - ref)) else .next s

/-- REFERENCE_LOSS: masters silent for 3 announce intervals and edges absent for 3 s are lost, and with them the reference (R59). -/
def execReferenceLoss (s : State) : Res :=
  let s := s.onTb fun t =>
    let edge := match t.ppsTick with
      | some k => decide (t.tick < k + ticksOfS 3)
      | none => false
    { t with ppsPresent := edge, ppsTick := if edge then t.ppsTick else none }.select
  if s.tb.lost then .next s.loseReference else .next s

/-! ### TB registers (R56, R62, R67–R69) -/

/-- A partition writes TB registers only with TB_WR (R122). -/
def State.tbWrite (s : State) (who : Requester) (off : Nat) (v : W32) (ok : State → Res) : Res :=
  s.access who .write true true (ctlTb + off) v fun s =>
    match who with
    | .host p => if tblGet false s.map.tbWr p then ok s else .next s
    | _ => ok s

/-- A write of SRC moves the timebase state (R59). Where it leaves the state as it is, the count of 16 measurements goes on (log entry
88). -/
def State.writeSrc (s : State) (src : BitVec 2) : State :=
  if s.tb.src = src then s
  else
    let s := s.onTb fun t => { t with src := src }
    if src = 3 then s.enterTb .freeRun
    else if s.tb.present then s.enterTb .acquiring
    else s.loseReference

/-- The whole second after now, in ns. -/
def State.nextSecond (s : State) : Nat := (s.now / second + 1) * second

/-- A write of TB_CTRL (R67): SRC, STEP_EN, and STEP_GO, which STEP_EN of the same write allows. The step's amount is
TB_STEP at this write (log entry 123). -/
def State.writeTbCtrl (s : State) (v : W32) : State :=
  let s := (s.writeSrc (v.extractLsb' 0 2)).onTb fun t => { t with stepEn := v.getLsbD 4 }
  if v.getLsbD 5 && v.getLsbD 4 then
    let due := s.nextSecond
    s.onTb fun t => { t with stepArmed := some ((t.stepHi ++ t.stepLo).toInt, due) }
  else s

/-- SRC_WRITE: a write of TB_CTRL. -/
def execSrcWrite (who : Requester) (v : W32) (s : State) : Res := s.tbWrite who 0 v fun s => .next (s.writeTbCtrl v)

/-- STEP_GO: a write of TB_CTRL. -/
def execStepGo (who : Requester) (v : W32) (s : State) : Res := s.tbWrite who 0 v fun s => .next (s.writeTbCtrl v)

/-- TB_RATE_WRITE: RATE by software, within the limit of R55; ignored unless SRC is 0x3. -/
def execTbRateWrite (who : Requester) (v : W32) (s : State) : Res :=
  s.tbWrite who 0x10 v fun s =>
    if s.tb.src = 3 then .next (s.onTb fun t => { t with rate := rateWord (clampInt (-rateLimit) rateLimit v.toInt) }) else .next s

/-- STEP_APPLY: the armed step, at its whole second. -/
def execStepApply (s : State) : Res :=
  match s.tb.stepArmed with
  | some (ns, due) => if due ≤ s.now then .next ((s.onTb fun t => { t with stepArmed := none }).stepTime ns) else .next s
  | none => .next s

/-- PPS_OUT: a whole second of unit time within 20 ns, neither skipped nor repeated (R62, R63). -/
def execPpsOut (s : State) : Res :=
  let n := s.now / second
  if s.now % second < 20 ∧ s.tb.ppsOutSecond < n then
    let s := s.onTb fun t => { t with ppsOutSecond := n }
    if s.tb.ppsOutEn then .next (s.emit (.ppsPulse n)) else .next s
  else .next s

/-- TB_TIME_LO_READ: the upper half is latched for the requester (R56). -/
def execTbTimeLoRead (who : Requester) (s : State) : Res :=
  s.access who .read true true (ctlTb + 8) 0 fun s =>
    let now := s.now
    .next ((s.onTb fun t => { t with hiLatch := tblSet 0 t.hiLatch (latchOf who) (BitVec.ofNat 32 (now / 2 ^ 32)) }).emit
      (.regData who (BitVec.ofNat 32 now)))

/-! ### Path delays (R65) -/

/-- Housekeeping has the wires for a delay-only MEASURE to drop g: its segment is in a control slot of the drop's rate, and the drop is neither locked
nor to be left alone (R65, R103, R113, R244). -/
def State.measureGrant (s : State) (g : Nat) : Option Arb :=
  let d := s.drop g
  if (s.lockedBy g).isSome || d.negoFail.isSome then none
  else s.exchangeGrant (g / 32) (costW2 opMeasure 0 1 [] d.colant2 (d.delay.getD 520)) fun r => r.control.isSome && r.colant2 == d.colant2

/-- PATH_DELAY_REMEASURE: a delay-only MEASURE and what it changes. -/
def execPathDelayRemeasure (g : DropId) (turnaroundNs : Nat) (s : State) : Res :=
  let s := s.settleWhistle (g / 32)
  let d := s.drop g
  if !d.found || d.state == .retired || !(s.seg (g / 32)).started then .next s
  else
    match s.measureGrant g with
    | none => .next s
    | some a =>
      let s := ((((s.onArb (g / 32) fun _ => a).sendTo g opMeasure 0 1 [] d.colant2).refreshed g).answered (g / 32))
      .next ((s.onDrop g fun x => { x with delay := some (oneWay d.colant2 turnaroundNs), pMeasTick := s.tick }).setQdelays (g / 32))

end Sys2Proof.Machine
end

