-- ==== Sys2Proof/Machine/Rtv.lean ====
section
/-! DEFINITION. The Retriever: regions and their CRCs (R378, R379), slots (R385), comparison (R387–R389), thumbnails (R390–R392), telemetry
(R393–R395) and the writes of RTV registers with effects (R396, R398). -/

namespace Sys2Proof.Machine

/-! ### Regions (R378, R379) -/

def Panel.rc (p : Panel) : Nat := min 8 p.tw
def Panel.rr (p : Panel) : Nat := min 8 p.nb
def Panel.regions (p : Panel) : Nat := p.rc * p.rr

/-- Tile columns and bands of region n, as first and one past the last. -/
def Panel.regionCols (p : Panel) (n : Nat) : Nat × Nat := (n % p.rc * p.tw / p.rc, (n % p.rc + 1) * p.tw / p.rc)
def Panel.regionBands (p : Panel) (n : Nat) : Nat × Nat := (n / p.rc * p.nb / p.rr, (n / p.rc + 1) * p.nb / p.rr)

/-- The tiles of region n. -/
def Panel.regionTiles (p : Panel) (n : Nat) : List Nat :=
  let c := p.regionCols n
  let b := p.regionBands n
  (List.range (b.2 - b.1)).flatMap fun y => (List.range (c.2 - c.1)).map fun x => (b.1 + y) * p.tw + c.1 + x

/-- A region's bytes for its CRC: its codes in raster order, 16 bits each, high byte first. -/
def Panel.regionBytes (p : Panel) (codes : Codes) (n : Nat) : List Byte :=
  let c := p.regionCols n
  let b := p.regionBands n
  let xs := (natRange (16 * c.1) (16 * c.2 - 1)).filter fun x => decide (x < p.w)
  let ys := (natRange (16 * b.1) (16 * b.2 - 1)).filter fun y => decide (y < p.h)
  ys.flatMap fun y => xs.flatMap fun x => (List.range p.ch).flatMap fun k =>
    let v := p.code codes x y k
    [BitVec.ofNat 8 (v / 256), BitVec.ofNat 8 v]

def Panel.crcSet (p : Panel) (codes : Codes) : List W32 := (List.range p.regions).map fun n => crc32 (p.regionBytes codes n)

/-! ### Retriever slots (R385, R390) -/

/-- A chunk's words (R384). -/
def Drop.chunkWords (d : Drop) : Nat := if d.chan = 3 then 1600 else 800

/-- A Retriever request's words after its header: H1, P0, P1 (R90, R380, R383). -/
def rtvRequest (seq : Byte) (req chunk : Nat) : List W16 :=
  [BitVec.ofNat 16 (seq.toNat % 16 * 4096 + 1), BitVec.ofNat 16 (req * 16384), BitVec.ofNat 16 chunk]

/-- The transaction of a request to drop number n. -/
def Drop.rtvLaunch (d : Drop) (n : Nat) (who : TxFor) (req chunk len : Nat) : Launch :=
  { who := who, requester := codeRtv, drop := n, op := opFrame, addr := 0, len := len, data := rtvRequest d.presentedSeq req chunk, shaper := none }

/-- The transaction of a slot's step k for drop g, if it is wanted and no answer to the same is still to be dealt with. -/
def State.rtvWanted (s : State) (g k : Nat) : Option Launch :=
  let d := s.drop g
  let undealt := fun (who : TxFor) => (s.seg (g / 32)).rtvIn.any fun r => r.who == who && r.drop == g % 32
  let mk := fun (who : TxFor) req chunk len => if undealt who then none else some (d.rtvLaunch (g % 32) who req chunk len)
  let slots : Nat := match s.owner g with
    | some p => (s.part p).rtv.slots
    | none => 0
  if k = 0 then (if d.crcEn then mk .rtvCrc 1 0 (1 + 2 * (s.panel g).regions) else none)
  else if k = 1 then (if d.thumb.due && d.thumbInt != 0 && slots != 0 then mk .rtvCapture 2 0 1 else none)
  else if k < 11 then
    if d.thumb.seq.isSome && !d.thumb.due && (tblFind d.thumb.chunks (k - 2)).isNone then mk (.rtvChunk (k - 2)) 3 (k - 2) (1 + d.chunkWords)
    else none
  else none

/-- Link-hold windows of a slot still to come (R234, R235). -/
def State.windowsLeft (s : State) (i : Nat) (e : Slot) : Nat := ceilDiv e.finish 120000 - (s.seg i).linkHold

/-- An answer of the drop to a capture request is still to be dealt with: what comes next depends on it (R390). -/
def State.captureHeard (s : State) (i n : Nat) : Bool := (s.seg i).rtvIn.any fun r => r.who == .rtvCapture && r.drop == n

/-- The Retriever sends its next transaction of the slot whose predicted cost ends before the slot does, with the room that the slot's windows
need; a window that is due goes first (R235). Under a frozen arbiter, a FREEZE or a rate mismatch the slot carries IDLE, and a locked drop is
not addressed (R101, R103, R230, R248). -/
def State.nextRtv (s : State) (i : Nat) : State :=
  let x := s.seg i
  match x.region, x.tx with
  | .slot k, none =>
    match s.slotAt i k with
    | some e =>
      let g := i * 32 + e.drop
      let d := s.drop g
      if e.kind ≠ 5 ∨ x.frozen ∨ x.arb.freeze ∨ s.slotIdle i e ∨ !d.found ∨ d.state = .retired ∨ d.negoFail.isSome
          ∨ s.holdDue i ∨ (s.lockedBy g).isSome ∨ s.captureHeard i e.drop then s
      else
        let fits := fun (l : Launch) => decide (s.wireOff i + s.launchCost i l + 72 * s.windowsLeft i e ≤ e.finish)
        match (natRange x.rtvStep 10).find? fun k => ((s.rtvWanted g k).map fits).getD false with
        | some n =>
          let s := s.onSeg i fun x => { x with rtvStep := n + 1 }
          match s.rtvWanted g n with
          | some l => s.transmit i l
          | none => s
        | none => s
    | none => s
  | _, _ => s

/-- A chunk has failed or belongs to another capture: the capture is issued again at the next slot, unless captures have been stopped (R390). -/
def Drop.captureAgain (d : Drop) : Drop := { d with thumb := { d.thumb with due := d.thumbInt != 0, next := none, seq := none, chunks := [] } }

/-- A Retriever transaction has failed (R389, R390). -/
def State.rtvFailed (s : State) (i : Nat) (t : Tx) : State :=
  match t.who with
  | .rtvChunk _ => s.onDrop (i * 32 + t.drop) Drop.captureAgain
  | _ => s

/-- Take the oldest answer that a Retriever or telemetry transaction left and f names. -/
def State.takeRtv (s : State) (i : Nat) (f : TxFor → Bool) (k : RtvIn → State → State) : Res :=
  match (s.seg i).rtvIn.find? fun r => f r.who with
  | some r => .next ((k r (s.onSeg i fun x => { x with rtvIn := x.rtvIn.eraseP fun y => f y.who })).nextRtv i)
  | none => .next s

/-- VALID of an answer's word 0. -/
def RtvIn.valid (r : RtvIn) : Bool := (r.words.headD 0).getLsbD 7
def RtvIn.seq (r : RtvIn) : Byte := (r.words.headD 0).extractLsb' 8 8

/-! ### Comparison (R387–R389) -/

/-- The CRCs a report carries, high half first. -/
def reportedCrcs (ws : List W16) : List W32 :=
  (List.range (ws.length / 2)).map fun n => (ws.getD (2 * n) 0) ++ (ws.getD (2 * n + 1) 0)

/-- A mismatch: its record, the UNKNOWN tiles, the counts. bad lists the differing regions. -/
def State.rtvMismatch (s : State) (g : Nat) (seq : Byte) (want got : List W32) (bad : List Nat) : State :=
  let p := s.panel g
  let s := s.onDrop g fun d => { d with mismatch := satInc d.mismatch }
  let s := s.markTiles g (bad.flatMap p.regionTiles)
  let n := bad.headD 0
  let mask := bad.foldl (fun a n => a + 2 ^ n) 0
  let body := [packFields [(seq.toNat, 0), (p.regions, 8)], 0] ++ qword mask
    ++ [(want.getD n 0).toNat, (got.getD n 0).toNat, (s.drop g).mismatch.toNat]
  let s : State := match s.owner g with
    | some q => s.report q 1 g body
    | none => s
  s.countError 4 g

/-- CRC_REPORT. -/
def execCrcReport (i : SegId) (s : State) : Res :=
  s.takeRtv i (· == .rtvCrc) fun r s =>
    let g := i * 32 + r.drop
    let d := s.drop g
    let got := reportedCrcs (r.words.drop 1)
    match (if r.valid then d.expected.find? fun e => e.1 == r.seq else none) with
    | none =>
      match s.owner g with
      | some p => s.onPart p fun x => { x with rtv := { x.rtv with stale := satInc x.rtv.stale } }
      | none => s
    | some e =>
      match (List.range e.2.length).filter fun n => e.2.getD n 0 != got.getD n 0 with
      | [] => s.onDrop g fun d => { d with lastSeq := r.seq }
      | bad => s.rtvMismatch g r.seq e.2 got bad

/-! ### Thumbnails (R390–R392) -/

/-- THUMBNAIL_DUE: the interval has passed since the last capture answered with VALID 1. -/
def execThumbnailDue (g : DropId) (s : State) : Res :=
  match (s.drop g).thumb.next with
  | some t => if t ≤ s.tick then .next (s.onDrop g fun d => { d with thumb := { d.thumb with due := true, next := none } }) else .next s
  | none => .next s

/-- CAPTURE_RESPONSE: with VALID 1 the capture's chunks are read next; with VALID 0 it stays due. -/
def execCaptureResponse (i : SegId) (s : State) : Res :=
  s.takeRtv i (· == .rtvCapture) fun r s =>
    if r.valid then
      s.onDrop (i * 32 + r.drop) fun d =>
        { d with thumb := { due := false, seq := some r.seq, chunks := [],
                            next := if d.thumbInt = 0 then none else some (s.tick + ticksOfS (min 3600 d.thumbInt)) } }
    else s

/-- The chunk a Retriever answer is for. -/
def TxFor.chunk : TxFor → Option Nat
  | .rtvChunk c => some c
  | _ => none

/-- The words of a capture's chunks in chunk order. -/
def thumbWords (chunks : Tbl (List W16)) : List W16 := (List.range 9).flatMap fun c => tblGet [] chunks c

/-- CHUNK_RESPONSE: a chunk of the capture is kept, and with the last one the thumbnail goes to the encoder; a chunk of another capture
starts it again. -/
def execChunkResponse (i : SegId) (s : State) : Res :=
  s.takeRtv i (·.chunk.isSome) fun r s =>
    let g := i * 32 + r.drop
    let c := r.who.chunk.getD 0
    let d := s.drop g
    let good := r.valid && d.thumb.seq == some r.seq && (r.words.headD 0).toNat % 16 == c && r.words.length == 1 + d.chunkWords
    if !good then s.onDrop g Drop.captureAgain
    else
      let chunks := tblPut d.thumb.chunks c (r.words.drop 1)
      if chunks.length = 9 then
        let s := s.onDrop g fun d => { d with thumb := { d.thumb with seq := none, chunks := [] } }
        { s with encoder := s.encoder ++ [{ drop := g, seq := r.seq, words := thumbWords chunks }] }
      else s.onDrop g fun d => { d with thumb := { d.thumb with chunks := chunks } }

/-- A code of 5 or 6 bits widened to 8 by replicating its top bits (R391). -/
def widen (bits v : Nat) : Nat := v * 2 ^ (8 - bits) + v / 2 ^ (2 * bits - 8)

/-- Y, Cb and Cr of an RGB thumbnail word (R384, R391). -/
def rgbYcc (w : W16) : Int × Int × Int :=
  let r : Int := widen 5 (field w.toNat 15 11)
  let g : Int := widen 6 (field w.toNat 10 5)
  let b : Int := widen 5 (field w.toNat 4 0)
  (16 + roundHalfEven (2991 * r + 10064 * g + 1016 * b) 16384, 128 + roundHalfEven (7196 * b - 1649 * r - 5547 * g) 16384,
    128 + roundHalfEven (7196 * r - 6536 * g - 660 * b) 16384)

/-- Y, Cb and Cr of a one-channel code (R391). -/
def greyYcc (v : Nat) : Int × Int × Int := (16 + roundHalfEven (219 * v) 255, 128, 128)

/-- The thumbnail's pixels in raster order from its chunks: a word each, or two one-channel pixels to a word, the left one high (R384). -/
def thumbPixels (rgb : Bool) (words : List W16) : List (Int × Int × Int) :=
  if rgb then words.map rgbYcc else words.flatMap fun w => [greyYcc (field w.toNat 15 8), greyYcc (field w.toNat 7 0)]

/-- A list cut into rows of n. -/
def thumbRows {α : Type} (n count : Nat) (l : List α) : List (List α) := (List.range count).map fun j => (l.drop (n * j)).take n

/-- Neighbours in pairs. -/
def pairUp {α : Type} : List α → List (α × α)
  | a :: b :: rest => (a, b) :: pairUp rest
  | _ => []

/-- The mean of each 2 × 2 block, rounded half to even (R391). -/
def blockMeans (rows : List (List Int)) : List Int :=
  (pairUp rows).flatMap fun r => ((pairUp r.1).zip (pairUp r.2)).map fun b => roundHalfEven (b.1.1 + b.1.2 + b.2.1 + b.2.2) 4

/-- The 4:2:0 picture of 160 × 96 that the encoder takes: luma, then Cb, then Cr; lines 90 to 95 repeat line 89 (R391). -/
def thumbPicture (rgb : Bool) (words : List W16) : List Int :=
  let top := thumbRows 160 90 (thumbPixels rgb words)
  let rows := top ++ List.replicate 6 (top.getD 89 [])
  let plane := fun (f : Int × Int × Int → Int) => rows.map fun r => r.map f
  (plane (·.1)).flatten ++ blockMeans (plane (·.2.1)) ++ blockMeans (plane (·.2.2))

/-- The QP at which the encoder stops, and the bitstream's length: again with QP raised by 6 while it exceeds 16,320 bytes; none while an
encoding is still to be made (R391). -/
def encodeAt (qp : Nat) : List Nat → Option (Nat × Nat)
  | [] => none
  | l :: rest => if 16320 < l ∧ qp < 51 then encodeAt (min 51 (qp + 6)) rest else some (qp, l)

/-- The lowest free thumbnail slot. -/
def Rtv.freeSlot (r : Rtv) : Option Nat := (List.range (min 256 r.slots)).find? fun k => !r.usedSlots.any fun u => u.1 == k

/-- A thumbnail encoded at a QP, n bytes long, goes to slot k of partition p and is reported (R391, R392, R396). -/
def State.storeThumbnail (s : State) (p k : Nat) (h : ThumbJob) (qp n : Nat) : State :=
  let picture := thumbPicture ((s.drop h.drop).chan == 3) h.words
  let (m, s) := s.draw
  let s := s.writeRecord p ((s.part p).rtv.thumbAddr.toNat + k * 16384) ((List.range n).map fun i => Config.thumbnailByte m qp picture i)
  let lost := (s.part p).rtvRing.lost
  let s := s.report p 3 h.drop [packFields [(h.seq.toNat, 0), (qp, 16)], k, n]
  let ring := (s.part p).rtvRing
  if ring.lost = lost then
    s.onPart p fun x => { x with rtv := { x.rtv with usedSlots := x.rtv.usedSlots ++ [(k, (ring.tail + ring.size - 1) % ring.size)] } }
  else s

/-- THUMBNAIL_ENCODED: the encoder's oldest thumbnail is done; lens are the lengths of the bitstreams it made, the last of them the one it
keeps. Without a free slot the capture is lost and falls due again (R392). -/
def execThumbnailEncoded (g : DropId) (lens : List Nat) (s : State) : Res :=
  match s.encoder with
  | [] => .next s
  | h :: rest =>
    if h.drop ≠ g.val then .next s
    else
      let t : State := { s with encoder := rest }
      match s.owner g with
      | none => if lens = [] then .next s else .next t
      | some p =>
        let r := (s.part p).rtv
        match encodeAt (min 51 r.qp) lens, r.freeSlot with
        | none, _ => .next s
        | some _, none =>
          .next ((t.onPart p fun x => { x with rtv := { r with thumbLost := satInc r.thumbLost } }).onDrop g fun d =>
            { d with thumb := { d.thumb with due := decide (d.thumbInt ≠ 0), next := none } })
        | some e, some k => .next (t.storeThumbnail p k h e.1 e.2)

/-! ### Telemetry (R393–R395) -/

/-- The integer of a raw word; none if the format is reserved or a BCD digit is above 9 (R395). -/
def rawValue (format raw : Nat) : Option Int :=
  let dig := fun k => field raw (4 * k + 3) (4 * k)
  match format with
  | 1 => some (field raw 11 0)
  | 2 => some (signedOf raw 12)
  | 3 => some raw
  | 4 => some (signedOf raw 16)
  | 5 => if (List.range 4).any fun k => decide (9 < dig k) then none else some (dig 3 * 1000 + dig 2 * 100 + dig 1 * 10 + dig 0 : Nat)
  | 6 =>
    let e := field raw 7 4
    let m := field raw 3 0
    some ((if e = 0 then m else (16 + m) * 2 ^ (e - 1) : Nat) : Int)
  | _ => none

/-- A telemetry value: V, whether it saturated, whether it is INVALID, and its QUANT. -/
structure TlmValue where
  v : Int
  sat : Bool
  bad : Bool
  quantity : Nat
  deriving DecidableEq, Repr

def tlmValue (desc gain offset raw : W16) : TlmValue :=
  let q := field desc.toNat 15 12
  match (if 1 ≤ q ∧ q ≤ 5 then rawValue (field desc.toNat 11 8) raw.toNat else none) with
  | none => { v := 0, sat := false, bad := true, quantity := q }
  | some x =>
    let v := roundHalfEven ((x * gain.toInt + offset.toInt) * 2 ^ (field desc.toNat 3 0)) 256
    let c := clampInt (-2147483648) 2147483647 v
    { v := c, sat := c != v, bad := false, quantity := q }

/-- One telemetry record of up to 8 values from channel first (R397). -/
def tlmBody (first : Nat) (l : List TlmValue) : List Nat :=
  let mask := fun (f : TlmValue → Bool) => (l.zipIdx.filter fun x => f x.1).foldl (fun a x => a + 2 ^ x.2) 0
  [packFields [(first, 0), (l.length, 4), (mask (·.sat), 8), (mask (·.bad), 16)],
   packFields (l.zipIdx.map fun x => (x.1.quantity, 4 * x.2))] ++ l.map fun x => unsignedOf x.v 32

/-- The raw values of a drop's channels are converted and reported (R395–R397). -/
def State.telemetry (s : State) (g : Nat) (raw : List W16) : State :=
  let st := (s.drop g).tlmStatic
  let vs := raw.zipIdx.map fun w => tlmValue (st.getD (3 * w.2) 0) (st.getD (3 * w.2 + 1) 0) (st.getD (3 * w.2 + 2) 0) w.1
  match s.owner g with
  | none => s
  | some p =>
    let s := (vs.filter (·.sat)).foldl (fun s _ => s.onPart p fun x => { x with rtv := { x.rtv with tlmSat := satInc x.rtv.tlmSat } }) s
    let s := s.report p 2 g (tlmBody 0 (vs.take 8))
    if 8 < vs.length then s.report p 2 g (tlmBody 8 (vs.drop 8)) else s

/-- TELEMETRY_DUE: a read of the raw values is queued, and the next falls due TLM_INT s later. Words that the guard refuses the Retriever
come back as 0 (R426, R437). -/
def execTelemetryDue (g : DropId) (s : State) : Res :=
  let d := s.drop g
  match d.tlmDue with
  | some t =>
    if s.tick < t ∨ !d.found ∨ d.state = .retired then .next s
    else
      let s := s.onDrop g fun d => { d with tlmDue := if d.tlmInt = 0 then none else some (s.tick + ticksOfS (min 3600 d.tlmInt)) }
      let k := d.tlmStatic.length / 3
      if k = 0 then .next s
      else
        let a := s.blockAccess 0x25 .read g 0xFFFF50 k
        if a.1 then .next (a.2.queueHk (g / 32) { who := .telemetry, drop := g % 32, op := opRdb, addr := 0xFFFF50, len := k, data := [], emg := false,
                                                  epoch := (s.pair 10).epoch })
        else .next (a.2.telemetry g (List.replicate k 0))
  | none => .next s

/-- TELEMETRY_RESPONSE. -/
def execTelemetryResponse (i : SegId) (s : State) : Res := s.takeRtv i (· == .telemetry) fun r s => s.telemetry (i * 32 + r.drop) r.words

/-! ### RTV registers (R396, R398) -/

/-- RTV_RING_CFG_EN: a write of RTV_RING_CFG. -/
def execRtvRingCfgEn (p : PartId) (v : W32) (s : State) : Res :=
  s.barWrite p fun s =>
    let r := (s.part p).rtvRing
    let en := v.getLsbD 31
    if r.en then
      if en then .next s else .next (s.onPart p fun x => { x with rtvRing := { r with en := false } })
    else
      let log2 := field v.toNat 3 0
      if en && decide (6 ≤ log2) && decide (log2 ≤ 14) then
        .next (s.onPart p fun x =>
          { x with rtvRing := { r with en := true, log2 := log2, head := 0, tail := 0, rseq := 1, lostSince := 0 },
                   rtv := { x.rtv with usedSlots := [] } })
      else .next (s.onPart p fun x => { x with rtvRing := { r with log2 := log2 } })

/-- A ring's records from its head up to index h; none where h would release records not written. -/
def RecRing.releases (r : RecRing) (h : Nat) : Option (List Nat) :=
  let n := (h + r.size - r.head) % r.size
  if h < r.size ∧ n ≤ (r.tail + r.size - r.head) % r.size then some ((List.range n).map fun k => (r.head + k) % r.size) else none

/-- RTV_RING_HEAD_WRITE: records are consumed, and their thumbnail slots become free. -/
def execRtvRingHeadWrite (p : PartId) (v : W32) (s : State) : Res :=
  s.barWrite p fun s =>
    let r := (s.part p).rtvRing
    let h := field v.toNat 13 0
    match r.releases h with
    | some l =>
      .next (s.onPart p fun x =>
        { x with rtvRing := { r with head := h },
                 rtv := { x.rtv with usedSlots := x.rtv.usedSlots.filter fun u => !l.contains u.2 } })
    | none => .next s

/-- RTV_DROP_CFG_WRITE: a write of RTV_DROP_CFG for the selected drop, which the partition must own. -/
def execRtvDropCfgWrite (p : PartId) (v : W32) (s : State) : Res :=
  s.barWrite p fun s =>
    let g := (s.part p).rtv.dropSel.toNat
    if !s.owns p g then .next s
    else
      let thumb := field v.toNat 27 16
      let tlm := field v.toNat 11 0
      .next (s.onDrop g fun d =>
        { d with crcEn := v.getLsbD 31, thumbInt := thumb, tlmInt := tlm, thumb := { d.thumb with due := decide (thumb ≠ 0), next := none },
                 tlmDue := if tlm = 0 then none else some s.tick })

end Sys2Proof.Machine
end

