-- ==== Sys2Proof/Machine/Segments.lean ====
section
/-! DEFINITION. A segment's life: reset (R115, R458), enumeration (R112), negotiation (R113), renewal (R514), responses and timeouts
(R83–R86, R198), ATTN and POLL (R107, R213, R214, R444). -/

namespace Sys2Proof.Machine

/-! ### Reset and enumeration (R112, R115) -/

/-- Record fields of a drop whose link is lost; those of a RETIRED one stay (R88, R115, R205, R453, R503). -/
def State.linkLost (s : State) (g : Nat) : State :=
  if (s.drop g).state = .retired then s
  else ((s.setMode g false).invalidateDrop g).onDrop g fun d => { d with wafer := 0, qdelay := 0, negoFail := none }

/-- The segment's CLK stops: the command on the wires ends as a Colant timeout, every drop is on record in Colant-1 mode. -/
def State.resetSegment (s : State) (i : Nat) : State :=
  let s := (s.failIssued i causeTimeout).stopClock i
  let s := (s.segDrops i).foldl (fun s g => s.linkLost g) s
  s.onSeg i fun x => { x with resetDue := false, enumerated := false, hk := x.hk.filter fun h => h.who == .service }

/-- SEGMENT_RESET: a reset that has been decided is carried out. -/
def execSegmentReset (i : SegId) (s : State) : Res :=
  let x := s.seg i
  if !x.resetDue || x.retired then .next s else .next (s.resetSegment i)

/-- Step 2 of R112 for one drop number: it is read; a found one is on record and takes its state (R169). A RETIRED drop is not addressed
(R453). -/
def State.enumerateDrop (s : State) (i n : Nat) (f : Option EnumFinding) : State :=
  let g := i * 32 + n
  if (s.drop g).state == .retired then s
  else
    let silent : Discovery := { attempts := [], turnaroundNs := none, telemetry := [], nego := { level := [], measures := [], wafer := [] } }
    let (s, r) := s.readDrop g ((f.map (·.answers)).getD silent)
    let s := if r = .conflict then s.onSeg i fun x => { x with conflict := x.conflict ||| BitVec.ofNat 32 (2 ^ n) } else s
    if (s.drop g).state == .retired then s
    else match r with
    | .found ws =>
      let st := if (s.drop g).state = .absent then s.foundState g else (s.drop g).state
      ((s.onDrop g fun d => { d with state := st, colant2 := false }).record g (descriptorOf ws)).signalSeg i 2
    | _ => if (s.drop g).found then s.loseDrop g else s

/-- Steps 3 to 5 of R112 for the drops found: MEASURE to each, DD_QDELAY to each, negotiation of each; then the telemetry static words
(R394). -/
def State.enumerateFound (s : State) (l : List (Nat × Discovery)) : State :=
  let s := l.foldl (fun s x => s.measureDrop x.1 x.2) s
  let s := l.foldl (fun s x => s.writeQ x.1) s
  let s := l.foldl (fun s x => (s.markUnknown x.1).negotiate x.1 x.2.nego) s
  l.foldl (fun s x => s.readTelemetry x.1 x.2) s

/-- A segment whose CLK starts while a power fail's FREEZE is in force gets it too: its output waits for the mains' return (R38, R39, R101). -/
def State.startFrozen (s : State) (i : Nat) : State :=
  (s.sendWords i false (broadcast opFreeze [])).onSeg i fun x => { x with frozen := true, freezeAgain := false, resumeDue := true }

/-- SEGMENT_ENUMERATION: CLK has been stopped for 50 µs, or starts for the first time. -/
def execSegmentEnumeration (i : SegId) (findings : List EnumFinding) (s : State) : Res :=
  let x := s.seg i
  let off := match x.clkStopTick with
    | some t => s.past t (ticksOfUs 50)
    | none => true
  let powered := s.boot.phase == .starting || s.boot.phase == .running || s.boot.phase == .service
  if x.retired || x.clk || !off || !powered then .next s
  else
    let s := s.emit (.clkStart i)
    let s := s.onSeg i fun x => { x with clk := true, clkStopTick := none, conflict := 0, fullPollTick := s.tick }
    let s := s.sendWords i false (List.replicate 16 alignWord)
    let s := if s.plant.halted then s.startFrozen i else s
    let s := (List.range 32).foldl (fun s n => s.enumerateDrop i n (findings.find? fun f => f.number.val == n)) s
    let found := (s.segDrops i).filter fun g => (s.drop g).state != .retired
    let s := s.enumerateFound (found.filterMap fun g => (findings.find? fun f => f.number.val == g % 32).map fun f => (g, f.answers))
    let s := s.onSeg i fun x => { x with enumerated := true }
    let s := if s.boot.phase = .running then s else s.chargeColant i
    let s := if (s.seg i).conflict ≠ 0 then s.segCause i 1 else s.endCause i 1
    let s := if (s.seg i).causes.getLsbD 1 then s.onSeg i fun x => { x with noAnswerTick := some s.tick } else s
    .next s.updateTakeover

/-! ### Negotiation and renewal (R113, R514) -/

/-- NEGOTIATION of a drop on record in Colant-1 mode with DD_CAPS.LEVEL 0x2: a renegotiation, since enumeration, restore and renewal carry
their own. Its drop's REVERTED, where it fails, is latched with the next POLL and starts a renewal: the POLL that R514 discards is one of those it names
(log entry 152). -/
def execNegotiation (g : DropId) (answers : NegoAnswers) (s : State) : Res :=
  let d := s.drop g
  if !d.found || d.state == .retired || d.colant2 || d.negoFail.isSome || (d.desc.map Descriptor.level).getD 1 != 2 then .next s
  else
    match s.beginExchange g (s.negotiationCost g (d.delay.getD 520)) with
    | some s => .next ((((s.negotiate g answers).markUnknown g).onDrop g fun d => { d with expected := [] }).signalSeg (g / 32) 2)
    | none => .next s

/-- NEGOTIATION_FAIL_WAIT: 3 ms after the failure DD_MODE is read at Colant-1 rate; answer is the word read, none a Colant timeout. Whatever
LEVEL it shows, the drop stays on record in Colant-1 mode (log entry 95). A word that the guard refuses is read as 0 (R437). A drop retired meanwhile is
not read (R453). -/
def execNegotiationFailWait (g : DropId) (answer : Option W16) (s : State) : Res :=
  match (s.drop g).negoFail with
  | none => .next s
  | some t =>
    if !s.past t (ticksOfMs 3) then .next s
    else if (s.drop g).state = .retired then .next (s.onDrop g fun d => { d with negoFail := none })
    else
      let tlm := if (s.drop g).tlmLater.isSome then costW2 opRdb 0xFFFF20 46 [] false 520 else 0
      match s.beginExchange g (max (costW2 opRd 0xFFFF05 1 [] false 520) tlm) with
      | none => .next s
      | some s =>
        let a := s.schedAccess .read g 0xFFFF05 1
        let s := (if a.1 then a.2.sendTo g opRd 0xFFFF05 1 [] false else a.2).onDrop g fun d => { d with negoFail := none }
        let word := if a.1 then answer else some 0
        let s : State := (word.map fun w => s.setDepth g (depthBits (field w.toNat 11 10))).getD s
        let s : State := if a.1 then s.heard g (answer.elim .silent fun w => .rdata [w] false) else s
        let s := match (s.drop g).tlmLater with
          | some tlm => if (s.drop g).state = DropState.retired then s else s.readStatic g tlm
          | none => s
        .next (s.setQdelays (g / 32))

/-- DROP_RENEWAL, in control slots and open time: the drop is read with up to three attempts as in R112 (log entry 96), measured and
negotiated again, or is ABSENT; not within a failed negotiation's 3 ms (R113). -/
def execDropRenewal (g : DropId) (answers : Discovery) (s : State) : Res :=
  let d := s.drop g
  if !d.renewDue || !d.found || d.state == .retired || d.negoFail.isSome then .next s
  else
    match s.beginExchange g (s.discoverCost g answers) with
    | none => .next s
    | some s =>
    let (s, r) := s.readDrop g answers
    if (s.drop g).state == .retired then .next s
    else match r with
    | .found ws => .next ((s.discover g (descriptorOf ws) answers).signalSeg (g / 32) 2)
    | _ => .next (s.loseDrop g)

/-! ### The ends of a transaction (R84, R197, R198, R452) -/

/-- The copy of DD_ATTN_EN follows every acknowledged write that covers it (R107). -/
def State.copyAttnEn (s : State) (i : Nat) (t : Tx) : State :=
  if t.addr ≤ 0xFFFF08 ∧ 0xFFFF08 - t.addr < t.data.length ∧ (t.op = opWr ∨ t.op = opWrb ∨ t.op = opUnlockwr) then
    s.onDrop (i * 32 + t.drop) fun d => { d with attnEn := t.data.getD (0xFFFF08 - t.addr) 0 }
  else s

/-- The head command of a bridge item ends with an answer (R197, R198). A NAK that a retry has cured counts once (R450). -/
def State.bridgeAnswer (s : State) (i : Nat) (t : Tx) (p id : Nat) (a : Answer) : State :=
  let g := i * 32 + t.drop
  let cured := ((s.item p id).map fun it => decide (0 < it.retries)).getD false && a.refreshes
  let s := if cured then s.countError 4 g else s
  let fail := fun (s : State) cause nak => (s.failHead p id cause nak).countError 4 g
  match a with
  | .ack => (s.copyAttnEn i t).ackHead p id
  | .rdata ws d => s.readData p id ws d
  | .nak n =>
    if !retryNak n then s.failHead p id causeNak n
    else if ((s.item p id).map fun it => decide (it.retries < s.flt.retrySeg)).getD false then
      (s.onItem p id fun it => { it with issued := false, retries := it.retries + 1 }).traceRetry 4 g
    else fail s causeNak n
  | .badParity => fail s causeParity 0
  | .badCrc => fail s causeCrc 0
  | .silent | .busy _ => fail s causeTimeout 0
  | .badFormat | .stat _ | .mrsp _ => fail s causeFormat 0

/-- NO_ANSWER arises: drops are enumerated and each has given a timeout on its last 3 POLLs (R444). -/
def State.checkNoAnswer (s : State) (i : Nat) : State :=
  let l := (s.segDrops i).filter fun g => (s.drop g).state != .retired
  if l.isEmpty || (s.seg i).causes.getLsbD 1 || !l.all (fun g => decide (3 ≤ (s.drop g).pollTimeouts)) then s
  else (s.onSeg i fun x => { x with noAnswerTick := some s.tick }).segCause i 2

/-- A POLL without an answer: the third in a row at Colant-2 rate puts the drop on record in Colant-1 mode, and it is polled again (R88). -/
def State.pollSilent (s : State) (i n : Nat) (c2 : Bool) : State :=
  let g := i * 32 + n
  let s := s.onDrop g fun d => { d with pollTimeouts := d.pollTimeouts + 1, c2Silent := if c2 then d.c2Silent + 1 else d.c2Silent }
  let d := s.drop g
  let s := if d.colant2 && decide (3 ≤ d.c2Silent) then ((s.setMode g false).onDrop g fun d => { d with wafer := 0 }).queueHk i (pollItem n) else s
  s.checkNoAnswer i

/-- A drop that was polled has not returned ATTN at 0: the stray-attention condition is broken (R214). -/
def State.breakStray (s : State) (i : Nat) : State :=
  if (s.seg i).attn then (s.onSeg i fun x => { x with zeroSince := some s.tick, stray := none }).endCause i 3 else s

/-- A service-port access ends: OK with the words read, otherwise REFUSED with the answer (log entry 33). -/
def State.serviceAnswer (s : State) (i : Nat) (t : Tx) (a : Answer) : State :=
  let s := s.onPlant fun x => { x with svcBusy := false }
  match a with
  | .ack => (s.copyAttnEn i t).emit (.service .ok [])
  | .rdata ws _ => s.emit (.service .ok (ws.map (·.toNat)))
  | .nak n => s.emit (.service .refused [opNak, n])
  | _ => s.emit (.service .refused [])

/-- An answer that is not the bridge's: its effect, and one error of the drop's window where R452 counts it. -/
def State.unitAnswer (s : State) (i : Nat) (t : Tx) (a : Answer) : State :=
  let g := i * 32 + t.drop
  let heard := fun (s : State) => s.onDrop g fun d => { d with pollTimeouts := 0, c2Silent := 0 }
  let s : State := match t.who, a with
    | .poll, .stat w => heard (s.onSeg i fun x => { x with stats := x.stats ++ [(t.drop, w)] })
    | .poll, .silent => (s.pollSilent i t.drop t.colant2).breakStray i
    | .poll, _ => (heard s).breakStray i
    | .qdelay, .ack => s.onDrop g fun d => { d with qdelay := (t.data.headD 0).toNat }
    | .service, _ => s.serviceAnswer i t a
    | _, .rdata ws _ => s.onSeg i fun x => { x with rtvIn := x.rtvIn ++ [{ who := t.who, drop := t.drop, words := ws, tick := s.tick }] }
    | _, _ => s.rtvFailed i t
  if a.counts then s.countError 4 g else s

/-- A transaction ends with an answer after busy BUSY words (R83, R84, R247, R254). Where its drop has been retired or lost meanwhile, the bridge's
further commands for it fail (R198, R453). -/
def State.finishTx (s : State) (i : Nat) (t : Tx) (busy : Nat) (a : Answer) : State :=
  let e := s.endTx i t busy
  let s := e.1.onSeg i fun x => if t.who = .poll then { x with pollLast := t.drop } else x
  let s := if a.refreshes then s.refreshed (i * 32 + t.drop) else s
  let s := if a.answered then s.answered i else s
  let s : State := match t.who with
    | .bridge p id => s.bridgeAnswer i t p id a
    | _ => s.unitAnswer i t a
  let s := if s.reachable (i * 32 + t.drop) then s else s.failNoDropAll fun j d => j == i && d == t.drop
  (s.afterTx i e.2).nextRtv i

/-- Data words an RDATA to a command carries. A Retriever request's answer is word 0 alone where its VALID is 0; a CRC report with VALID 1 has the
CRCs of as many regions as its word 0 says, which are the drop's (R381). -/
def Tx.lens (t : Tx) (ws : List ColWord) : List Nat :=
  if t.op = opRd ∨ t.op = opLockrd then [1]
  else if t.op = opFrame then
    let w := (((ws.drop 1).head?).map (·.data)).getD 0
    if !w.getLsbD 7 then [1] else if t.who = .rtvCrc ∧ 2 * (w.extractLsb' 0 7).toNat + 1 ≠ t.len then [] else [t.len]
  else [t.len]

/-- The first of the words received lies where R84 accepts it: within one word of 2p + 2w after the request's last word and of the BUSY words
taken since, or in the wider span of an unmeasured drop. In thirds of a ns. -/
def State.inSpan (s : State) (i : Nat) (t : Tx) (sinceNs : Nat) : Bool :=
  let w := if t.colant2 then 25 else 50
  let at_ := 3 * sinceNs
  match (s.drop (i * 32 + t.drop)).delay with
  | some p => decide (6 * p + (1 + t.busy) * w ≤ at_) && decide (at_ ≤ 6 * p + (3 + t.busy) * w)
  | none => decide ((1 + t.busy) * w ≤ at_) && decide (at_ ≤ 6 * 520 + (3 + t.busy) * w)

/-- COLANT_RESPONSE: words that arrive for the outstanding transaction. Words that do not begin where R84 accepts a header are none. -/
def execColantResponse (i : SegId) (a : ColAnswer) (s : State) : Res :=
  match (s.seg i).tx with
  | none => .next s
  | some t =>
    let n := (a.words.takeWhile (isBusy t.drop)).length
    let busy := t.busy + n
    if !s.inSpan i t a.sinceNs then .next s
    else if 256 < busy then .next (s.finishTx i t 257 .silent)
    else
      match a.words.drop n with
      | [] => .next (s.onSeg i fun x => { x with tx := some { t with busy := busy } })
      | rest => .next (s.finishTx i t busy (judge t.op t.drop (t.lens rest) t.colant2 rest))

/-- When a missing response is decided, in ticks from the command's first word: the request, the prediction 2p + 2w, one word of margin and the
header; 1,040 ns in place of 2p while p is not known (R84). -/
def State.responseSpan (s : State) (i : Nat) (t : Tx) : Nat :=
  let n := (commandWords t.op t.drop t.addr t.len t.data).length + b2n t.colant2 + t.busy + 4
  let p2 := 2 * ((s.drop (i * 32 + t.drop)).delay.getD 520)
  ceilDiv (n * (if t.colant2 then 25 else 50) + 3 * p2) 30

/-- COLANT_TIMEOUT: no valid header has come in the predicted span. -/
def execColantTimeout (i : SegId) (s : State) : Res :=
  match (s.seg i).tx with
  | none => .next s
  | some t => if s.past t.startTick (s.responseSpan i t) then .next (s.finishTx i t t.busy .silent) else .next s

/-! ### ATTN and POLL (R107, R213, R214) -/

/-- Drops of the segment that a POLL may address. -/
def State.pollable (s : State) (i : Nat) : List Nat :=
  (s.segDrops i).filter fun g => (s.drop g).state != .retired && (s.drop g).negoFail.isNone

/-- One round: in ascending drop number from the one after the last polled, each drop with a nonzero DD_ATTN_EN (R107). -/
def State.pollRound (s : State) (i : Nat) : State :=
  let l := ((s.pollable i).filter fun g => (s.drop g).attnEn != 0).map (· % 32)
  let k := (s.seg i).pollLast
  let order := (l.filter fun n => decide (k < n)) ++ l.filter fun n => decide (n ≤ k)
  (order.foldl (fun s n => s.queueHk i (pollItem n)) s).onSeg i fun x => { x with roundTick := some s.tick }

/-- ATTN_ASSERTED: asserted for 100 ns; the first round begins. -/
def execAttnAsserted (i : SegId) (s : State) : Res :=
  let x := s.seg i
  if !x.clk || x.attn then .next s
  else .next ((s.onSeg i fun x => { x with attn := true, attnTick := s.tick, zeroSince := some s.tick, stray := none }).pollRound i)

/-- ATTN_RELEASED: rounds stop, and with them the stray-attention condition. -/
def execAttnReleased (i : SegId) (s : State) : Res :=
  if !(s.seg i).attn then .next s
  else .next ((s.onSeg i fun x => { x with attn := false, zeroSince := none, stray := none, roundTick := none }).endCause i 3)

/-- A round is under way: some POLL waits or is on the wires. -/
def State.polling (s : State) (i : Nat) : Bool :=
  (s.seg i).hk.any (fun h => h.who == .poll) || ((s.seg i).tx.map fun t => t.who == .poll).getD false

/-- POLL_ROUND: every enumerated drop once per 100 ms; while ATTN stays asserted, the next round 100 µs after the previous one began. -/
def execPollRound (i : SegId) (s : State) : Res :=
  let x := s.seg i
  if !x.clk || !x.enumerated then .next s
  else if s.past x.fullPollTick (ticksOfMs 100) then
    .next (((s.pollable i).foldl (fun s g => s.queueHk i (pollItem (g % 32))) s).onSeg i fun x => { x with fullPollTick := s.tick })
  else if x.attn && !s.polling i && (x.roundTick.map fun t => s.past t (ticksOfUs 100)).getD true then .next (s.pollRound i)
  else .next s

/-- Bits of a STAT (R108). -/
def statAttn (w : W16) : Bool := w.getLsbD 15
def statCrcErr (w : W16) : Bool := w.getLsbD 11
def statParErr (w : W16) : Bool := w.getLsbD 10
def statLost (w : W16) : Bool := w.getLsbD 9
def statReverted (w : W16) : Bool := w.getLsbD 8

/-- A STAT of drop g: latched, counted and signalled; a lost link starts a renewal (R213, R334, R452, R514). -/
def State.stat (s : State) (g : Nat) (w0 : W16) : State :=
  let d := s.drop g
  let w := if d.discardLoss then w0 &&& ~~~(0x300#16) else w0
  let frames := d.waf.sinceLastPoll
  let s := s.onDrop g fun d =>
    { d with latched := d.latched ||| w.extractLsb' 0 13, lastStat := w.extractLsb' 13 3, discardLoss := false,
             waf := { d.waf with sinceLastPoll := [] } }
  let s := if statCrcErr w then (s.markTiles g frames).countError 4 g else s
  let s := if statParErr w then s.countError 4 g else s
  let s := if statLost w then s.countError 4 g else s
  let s := if statAttn w || statLost w || statReverted w then s.signal g else s
  if (statLost w || statReverted w) && (s.drop g).state != .retired then
    (((s.setMode g false).invalidateDrop g).markUnknown g).onDrop g fun d => { d with wafer := 0, renewDue := true }
  else s

/-- STAT_RECEIVED: the oldest answer of a POLL is handled. A STAT with ATTN 1 breaks the stray-attention condition (R214). -/
def execStatReceived (i : SegId) (s : State) : Res :=
  match (s.seg i).stats with
  | [] => .next s
  | (n, w) :: rest =>
    let s := (s.onSeg i fun x => { x with stats := rest }).stat (i * 32 + n) w
    .next (if statAttn w then s.breakStray i else s)

/-- STRAY_ATTENTION: ATTN asserted for 1 ms while every STAT has shown ATTN 0. -/
def execStrayAttention (i : SegId) (s : State) : Res :=
  let x := s.seg i
  match x.zeroSince, x.stray with
  | some t, none =>
    if x.attn && s.past t (ticksOfMs 1) then .next ((s.onSeg i fun x => { x with stray := some s.tick }).signalSeg i 1) else .next s
  | _, _ => .next s

/-- STUCK_ATTN: the condition has lasted 1 s without a break. -/
def execStuckAttn (i : SegId) (s : State) : Res :=
  match (s.seg i).stray with
  | some t => if (s.seg i).attn && s.past t (ticksOfS 1) then .next (s.segCause i 3) else .next s
  | none => .next s

/-- NO_ANSWER_RESET: 1 s after the cause arose, or after an enumeration in which no drop answered (R458). -/
def execNoAnswerReset (i : SegId) (s : State) : Res :=
  let x := s.seg i
  match x.noAnswerTick with
  | some t =>
    if x.causes.getLsbD 1 && !x.retired && s.past t (ticksOfS 1) then
      .next (s.onSeg i fun x => { x with noAnswerTick := none, resetDue := true })
    else .next s
  | none => .next s

end Sys2Proof.Machine
end

