-- ==== Sys2Proof/Machine/Cycle.lean ====
section
/-! DEFINITION. The segment cycle: its start and the calendar swap (R173, R222, R233), link-hold windows (R234, R235), slots (R226, R230,
R345, R352, R368), Whistle periods (R95), FREEZE and RESUME (R100, R101), the SYNC (R64, R65, R333, R387), presentation (R14, R163), the
arbiter's phases and registers (R244–R251, R263) and the timing wheel (R255). -/

namespace Sys2Proof.Machine

/-! ### Link-hold windows (R234, R235) -/

/-- The drops of a segment in Colant-2 mode that the unit may address. -/
def State.c2Drops (s : State) (i : Nat) : List Nat := (s.segDrops i).filter fun g => (s.drop g).colant2 && (s.drop g).state != .retired

/-- A link-hold window of 72 w2: a KEEPALIVE to every drop in Colant-2 mode, in ascending drop number, and IDLE. On a mixed segment outside a
Whistle period it is a Whistle period of its own, N = 67. -/
def State.holdWindow (s : State) (i : Nat) : State :=
  let gs := s.c2Drops i
  let off := s.wireOff i
  let s := s.onSeg i fun x => { x with wordsEnd := off + 72 }
  let ks := gs.flatMap fun g => message [header opKeepalive (g % 32) 0] true
  let s := gs.foldl (fun s g => s.refreshed g) s
  if gs.isEmpty then s.sendWords i (s.base2 i) (List.replicate (if s.base2 i then 72 else 36) idleWord)
  else if s.mixed i && !s.inWhistle i then s.whistlePeriod i 64 (ks ++ List.replicate (64 - ks.length) idleWord)
  else
    let ws := if (s.seg i).rate2 then ks else [alignWord, alignWord] ++ ks
    s.sendWords i true (ws ++ List.replicate (72 - ws.length) idleWord)

/-- A due window whose point lies before a guest slot goes at the slot's start, before the GRANT (R235). -/
def State.windowFirst (s : State) (i : Nat) (e : Slot) : Bool :=
  s.holdDue i && decide ((s.seg i).linkHold * 120000 < e.start) && (s.seg i).region != .slot e.idx

/-- 72 w2 are left for a window: in the slot or the open time at hand; a guest's slot gives them before its GRANT, for a point before the slot. On a
mixed segment, or one whose base rate has changed since its SYNC, the words between a SYNC and its switch give none (R96, R235). -/
def State.holdRoom (s : State) (i : Nat) : Bool :=
  let off := s.offsetNow i
  let S := s.cycS i
  if (decide (S ≤ off) && decide (off < S + 6)) || ((s.seg i).syncNs.isSome && (s.mixed i || (s.seg i).syncC2 != s.base2 i)) then false
  else
    match s.slotOver i off with
    | some e => (e.kind != 4 || s.windowFirst i e) && decide (off + 72 ≤ e.finish)
    | none => decide (off + 72 ≤ s.openEnd i off)

/-- FRAMEs that begin before a limit, the offset after them and those left; a word takes unit w2. -/
def framesUpTo (limit : Option Nat) (unit : Nat) (off : Nat) (l : List (List ColWord)) : List (List ColWord) × Nat × List (List ColWord) :=
  match l with
  | [] => ([], off, [])
  | f :: rest =>
    if (limit.map fun p => decide (p ≤ off)).getD false then ([], off, f :: rest)
    else
      let r := framesUpTo limit unit (off + unit * f.length) rest
      (f :: r.1, r.2)

/-- The slot under way can no longer carry its FRAMEs: FREEZE, a frozen arbiter, a drop that may not be addressed, a mismatch (R101, R113, R230,
R248, R453). -/
def State.runStops (s : State) (i : Nat) (r : SlotRun) : Bool :=
  let x := s.seg i
  let d := s.drop (i * 32 + r.drop)
  x.frozen || x.arb.freeze || d.state == .retired || d.negoFail.isSome || match x.region with
    | .slot k => (s.slotAt i k).any (s.slotIdle i)
    | .openTime => false

/-- The slot can no longer carry what is left of its FRAMEs; a mismatch signals (R230, R333). -/
def State.cutRun (s : State) (i : Nat) : State :=
  let idle := match (s.seg i).region with
    | .slot k => (s.slotAt i k).any (s.slotIdle i)
    | .openTime => false
  (if idle then s.signalSeg i 0 else s).dropRun i

/-- Of a Wafer slot's job the tiles that n FRAMEs carry, the last of them followed by left more, have been sent since the drop's last POLL (R334). -/
def State.markSent (s : State) (i : Nat) (r : SlotRun) (n left : Nat) : State :=
  match (s.seg i).region with
  | .slot k => s.onWaf (i * 32 + r.drop) fun w =>
      let now := fun (o : WafOut) => { o with slices := (o.slices.drop (o.slices.length - left - n)).take n }
      { w with sinceLastPoll := ((w.outs.filter fun o => o.sent && o.index == k).flatMap fun o => (now o).carried).foldl insertAsc w.sinceLastPoll }
  | .openTime => s

/-- The slot's FRAMEs go out up to the first boundary at or after the next window's point (R235, R352). They are listed in one step, with those that
begin within the slot before that point (log entry 153). -/
def State.runFrames (s : State) (i : Nat) : State :=
  match (s.seg i).run with
  | none => s
  | some r =>
    if !r.frames.isEmpty && s.runStops i r then s.cutRun i else
    let p := (s.seg i).linkHold * 120000
    let x := framesUpTo (if p + 72 < s.cycS i then some p else none) (if r.colant2 then 1 else 2) r.off r.frames
    ((x.1.foldl (fun s ws => (s.sendWords i r.colant2 ws).refreshed (i * 32 + r.drop)) s).markSent i r x.1.length x.2.2.length).onSeg i fun y =>
      { y with run := some { r with off := x.2.1, frames := x.2.2 } }

/-- LINK_HOLD_WINDOW: a point has been reached and the wires are at a FRAME or transaction boundary with 72 w2 left in the region. What waited
for the window goes on after it. -/
def execLinkHoldWindow (i : SegId) (s : State) : Res :=
  let s := s.settleWhistle i
  let x := s.seg i
  if !s.holdDue i || x.tx.isSome || x.tenure.isSome || s.wordsOut i || !s.holdRoom i || !s.atBoundary i then .next s
  else
    let s := (s.holdWindow i).onSeg i fun x =>
      { x with linkHold := x.linkHold + 1, run := x.run.map fun r => { r with off := r.off + 72 } }
    .next (((s.runFrames i).claimWires i).nextRtv i)

/-! ### The start of a cycle (R222, R223) -/

/-- The nominal start of the next cycle, once it has been reached: the presentation instant that ends the cycle in progress, after a step of
unit time the first one at or after its end (R62); for the first cycle the instant just passed. -/
def State.nextStart (s : State) (i : Nat) : Option Nat :=
  let x := s.seg i
  if x.started then
    let t := s.instantFrom i x.endNs
    if t ≤ s.now then some t else none
  else
    let t := s.instantFrom i (s.now - 5000)
    if t ≤ s.now then some t else none

/-- Slots that no SYNC followed carried their tiles in vain: they are UNKNOWN (R333). -/
def State.loseUnsynced (s : State) (i : Nat) : State :=
  (s.segDrops i).foldl (fun s g =>
    s.onWaf g fun w =>
      { w with outs := [], unknown := ((w.outs.filter (·.sent)).flatMap (·.carried)).foldl insertAsc w.unknown }) s

/-- The drop is handed back in time for the picture that its back buffer holds, and the third buffer waits (R163, R299). -/
def Drop.handedBack (d : Drop) : Bool := !d.third.isEmpty && d.backFor.any fun t => d.activeAt.any fun a => decide (a ≤ t)

/-- A drop handed back takes the third buffer in place of the back buffer (R163, R299). -/
def Drop.takeThird (d : Drop) : Drop := if d.handedBack then { d with back := d.third, third := [] } else d

/-- A panel's reference copy: zeros until something has been sent (R333). -/
def WaferDrop.refCodes (w : WaferDrop) (p : Panel) : Codes := (if w.ref.isEmpty then List.replicate (p.w * p.h * p.ch) 0 else w.ref).toArray

/-- The same once the pass has ended: a Wafer drop's tiles are classified anew. A tile that differs from the fallback picture is CHANGED too,
in this cycle and, since the fallback picture stays the pass's, in the next (R332). -/
def State.takeThird (s : State) (g : Nat) : State :=
  let d := s.drop g
  if !d.handedBack then s
  else
    let s := s.onDrop g (·.takeThird)
    if d.wafer = 0 then s
    else
      let p := s.panel g
      let class_ := fun (before : List Nat) => p.classify d.third.toArray before.toArray (d.waf.refCodes p) d.waf.unknown
      let a := class_ d.waf.beforeCodes
      let b := class_ d.back
      s.onWaf g fun w => { w with changed := b.1.foldl insertAsc a.1, unsettled := a.2.filter fun t => !b.1.contains t }

/-- At a presentation instant buffers swap where a SYNC presented them, and drops handed back show their surfaces again (R14, R163, R169). -/
def State.present (s : State) (i : Nat) : State :=
  let x := s.seg i
  let shown := (x.syncNs.map fun t => decide (t ≤ s.now)).getD false
  let s : State :=
    if !shown then s
    else
      let s := (s.segDrops i).foldl (fun s g => s.onDrop g fun d =>
        let ready := d.backFor == x.syncNs && d.lateFor != x.syncNs
        { d with presentedSeq := x.seq, front := if ready then d.takeThird.back else d.front, backFor := none, third := [] }) s
      s.onSeg i fun x => { x with syncNs := none }
  let now := s.now
  let s := (s.segDrops i).foldl (fun s g => s.onDrop g fun d =>
    if d.state = .fallback ∧ (d.activeAt.map fun t => decide (t ≤ now)).getD false then
      { d with state := .active, activeAt := none, fallbackFrom := none }
    else d) s
  s.updateTakeover

/-- CYCLE_START: two ALIGN words, RESUME where it is due, link-hold window 0 and the head. -/
def execCycleStart (i : SegId) (s : State) : Res :=
  let s := s.settleWhistle i
  let x := s.seg i
  match s.nextStart i with
  | none => .next s
  | some t =>
    if !x.clk || !x.enumerated || x.retired || x.tx.isSome || x.tenure.isSome then .next s
    else
      let c2 := s.base2 i
      let s := ((s.dropRun i).present i).loseUnsynced i
      let s := s.sendWords i c2 [alignWord, alignWord]
      let resume := x.resumeDue && !s.plant.halted
      let s := if resume then s.sendWords i c2 (broadcast opResume []) else s
      let s := s.onSeg i fun x =>
        { x with started := true, cycleStartNs := t, beginNs := s.now, endNs := s.instantAfter i t, cycleTick := s.tick, region := .openTime,
                 linkHold := 1, wordsEnd := (if resume then 3 else 2) * (if c2 then 1 else 2), frozen := x.frozen && !resume, resumeDue := x.resumeDue && !resume, syncNs := none, syncNow := false }
      .next (s.holdWindow i)

/-- CALENDAR_SWAP: every change due at the cycle's start takes effect together, in its head (R173, R231, R233). -/
def execCalendarSwap (i : SegId) (s : State) : Res :=
  let x := s.seg i
  let t := x.cycleStartNs
  if !x.started || !x.calDue t || decide (120 < s.offsetNow i) then .next s else .next (s.onSeg i fun x => x.swapCalendar t)

/-! ### Picture slots (R90, R91, R345, R352, R354, R368) -/

/-- The codes of n pixels from raster position a; positions beyond the panel are 0. -/
def Panel.rawCodes (p : Panel) (codes : Codes) (a n : Nat) : List Nat :=
  (List.range (n * p.ch)).map fun k => codes.getD (a * p.ch + k) 0

/-- A raw frame's payload: start line, start pixel, then n pixels from raster position a and those that R91 adds, packed from bit 15. -/
def Panel.rawPayload (p : Panel) (codes : Codes) (a n : Nat) : List W16 :=
  let bits := p.ch * p.d
  let extra := (ceilDiv (n * bits) 16 * 16 - n * bits) / bits
  [BitVec.ofNat 16 (a / p.w), BitVec.ofNat 16 (a % p.w)]
    ++ wordsOfBits ((p.rawCodes codes a (n + extra)).flatMap fun v => msbBits v p.d)

/-- The payloads of raw slot j of k: frames of at most m pixels over the slot's lines. -/
def Panel.rawPayloads (p : Panel) (codes : Codes) (j k : Nat) : List (List W16) :=
  let r := rawLines p.h j k
  let m := 65504 / (p.ch * p.d)
  let n := (r.2 - r.1) * p.w
  (List.range (ceilDiv n m)).map fun f => p.rawPayload codes (r.1 * p.w + f * m) (min m (n - f * m))

/-- FRAMEs of one KIND to a drop, with the SEQ of the cycle's SYNC; the slot's link-hold windows go between them. -/
def State.sendFrames (s : State) (i n kind : Nat) (c2 : Bool) (l : List (List W16)) : State :=
  let seq := ((s.seg i).seq.toNat + 1) % 16
  let frames := l.map fun ws => message (header opFrame n kind :: BitVec.ofNat 16 (seq * 4096 + (ws.length - 1)) :: ws) c2
  (s.onSeg i fun x => { x with run := some { drop := n, colant2 := c2, off := s.offsetNow i, frames := frames } }).runFrames i

/-- The place of a slot among its drop's slots of its kind, and their number. -/
def State.slotPlace (s : State) (i : Nat) (e : Slot) : Nat × Nat :=
  let own := slotsFor (s.slotsNow i) e.drop e.kind
  ((firstIdx (fun y => y.idx == e.idx) own).getD 0, own.length)

/-- The back buffer holds the picture for the instant that ends the cycle in progress. -/
def State.backReady (s : State) (g : Nat) : Bool :=
  let t := (s.seg (g / 32)).endNs
  (s.drop g).backFor == some t && (s.drop g).lateFor != some t

/-- A raw slot sends its lines of the finished picture. -/
def State.rawSlot (s : State) (i : Nat) (e : Slot) : State :=
  let g := i * 32 + e.drop
  let d := s.drop g
  let pl := s.slotPlace i e
  if s.backReady g then s.sendFrames i e.drop 1 (e.rate == 1) ((s.panel g).rawPayloads d.back.toArray pl.1 pl.2) else s

/-- FILL frames for the whole of a slot. -/
def Panel.fillOut (p : Panel) (e : Slot) : WafOut :=
  { index := e.idx, ver := p.ver, slices := (fillFrames (e.budget + 1) e.budget).map fun n => p.fillSlice (n - 3), budget := e.budget, sent := false }

/-- A Wafer slot sends its job's frames, or FILL frames only where it has none of the drop's negotiated version: the budget is filled all the same
(R17, R330, R354). It sends nothing where the pass was late (R298). -/
def State.waferSlot (s : State) (i : Nat) (e : Slot) : State :=
  let g := i * 32 + e.drop
  let d := s.drop g
  if d.lateFor = some (s.seg i).endNs then s
  else
    let job := if s.backReady g then d.waf.outs.find? fun o => o.index == e.idx && o.ver == d.wafer else none
    let o := job.getD ((s.panel g).fillOut e)
    (s.onWaf g fun w => { w with outs := (w.outs.filter fun x => x.index != e.idx) ++ [{ o with sent := true }] }).sendFrames i e.drop 2 true
      (o.slices.map (·.payload))

/-- SLOT_START of a picture, control or Retriever slot. -/
def execSlotStart (i : SegId) (k : CalIndex) (s : State) : Res :=
  let s := s.settleWhistle i
  let x := s.seg i
  match s.slotAt i k with
  | none => .next s
  | some e =>
    let off := s.offsetNow i
    if !x.clk || !x.started || x.retired || x.tx.isSome || x.tenure.isSome || x.region == .slot k
        || decide (off < e.start) || decide (e.finish ≤ off) || e.kind == 4 || e.kind == 6 then .next s
    else if s.slotIdle i e then .next ((((s.dropRun i).onSeg i fun x => { x with region := .slot k }).signalSeg i 0).settleIdle i)
    else
      let g := i * 32 + e.drop
      let s := ((if e.kind = 3 then s.releaseHolder i else s.releaseWires i).dropRun i).onSeg i fun x => { x with region := .slot k, rtvStep := 0 }
      let s := s.takeThird g
      let d := s.drop g
      if e.kind = 3 then .next (s.claimWires i)
      else if x.frozen || x.arb.freeze || !d.found || d.state == .retired || d.negoFail.isSome then .next s
      else if e.kind = 1 then .next (s.rawSlot i e)
      else if e.kind = 2 then .next (s.waferSlot i e)
      else .next (s.nextRtv i)

/-- WHISTLE: a Whistle entry's period begins, WHISTLE at Colant-1 rate and two ALIGN at Colant-2 rate; none from FREEZE to RESUME (R101). -/
def execWhistle (i : SegId) (k : CalIndex) (s : State) : Res :=
  let s := s.settleWhistle i
  let x := s.seg i
  match s.slotAt i k with
  | none => .next s
  | some e =>
    let off := s.offsetNow i
    if !x.clk || !x.started || x.retired || x.tx.isSome || x.tenure.isSome || x.whistleEnd.isSome || x.frozen || e.kind ≠ 6
        || decide (off < e.start) || decide (e.finish ≤ off) then .next s
    else
      let s := s.releaseWires i
      let s := s.sendWords i false (message [header opWhistle 0 (e.len / 65536), BitVec.ofNat 16 e.len] false)
      let s := s.sendWords i true [alignWord, alignWord]
      .next (s.onSeg i fun x => { x with whistleEnd := some (x.cycleTick + ceilDiv (e.finish * 5) 6) })

/-! ### SYNC (R64, R65, R333, R387) -/

/-- The offset at which the SYNC is launched: S, or the present one where unit time has jumped over it (R62, R64). -/
def State.syncAt (s : State) (i : Nat) : Nat := min (s.offsetNow i) (s.cycS i)

/-- A SYNC whose time unit time has jumped over goes at once, where the order of R99, the rates of R96 and the transactions of R83 let it: in open
time, once the cycle's picture slots, Whistle periods and slots of another rate have ended (R62, log entry 144). -/
def State.syncFree (s : State) (i : Nat) : Bool :=
  let off := s.offsetNow i
  (s.seg i).syncNow && !s.wordsOut i && (s.seg i).whistleEnd.isNone && (s.slotOver i off).isNone && decide (off + 6 ≤ s.openEnd i off)
    && (slotsOf (s.seg i).calendar).all fun e => decide (e.finish ≤ off) || (e.kind != 1 && e.kind != 2 && e.kind != 6 && (e.rate == 1) == s.base2 i)

/-- N = round_half_even((T − L − Dmax) ÷ w), with w in unit time and L the unit time at which the SYNC's last word ends, its words counted from
its offset on at the present RATE (R65). -/
def State.countdown (s : State) (i : Nat) (c2 : Bool) : Nat :=
  let x := s.seg i
  let rate : Int := 42949672960 + s.tb.rate.toInt       -- ns per tick, in 2^-32 ns
  let unit : Int := 128849018880                        -- 30 × 2^32: a w2 is 25 × rate ÷ unit ns
  let ahead : Int := 25 * (s.syncAt i + if c2 then 3 else 6) - 30 * (s.tick - x.cycleTick : Nat)   -- from now to L, 1/3 ns of local time
  let num := ((x.endNs : Int) - s.dmax i) * unit - 30 * s.tb.acc.toNat - ahead * rate
  let den := (25 * rate).toNat * (if c2 then 1 else 2)
  (clampInt 0 16777215 (roundHalfEven num den)).toNat

/-- The reconstruction of every slice sent enters the reference copy; the tiles carried are known again (R333). -/
def Panel.commitOut (p : Panel) (ref : List Nat) (o : WafOut) : List Nat :=
  (o.recon.foldl (fun (r : Codes) x => x.2.zipIdx.foldl (fun r v => r.setIfInBounds (x.1 * p.ch + v.2) v.1) r) ref.toArray).toList

/-- At the SYNC the cycle's slices are committed; the figures of the last cycle are those of the slots sent in it, 0 where there was none (R333, R358). -/
def State.commitWafer (s : State) (g : Nat) : State :=
  let d := s.drop g
  let p := s.panel g
  let sent := d.waf.outs.filter (·.sent)
  let s := s.onWaf g fun w =>
    { w with budget := sumNat (sent.map (·.budget)), changedCnt := satAdd (0 : W16) (sumNat (sent.map (·.tiles .changed))),
             refinedCnt := satAdd (0 : W16) (sumNat (sent.map (·.tiles .refined))), fillCnt := sumNat (sent.map (·.fill)) }
  if sent.isEmpty then s
  else
    let ref := sent.foldl p.commitOut (d.waf.refCodes p).toList
    let carried := sent.flatMap (·.carried)
    let unknown := d.waf.unknown.filter fun t => !carried.contains t
    let codes := d.back.toArray
    let un := (List.range (p.tw * p.nb)).filter fun t =>
      !unknown.contains t && !(p.blocks (t / p.tw) (t % p.tw)).all (p.sameBlock codes ref.toArray)
    s.onWaf g fun w =>
      { w with ref := ref, unknown := unknown, unsettledCnt := un.length, outs := [],
               lastShift := sent.foldl (fun m o => o.shifts.foldl (fun m x => tblPut m x.1 x.2) m) w.lastShift }

/-- The expected CRC set of the picture a drop will present; those of the last 4 SEQs are kept (R387). -/
def State.expectCrcs (s : State) (g : Nat) (seq : Byte) : State :=
  let d := s.drop g
  let recent := d.expected.filter fun e => decide ((seq - e.1).toNat < 4)
  if !d.crcEn || d.state == .retired then s.onDrop g fun d => { d with expected := recent }
  else
    let codes := if d.wafer ≠ 0 then d.waf.ref else if s.backReady g then d.back else d.front
    s.onDrop g fun d => { d with expected := ((seq, (s.panel g).crcSet codes.toArray) :: recent) }

/-- SYNC: launched at offset S with the countdown for T; from FREEZE to RESUME there is none (R101). Where words still keep the wires past S + 6 the
cycle has none (log entry 145). -/
def execSync (i : SegId) (s : State) : Res :=
  let s := s.settleWhistle i
  let x := s.seg i
  let off := s.offsetNow i
  if !x.clk || !x.started || x.retired || x.frozen || x.tx.isSome || x.tenure.isSome || x.syncNs.isSome || s.boot.phase == .service
      || (!s.syncFree i && (decide (off < s.cycS i) || decide (s.cycS i + 6 < off)))
  then .next s
  else
    let c2 := s.base2 i
    let n := s.countdown i c2
    let seq := x.seq + 1
    let s := (s.releaseWires i).dropRun i
    let s := s.sendWords i c2 (broadcast opSync [BitVec.ofNat 16 (seq.toNat * 256 + n / 65536), BitVec.ofNat 16 n])
    let gs := s.segDrops i
    let s := gs.foldl (fun s g => s.takeThird g) s
    let s := gs.foldl (fun s g => (s.commitWafer g).refreshed g) s
    let s := gs.foldl (fun s g => s.expectCrcs g seq) s
    .next (s.onSeg i fun x => { x with seq := seq, syncNs := some x.endNs, syncC2 := c2, syncNow := false, wordsEnd := off + 6, region := .openTime })

/-- PRESENTATION_INSTANT. -/
def execPresentationInstant (i : SegId) (s : State) : Res := .next (s.present i)

/-! ### Arbitration (R244–R251) -/

/-- Housekeeping queues a drop's refresh before a quarter of DD_KEEPALIVE has passed since the last (R102, R250; an eighth, log entry 35). -/
def State.queueRefreshes (s : State) (i : Nat) : State :=
  (s.pollable i).foldl (fun s g =>
    let d := s.drop g
    let k := (d.desc.map fun x => x.keepalive.toNat).getD 0
    if k ≠ 0 ∧ s.past d.refreshTick (ticksOfMs k / 8) then s.queueHk i (keepaliveItem (g % 32) false) else s) s

/-- A Leash limit at or below a counter sets the counter to it at A1; a limit of 0 leaves it (R251). -/
def Arb.clampWaits (a : Arb) : Arb :=
  { a with wait := arbCodes.foldl (fun w c => if a.leashOf c = 0 ∨ tblGet 0 w c ≤ a.leashOf c then w else tblSet 0 w c (a.leashOf c)) a.wait }

/-- ARBITRATION_PHASE. -/
def execArbitrationPhase (i : SegId) (s : State) : Res :=
  let s := (s.settleWhistle i).settleIdle i
  if !(s.seg i).started then .next s
  else .next ((((s.queueRefreshes i).onArb i fun a => a.clampWaits).claimWires i).arbitrate i)

/-- KEEPALIVE_OVERDUE: the last refresh lies K ÷ 2 in the past; its refresh becomes an EMG request (R250). -/
def execKeepaliveOverdue (g : DropId) (s : State) : Res :=
  let d := s.drop g
  let k := (d.desc.map fun x => x.keepalive.toNat).getD 0
  let i := g / 32
  if k = 0 ∨ !d.found ∨ d.state = .retired ∨ d.negoFail.isSome ∨ !(s.seg i).clk ∨ !s.past d.refreshTick (ticksOfMs k / 2) then .next s
  else if (s.seg i).hk.any fun h => h.who == .keepalive && h.drop == g.val % 32 && h.emg then .next s
  else .next (s.onSeg i fun x =>
    { x with hk := (x.hk.filter fun h => !(h.who == .keepalive && h.drop == g.val % 32)) ++ [keepaliveItem (g.val % 32) true] })

/-- WHEEL_BUCKET: the shaper's bucket has been reached; it is eligible again, or is placed again while it is in debt (R255). -/
def execWheelBucket (p : PartId) (sh : Fin 32) (s : State) : Res :=
  match (s.shaper p sh).bind (·.bucket) with
  | some t => if t ≤ s.now then .next (s.onShaper p sh fun x => { x with bucket := x.bucketFor s.now }) else .next s
  | none => .next s

/-! ### Arbiter registers (R248, R251, R263) -/

/-- A write in the SCH block of the control space. -/
def State.schWrite (s : State) (who : Requester) (i off : Nat) (v : W32) (f : Arb → Arb) : Res :=
  s.access who .write false true (ctlSch + 0x40 * i + off) v fun s => .next (s.onArb i f)

/-- SCH_ARB_FREEZE: a write of SCH_ARB_CTRL. -/
def execSchArbFreeze (who : Requester) (i : SegId) (v : W32) (s : State) : Res :=
  s.schWrite who i 0 v fun a => { a with freeze := v.getLsbD 31 }

def execSchArbClassWrite (who : Requester) (i : SegId) (v : W32) (s : State) : Res :=
  s.schWrite who i 4 v fun a => { a with cls := (v &&& clsMask) ||| (a.cls &&& ~~~clsMask) }

def execSchArbLeashWrite (who : Requester) (i : SegId) (n : Fin 4) (v : W32) (s : State) : Res :=
  s.schWrite who i (8 + 4 * n) v fun a => { a with leash := tblSet 0 a.leash n v }

def execSchArbTenureWrite (who : Requester) (i : SegId) (v : W32) (s : State) : Res :=
  s.schWrite who i 0x18 v fun a => { a with tenure := v }

end Sys2Proof.Machine
end

