-- ==== Sys2Proof/Machine/Guest.lean ====
section
/-! DEFINITION. Guest tenures (R104–R106), guest commands and their path into host memory (R183, R203, R207–R209, R212, R438). -/

namespace Sys2Proof.Machine

/-! ### Tenures (R104) -/

/-- A span of words at a tenure's rate, in ticks, rounded up. -/
def Tenure.ticks (t : Tenure) (n : Nat) : Nat := ceilDiv (n * (if t.colant2 then 25 else 50)) 30

/-- GRANT: at a guest master slot's start, after a link-hold window that the region before it had no room for, whose words the tenure then lacks
(R235, log entry 135). The slot carries IDLE under a frozen arbiter or FREEZE, where the guest's mode is not the slot's rate, and in the 3 ms after
a failed negotiation (R113, R226, R230, R248). -/
def execGrant (i : SegId) (k : CalIndex) (s : State) : Res :=
  let s := s.settleWhistle i
  let x := s.seg i
  match s.slotAt i k with
  | none => .next s
  | some e =>
    let off := s.offsetNow i
    let c2 := e.rate == 1
    let late := if e.start + 72 ≤ off then (if c2 then 72 else 36) else 0
    let n := e.len - late - (if c2 then 3 else 2)
    if !x.clk || !x.started || x.retired || x.tx.isSome || x.tenure.isSome || x.region == .slot k || e.kind ≠ 4
        || decide (off < e.start) || decide (e.finish ≤ off) || s.wordsOut i || (s.windowFirst i e && s.holdRoom i) then .next s
    else if s.slotIdle i e then .next ((((s.dropRun i).onSeg i fun x => { x with region := .slot k }).signalSeg i 0).settleIdle i)
    else
      let s := ((s.releaseWires i).dropRun i).onSeg i fun x => { x with region := .slot k }
      if x.frozen || x.arb.freeze || (s.drop (i * 32 + e.drop)).state == .retired || (s.drop (i * 32 + e.drop)).negoFail.isSome then .next s
      else
        let s := (s.refreshed (i * 32 + e.drop)).sendWords i c2 (message [header opGrant e.drop (n / 65536), BitVec.ofNat 16 n] c2)
        let t : Tenure := { drop := e.drop, part := e.part, colant2 := c2, startTick := s.tick, words := n, returned := false, frozen := false,
                            wait := none }
        -- the count begins after the GRANT's last word (R104)
        .next (s.onSeg i fun x => { x with tenure := some { t with startTick := s.tick + t.ticks (e.len - late - n) } })

/-- Words of the tenure that have passed. -/
def Tenure.elapsed (t : Tenure) (tick : Nat) : Nat := (tick - t.startTick) * 30 / (if t.colant2 then 25 else 50)

/-- The guest drives: no RETURN yet, no FREEZE, the count not over. -/
def Tenure.open (t : Tenure) (tick : Nat) : Bool := !t.returned && !t.frozen && decide (tick < t.startTick + t.ticks t.words)

/-! ### The path of a command (R183, R185, R203, R422, R423) -/

/-- The guest window a command matches: ENABLED, of the slot's partition, on the segment, by its DROP field and first word. -/
def State.guestWindow (s : State) (p i drop addr : Nat) : Option (Nat × Window) :=
  (s.bridge p).windows.find? fun e =>
    let w := e.2
    w.guest && w.state == .enabled && w.seg == i && w.drop == drop && decide (w.cbase ≤ addr) && decide (addr < w.cbase + 2 ^ w.sizeLog2 / 2)

/-- One word of a guest command: whether the window holds it, its bus address, the guard entry that contains it, and whether it passes. -/
structure GuestWord where
  word : Nat
  inside : Bool
  addr : Nat
  region : Option Nat
  pass : Bool
  deriving DecidableEq, Repr

def State.guestWords (s : State) (p : Nat) (w : Window) (k : AccKind) (addr len : Nat) : List GuestWord :=
  (List.range len).map fun n =>
    let a := addr + n
    let inside := decide (a < w.cbase + 2 ^ w.sizeLog2 / 2)
    let bus := w.hostAddr a
    let d := (s.pair p).user 3 bus k
    { word := a, inside := inside, addr := bus, region := d.1, pass := inside && d.2 }

/-- Runs of consecutive words that pass, as (first, number). -/
def passRuns (l : List GuestWord) : List (Nat × Nat) :=
  ((l.filter (·.pass)).foldl (fun (acc : List (Nat × Nat)) x =>
    match acc with
    | (a, n) :: rest => if a + n = x.word then (a, n + 1) :: rest else (x.word, 1) :: (a, n) :: rest
    | [] => [(x.word, 1)]) []).reverse

/-- Bytes in ascending bus address as runs: the byte enables of one memory write (R191). -/
def byteRuns (l : List (Nat × Byte)) : List (Nat × List Byte) :=
  ((l.insertionSort fun a b => a.1 ≤ b.1).foldl (fun (acc : List (Nat × List Byte)) x =>
    match acc with
    | (a, bs) :: rest => if a + bs.length = x.1 then (a, bs ++ [x.2]) :: rest else (x.1, [x.2]) :: (a, bs) :: rest
    | [] => [(x.1, [x.2])]) []).reverse

/-- The bytes of a guest write's passing words. -/
def guestBytes (w : Window) (l : List GuestWord) (data : List W16) : List (Nat × Byte) :=
  (l.zip data).flatMap fun x =>
    let h := halfOf w.swap x.2
    if x.1.pass then [(x.1.addr, h.extractLsb' 0 8), (x.1.addr + 1, h.extractLsb' 8 8)] else []

/-- The violation a command's refused words are: captured with the first word that the guard refused, PARTIAL where the window's end or a
region's boundary splits the command (R203, R437, R440). -/
def State.guestViolation (s : State) (p : Nat) (k : AccKind) (l : List GuestWord) : State :=
  match l.find? fun x => x.inside && !x.pass with
  | some x => s.violation p (decide (1 < (l.map fun y => (y.inside, if y.inside then y.region else none)).dedup.length)) false k 3 (8 + p) x.addr
  | none => s

/-- The words of a guest read's data, from the bytes of its bus range (R186). -/
def GuestCmd.words (c : GuestCmd) (bytes : List Byte) : List W16 :=
  (List.range c.len).map fun n =>
    let o := c.addr + n - c.base
    let at_ := if c.swap = 2 then o / 2 * 4 + (2 - o % 2 * 2) - (c.addr - c.base) / 2 * 4 else 2 * n
    halfOf c.swap ((bytes.getD (at_ + 1) 0) ++ (bytes.getD at_ 0))

/-- Every run of a guest read is read; the answer waits for the last (R203, R207). -/
def State.guestReads (s : State) (p i : Nat) (w : Window) (c : GuestCmd) (runs : List (Nat × Nat)) : State :=
  match runs.getLast? with
  | none => s
  | some last =>
    let h := w.hostRange last.1 last.2
    (s.beginGuestRead p i { c with bus := h.1, busLen := h.2, early := runs.dropLast.map fun r => w.hostRange r.1 r.2 }).grantSem p

/-- A guest write has a posted entry: it is accepted and acknowledged (R105, R208); parts refused answer NAK ACCESS (R203). -/
def State.acceptGuest (s : State) (i : Nat) (t : Tenure) (c : GuestCmd) : State :=
  let p := t.part
  let s := s.onBridge p fun b =>
    { b with guestPosted := b.guestPosted ++ [{ pieces := c.pieces, seg := i, drop := c.drop, window := c.window, word := c.addr, len := c.len,
                                                unlock := if c.op = opUnlockwr then some b.semHold else none, epoch := c.epoch }] }
  if c.refused then s.nakGuest i t 0x12 else s.answerGuest i t opAck 0 []

/-- A guest write is dropped and journalled where the function may not write (R209). -/
def State.dropGuest (s : State) (i : Nat) (t : Tenure) (c : GuestCmd) : State :=
  let p := t.part
  let s := s.journal p { seq := 0, cause := BitVec.ofNat 4 causeHostDropped, nowin := false, dir := true, seg := i, drop := c.drop,
                         window := c.window, words := c.len - 1, nak := 0, addr := c.addr, time := 0 }
  let s := if c.op = opUnlockwr ∧ (s.bridge p).semOwner = .guest then (s.freeSem p).grantSem p else s
  if c.refused then s.nakGuest i t 0x12 else s.answerGuest i t opAck 0 []

/-- The Colant-to-host posted buffer has a free entry (R191). -/
def Bridge.postRoom (b : Bridge) : Bool := decide (b.guestPosted.length < 256)

/-- An UNLOCKWR's standing with the semaphore: the reason of its NAK, or none (R212). -/
def State.unlockRefusal (s : State) (p i : Nat) (t : Tenure) (drop addr : Nat) : Option Nat :=
  let b := s.bridge p
  if b.semOwner = .guest ∧ b.semSeg = i ∧ b.semDrop = t.drop then (if b.semField = drop ∧ b.semAddr = addr then none else some 0x12)
  else some 0x07

/-- A well-received command of a guest (R105, R106, R183, R207–R212, R438, R439). Of several reasons to refuse it, the segment filter and a
missing window come before the tenure, and the tenure before the guard (log entry 98). -/
def State.guestAct (s : State) (i : Nat) (t : Tenure) (op drop addr len : Nat) (data : List W16) : State :=
  let p := t.part
  let reads := op == opRd || op == opRdb || op == opLockrd
  let locked := op == opLockrd || op == opUnlockwr
  let k := if locked then AccKind.locked else if reads then .read else .write
  let f := (s.seg i).filter
  if !f.guestOk t.drop then
    let s := if f.en then s.violation p false true k 2 (8 + p) (colantAddr i t.drop addr) else s
    s.nakGuest i t 0x12
  else
    match s.guestWindow p i drop addr with
    | none => s.nakGuest i t 0x12
    | some (n, w) =>
      let h := w.hold * (if t.colant2 then 12 else 6)
      let l := (if reads then 1 + len else 1) + b2n t.colant2
      if t.words < t.elapsed s.tick + h + l + 4 then s.nakGuest i t 0x11
      else
        let ws := s.guestWords p w k addr len
        let s := s.guestViolation p k ws
        let runs := passRuns ws
        if runs.isEmpty then s.nakGuest i t 0x12
        else
          let c : GuestCmd :=
            { op := op, drop := drop, addr := addr, len := len, window := n, arrival := s.tick, hold := w.hold, swap := w.swap, base := w.cbase,
              bus := (w.hostRange addr len).1, busLen := (w.hostRange addr len).2, early := [], pieces := byteRuns (guestBytes w ws data),
              refused := ws.any fun x => !x.pass, epoch := (s.pair p).epoch }
          if op = opLockrd then
            if !(s.part p).dmaOk then s.nakGuest i t 0x12
            else
              let s := (s.holdGuest i (.semaphore c)).onBridge p fun b => { b with semWaiting := b.semWaiting ++ [.guest i] }
              s.grantSem p
          else if reads then
            if (s.part p).dmaOk then s.guestReads p i w c runs else s.nakGuest i t 0x12
          else
            match (if op = opUnlockwr then s.unlockRefusal p i t drop addr else none) with
            | some reason => s.nakGuest i t reason
            | none =>
              if !(s.part p).dmaOk then s.dropGuest i t c
              else if (s.bridge p).postRoom then s.acceptGuest i t c
              else s.holdGuest i (.posted c)

/-! ### Guest commands as received (R76, R81, R86, R87) -/

/-- Words after the header that a guest's opcode implies, without CRC; none for an opcode a guest does not send. -/
def guestLen (op param : Nat) : Option Nat :=
  if op = opRd ∨ op = opLockrd ∨ op = opRdb then some 2
  else if op = opWr ∨ op = opUnlockwr then some 3
  else if op = opWrb then some (2 + param + 1)
  else none

/-- The guest ends its use of the tenure. -/
def State.returnTenure (s : State) (i : Nat) : State := s.onSeg i fun x => { x with tenure := x.tenure.map fun t => { t with returned := true } }

/-- GUEST_COMMAND: the words of one command. Parity is judged first, then the length, then the CRC, as at a drop; a parity failure counts in the
segment's window (R452). A good RETURN header ends the guest's use whatever follows it (log entry 97). -/
def execGuestCommand (i : SegId) (words : List ColWord) (s : State) : Res :=
  match (s.seg i).tenure, words with
  | some t, h :: rest =>
    if !t.open s.tick || t.wait.isSome || !goodWord h || !h.c then .next s
    else
      let op := headOp h.data
      let param := headParam h.data
      if op = opReturn then .next (s.returnTenure i)
      else
        match guestLen op param with
        | none => .next s
        | some n =>
          let data := rest.map (·.data)
          let all := words.map (·.data)
          let fOk := words.zipIdx.all fun x => x.1.f == (x.2 + 1 == words.length)
          if !rest.all goodWord then .next ((s.nakGuest i t 0x01).countError 3 i)
          else if !fOk || rest.length ≠ n + b2n t.colant2 then .next (s.nakGuest i t 0x05)
          else if t.colant2 && (all.getLast?.getD 0) != crc16 all.dropLast then .next (s.nakGuest i t 0x02)
          else
            let addr := (data.getD 0 0).toNat % 256 * 65536 + (data.getD 1 0).toNat
            let len := if op = opRdb ∨ op = opWrb then param + 1 else 1
            .next (s.guestAct i t op (headDrop h.data) addr len ((data.drop 2).take len))
  | _, _ => .next s

/-- The oldest outstanding read request for segment i's guests. -/
def State.guestRead (s : State) (i : Nat) : Option (Nat × DmaRead) :=
  s.dma.findSome? fun d =>
    match d.purpose with
    | .guest p seg => if seg = i && d.open then some (p, d) else none
    | _ => none

/-- The lowest segment whose guest waits for a non-posted entry of partition p starts its read (R208). -/
def State.resumeRoom (s : State) (p : Nat) : State :=
  let waiting := (List.range 64).findSome? fun i =>
    match (s.seg i).tenure with
    | some t => match t.wait with
      | some (.room c) => if t.part = p then some (i, t, c) else none
      | _ => none
    | none => none
  match waiting with
  | some (i, t, c) => if (s.part p).dmaOk then s.beginGuestRead p i c else s.nakGuest i t 0x12
  | none => s

/-- The tenure and command that wait for a read. -/
def State.guestWaits (s : State) (i : Nat) (read : Nat) : Option (Tenure × GuestCmd) :=
  (s.seg i).tenure.bind fun t => match t.wait with
    | some (.read c id) => if id = read then some (t, c) else none
    | _ => none

/-- The answer to a guest whose read has ended (R203, R207, R209). -/
def State.answerRead (s : State) (i : Nat) (t : Tenure) (c : GuestCmd) : ReadResult → State
  | .data bytes => if c.refused then s.nakGuest i t 0x12 else s.answerGuest i t opRdata 0 (c.words bytes)
  | .unsupported | .abort => s.nakGuest i t 0x12
  | .poisoned | .timeout => s.nakGuest i t 0x10

/-- GUEST_READ_COMPLETION: with the last request of the awaited read the guest is answered; a late completion is discarded and counted. What waits
for the entry or the semaphore that this frees takes it (R207, R209, R210, R220). -/
def execGuestReadCompletion (i : SegId) (result : ReadResult) (s : State) : Res :=
  match s.guestRead i with
  | none => .next s
  | some (p, d) =>
    if !s.endsWith d result then .next s
    else
      let e := s.endRequest d result
      let done := e.1.readFailed p result
      let freed := fun (s : State) => if e.2.isSome then (s.resumeRoom p).grantSem p else s
      match s.guestWaits i d.read with
      | none => .next (freed (if result = .timeout then done else done.onBridge p fun b => { b with lateCpl := satInc b.lateCpl }))
      | some (t, c) => .next (freed ((e.2.map (done.answerRead i t c)).getD done))

/-- The lowest segment whose guest waits for a posted entry of partition p. -/
def State.waitingPost (s : State) (p : Nat) : Option (Nat × Tenure × GuestCmd) :=
  (List.range 64).findSome? fun i =>
    match (s.seg i).tenure with
    | some t => match t.wait with
      | some (.posted c) => if t.part = p then some (i, t, c) else none
      | _ => none
    | none => none

/-- The partition whose oldest posted entry segment i's guest sent, or waits for. -/
def State.postOwner (s : State) (i : Nat) : Option Nat :=
  match (s.seg i).tenure.bind (·.wait), (s.seg i).tenure with
  | some (.posted _), some t => some t.part
  | _, _ => (List.range 8).find? fun p => (((s.bridge p).guestPosted.head?).map fun g => g.seg == i).getD false

/-- GUEST_POSTED_ENTRY: the oldest entry leaves for host memory and its entry frees; a waiting guest write is accepted (R208, R210). -/
def execGuestPostedEntry (i : SegId) (s : State) : Res :=
  match s.postOwner i with
  | none => .next s
  | some p =>
    let s : State := match (s.bridge p).guestPosted with
      | g :: rest => ((s.onBridge p fun b => { b with guestPosted := rest }).sendPost p g).grantSem p
      | [] => s
    match s.waitingPost p with
    | some (k, t, c) => if (s.bridge p).postRoom then .next (s.acceptGuest k t c) else .next s
    | none => .next s

/-- HOLD_CEILING: HOLD × 100 ns have passed since the command (R207, R208, R212). -/
def execHoldCeiling (i : SegId) (s : State) : Res :=
  match (s.seg i).tenure with
  | none => .next s
  | some t =>
    let passed := fun (c : GuestCmd) => s.past c.arrival (c.hold * 10)
    match t.wait with
    | some (.read c _) => if passed c then .next (s.nakGuest i t 0x10) else .next s
    | some (.posted c) => if passed c then .next (s.nakGuest i t 0x10) else .next s
    | some (.room c) => if passed c then .next (s.nakGuest i t 0x10) else .next s
    | some (.semaphore c) =>
      if passed c then
        .next ((s.onBridge t.part fun b => { b with semWaiting := b.semWaiting.filter (· != .guest i) }).nakGuest i t 0x04)
      else .next s
    | none => .next s

/-- RETURN: the guest is done; the unit sends IDLE until the count ends. -/
def execGuestReturn (i : SegId) (s : State) : Res :=
  match (s.seg i).tenure with
  | some t => if t.open s.tick && t.wait.isNone then .next (s.returnTenure i) else .next s
  | none => .next s

/-- TENURE_END: the count is over. -/
def execTenureEnd (i : SegId) (s : State) : Res :=
  match (s.seg i).tenure with
  | none => .next s
  | some t =>
    if s.tick < t.startTick + t.ticks t.words then .next s else .next (s.closeTenure i)

end Sys2Proof.Machine
end

