-- ==== Sys2Proof/Machine/Pixels.lean ====
section
/-! DEFINITION. What a compose pass computes: layers of video, images and solid colours through stages 1 to 5 (R306–R314), blending (R315)
and stages 7 to 10 for a drop (R316–R322), with the saturations they count (R324). -/

namespace Sys2Proof.Machine

/-- What one layer gives at one pixel: working linear light, effective alpha, and the saturations of SCALE, INMAT and GAMUT. -/
structure LayerPix where
  rgb : List Nat
  a : Nat
  scale : Nat
  inmat : Nat
  gamut : Nat
  deriving DecidableEq, Repr

/-- What a page needs at every pixel: source rectangle, EOTF table, gamut matrix and scaler taps. -/
structure PageCtx where
  page : Page
  x : Nat
  y : Nat
  w : Nat
  h : Nat
  eotf : Array Nat
  gamut : List (List Int)
  taps : Array (List Int)
  deriving DecidableEq, Repr

/-- The source rectangle of a page over a source of w × h: with FIT 1 the whole of it (R293). -/
def Page.rect (x : Page) (w h : Nat) : Nat × Nat × Nat × Nat :=
  if x.fit then (0, 0, w, h) else (x.srcX, x.srcY, x.srcW, x.srcH)

def Page.ctx (x : Page) (w h : Nat) (c : ColourDesc) : PageCtx :=
  let r := x.rect w h
  { page := x, x := r.1, y := r.2.1, w := r.2.2.1, h := r.2.2.2, eotf := (eotfTable c.trans).toArray, gamut := gamutMatrix c.prim,
    taps := tapTable x.filter }

/-- With FIT 1, the frame's ratio breaks the limits of R294: the page is drawn as empty. -/
def Page.fitBad (x : Page) (w h : Nat) : Bool := x.fit && (ratioBad w x.dstW || ratioBad h x.dstH)

/-- The page covers surface or canvas pixel (px, py). -/
def Page.covers (x : Page) (px py : Int) : Bool :=
  decide (x.dstX ≤ px) && decide (px < x.dstX + x.dstW) && decide (x.dstY ≤ py) && decide (py < x.dstY + x.dstH)

/-- Stages 4 and 5 on a triple of codes (R313, R314). -/
def PageCtx.linear (c : PageCtx) (v : List Nat) (a scale inmat : Nat) : LayerPix :=
  let g := stage5 c.gamut (v.map (stage4 c.eotf))
  { rgb := g.1, a := a, scale := scale, inmat := inmat, gamut := g.2 }

/-- Luma positions of destination pixel (px, py) (R306). -/
def PageCtx.pos (c : PageCtx) (px py : Int) : Int × Int :=
  (scalePos c.x c.w c.page.dstW (px - c.page.dstX), scalePos c.y c.h c.page.dstH (py - c.page.dstY))

/-- One plane at full resolution, read inside a picture of vw × vh (R293, R306). -/
def PageCtx.plane (c : PageCtx) (read : Nat → Nat → Nat) (vw vh : Nat) (px py : Int) : Nat × Bool :=
  let p := c.pos px py
  scaleAt c.taps (fun x y => read (min x (vw - 1)) (min y (vh - 1))) c.x (c.x + c.w - 1) c.y (c.y + c.h - 1) p.1 p.2

/-- One chroma plane of a 4:2:0 picture (R308). -/
def PageCtx.chroma (c : PageCtx) (read : Nat → Nat → Nat) (vw vh : Nat) (topLeft : Bool) (px py : Int) : Nat × Bool :=
  let p := c.pos px py
  let cy := if topLeft then p.2.fdiv 2 else (p.2 - 32768).fdiv 2
  scaleAt c.taps (fun x y => read (min x ((vw + 1) / 2 - 1)) (min y ((vh + 1) / 2 - 1)))
    (c.x / 2) ((c.x + c.w - 1) / 2) (c.y / 2) ((c.y + c.h - 1) / 2) (p.1.fdiv 2) cy

/-- A sample lies in a damaged 16 × 16 luma block of its frame, or of its field. -/
def CodedPicture.lost (p : CodedPicture) (plane x y : Nat) : Bool :=
  let b := if plane = 0 then 16 else 8
  let block := fun (y : Nat) => y / b * ceilDiv p.width 16 + x / b
  match p.bottom with
  | none => p.damaged.contains (block y)
  | some l => (if y % 2 = 0 then p.damaged else l).contains (block (y / 2))

/-- The picture has a sample at a position of a plane. -/
def CodedPicture.has (p : CodedPicture) (plane x y : Nat) : Bool :=
  if plane = 0 then decide (x < p.width) && decide (y < p.height) else decide (x < (p.width + 1) / 2) && decide (y < (p.height + 1) / 2)

/-- A sample of a frame: of its own picture, or in a damaged block of the concealment source, or the mid value where none is held; a missing reference
is the concealment source (R266, R285, R286). -/
def Frame.rawOf (f : Frame) : List CodedPicture → Nat → Nat → Nat → Nat
  | [] => fun _ _ _ => 0
  | p :: rest => fun plane x y =>
    let held := f.rawOf rest
    let source := fun (plane x y : Nat) => match rest with
      | [] => 2 ^ (p.depth - 1)
      | q :: _ => if q.depth = p.depth && q.has plane x y then held plane x y else Config.unlikeSource held p.depth plane x y % 2 ^ p.depth
    if p.lost plane x y then source plane x y
    else Config.decodedSample f.codec f.op f.grain p.coded p.frame source plane x y % 2 ^ p.depth

def Frame.raw (f : Frame) (plane x y : Nat) : Nat := f.rawOf f.pictures plane x y

/-- Bytes of a stored sample (R282). -/
def Frame.sampleBytes (f : Frame) : Nat := if f.depth = 10 then 2 else 1

/-- Byte k of row y of a stored plane: 0 luma, 1 the interleaved Cb and Cr of half resolution, which a monochrome frame does not have; a 10-bit
sample takes two bytes, little-endian (R282). -/
def Frame.planeByte (f : Frame) (plane y k : Nat) : Byte :=
  let i := k / f.sampleBytes
  let v := if plane = 0 then f.raw 0 i y else if f.mono then 0 else f.raw (1 + i % 2) (i / 2) y
  BitVec.ofNat 8 (v / 256 ^ (k % f.sampleBytes))

/-- The sample of component c (0 luma, 1 Cb, 2 Cr) that its plane holds at a position (R282). -/
def Frame.stored (f : Frame) (c x y : Nat) : Nat :=
  let i := if c = 0 then x else 2 * x + (c - 1)
  ofLe ((List.range f.sampleBytes).map fun b => f.planeByte (min c 1) y (i * f.sampleBytes + b))

/-- A stored sample of a frame after stage 1 (R282, R311). -/
def Frame.sample (f : Frame) (c x y : Nat) : Nat := f.stored c x y * 2 ^ (12 - f.depth)

/-- A stream page at a pixel. -/
def Frame.layer (f : Frame) (x : Page) : Int → Int → LayerPix :=
  let c := x.ctx f.width f.height f.colour
  let m := videoMatrix f.colour f.depth
  let a := effAlpha 4095 x.opacity
  fun px py =>
    let ys := c.plane (f.sample 0) f.width f.height px py
    let ch := fun k => if f.mono then (2048, false) else c.chroma (f.sample k) f.width f.height f.colour.topLeft px py
    let cb := ch 1
    let cr := ch 2
    let r := stage3 m [ys.1, cb.1, cr.1]
    c.linear r.1 a (b2n ys.2 + b2n cb.2 + b2n cr.2) r.2

/-- Channel k of an image pixel after stage 1: R, G, B, alpha (R300, R311). -/
def imageChan (format : Nat) (v : W32) (k : Nat) : Nat :=
  let v := v.toNat
  if format = 2 then
    if k = 3 then field v 31 30 * 0x555
    else
      let z := field v (29 - 10 * k) (20 - 10 * k)
      z * 4 + z / 256
  else
    let z := if k = 3 then field v 31 24 else field v (23 - 8 * k) (16 - 8 * k)
    z * 16 + z / 16

/-- An image page at a pixel: four planes (R308). -/
def imageLayer (i : Image) (x : Page) : Int → Int → LayerPix :=
  let c := x.ctx i.width i.height (colourOf i.colour)
  let pix := i.pixels.toArray
  let read := fun k px py => imageChan i.format (pix.getD (py * i.width + px) 0) k
  fun px py =>
    let v := (List.range 4).map fun k => c.plane (read k) i.width i.height px py
    let r := stage3 imageMatrix ((v.take 3).map (·.1))
    c.linear r.1 (effAlpha (v.getD 3 (0, false)).1 x.opacity) (v.filter (·.2)).length r.2

/-- A solid page: its codes enter at stage 4 (R312). -/
def Page.solidLayer (x : Page) : Int → Int → LayerPix :=
  let c := x.ctx 1 1 (colourOf x.solidColour)
  let l := c.linear x.solid (effAlpha 4095 x.opacity) 0 0
  fun _ _ => l

/-- A layer ready to be drawn: where it covers, and what it gives there. -/
abbrev LayerFn := Int → Int → Option LayerPix

def Page.drawn (x : Page) (f : Int → Int → LayerPix) : LayerFn := fun px py => if x.covers px py then some (f px py) else none

/-- Saturations of a pass, in the order SCALE, INMAT, GAMUT, CAL, UNIF, OETF, DITHER. -/
structure Sats where
  scale : Nat := 0
  inmat : Nat := 0
  gamut : Nat := 0
  cal : Nat := 0
  unif : Nat := 0
  oetf : Nat := 0
  dither : Nat := 0
  deriving DecidableEq, Repr

/-- A saturation counts once for each pixel channel; the counters hold at all ones (R324). -/
def SatCounters.add (c : SatCounters) (x : Sats) : SatCounters :=
  { scale := satAdd c.scale x.scale, inmat := satAdd c.inmat x.inmat, gamut := satAdd c.gamut x.gamut, cal := satAdd c.cal x.cal,
    unif := satAdd c.unif x.unif, oetf := satAdd c.oetf x.oetf, dither := satAdd c.dither x.dither }

/-- Stage 6 at one pixel: from the background, each layer in order (R315). -/
def blendAt (bg : List Nat) (layers : List LayerFn) (px py : Int) (s : Sats) : List Nat × Sats :=
  layers.foldl (fun a l =>
    match l px py with
    | none => a
    | some v =>
      ((a.1.zip v.rgb).map (fun x => stage6 x.2 x.1 v.a),
       { a.2 with scale := a.2.scale + v.scale, inmat := a.2.inmat + v.inmat, gamut := a.2.gamut + v.gamut })) (bg, s)

/-- What stages 7 to 9 need for a drop. -/
structure DropCtx where
  ch : Nat
  rows : List (List Int)
  bright : Nat
  gains : Array Nat
  cols : Nat
  tables : List (Array Nat)
  deriving DecidableEq, Repr

def calCtx (c : CalSet) (w ch bright : Nat) : DropCtx :=
  { ch := ch, rows := (List.range ch).map fun k => (c.matrix.drop (3 * k)).take 3, bright := bright, gains := c.gains.toArray,
    cols := gridCols w, tables := c.oetf.map (·.toArray) }

/-- Stages 7 to 9 at pixel (x, y): the drive of each channel (R317–R319, R322). -/
def DropCtx.drive (c : DropCtx) (v : List Nat) (x y : Nat) (s : Sats) : List Nat × Sats :=
  c.rows.zipIdx.foldl (fun a r =>
    let t7 := stage7 r.1 c.bright v
    let t8 := stage8 c.gains c.cols c.ch r.2 x y t7.1
    let t9 := stage9 (c.tables.getD r.2 #[]) t8.1
    (a.1 ++ [t9.1], { a.2 with cal := a.2.cal + b2n t7.2, unif := a.2.unif + b2n t8.2, oetf := a.2.oetf + b2n t9.2 })) ([], s)

/-- A whole picture of w × h: its codes in raster order, channels of a pixel together, and what saturated (R310, R320). -/
def composePicture (bg : List Nat) (layers : List LayerFn) (c : DropCtx) (w h depth : Nat) (origin : Int × Int) (s : Sats) : List Nat × Sats :=
  let r := (List.range h).foldl (fun (a : List (List (List Nat)) × Sats) (y : Nat) =>
    let line := (List.range w).foldl (fun (b : List (List Nat) × Sats) (x : Nat) =>
      let v := blendAt bg layers (origin.1 + x) (origin.2 + y) b.2
      let d := c.drive v.1 x y v.2
      (d.1 :: b.1, d.2)) ([], a.2)
    (line.1.reverse :: a.1, line.2)) ([], s)
  let lines := r.1.reverse
  let planes := (List.range c.ch).map fun k => ditherPlane (2 ^ depth - 1) w (lines.map fun l => l.map fun p => p.getD k 0)
  let flat := planes.map fun p => p.1.flatten.toArray
  ((List.range (w * h)).flatMap fun i => flat.map fun p => p.getD i 0,
   { r.2 with dither := sumNat (planes.map (·.2)) + r.2.dither })

end Sys2Proof.Machine
end

