-- ==== Sys2Proof/Machine/Compose.lean ====
section
/-! DEFINITION. Gate lists at work (R174, R239, R262), compose passes (R296–R299, R304, R316) and Wafer encoding jobs (R332, R334, R353, R354,
R358). -/

namespace Sys2Proof.Machine

/-! ### Gate lists (R174, R239, R262) -/

/-- The next entry due, of a list that is ARMED or RUNNING. -/
def GateList.nextDue (g : GateList) : Option Nat :=
  if g.state = .idle then none else (tblFind g.entries g.next).map (g.at_ g.rep)

/-- GATE_BASE_REACHED. -/
def execGateBaseReached (i : GateId) (s : State) : Res :=
  .next (s.onGate i (·.reached s.now))

/-- GATE_ENTRY_DUE: the list's next entry has been reached, and the one after it is next. Passes take the entries (R239). -/
def execGateEntryDue (i : GateId) (s : State) : Res :=
  .next (s.onGate i fun g =>
    if g.state = .running ∧ (g.nextDue.map fun t => decide (t ≤ s.now)).getD false then
      (if g.next + 1 < g.count then { g with next := g.next + 1 } else { g with next := 0, rep := g.rep + 1 })
    else g)

/-- The list GATE_SEL selects, where the partition holds it. -/
def State.shownGate (s : State) (p : Nat) : Option GateList := s.gateOf p (s.part p).gateSel.toNat

/-- The upper half of a GATE time is latched for requester l (R56, R262, R509). -/
def State.latchGate (s : State) (p l : Nat) (next : Bool) (v : Nat) : State :=
  let h := BitVec.ofNat 32 (v / 2 ^ 32)
  s.onPart p fun x =>
    if next then { x with gateNextHi := tblSet 0 x.gateNextHi l h } else { x with gateBaseHi := tblSet 0 x.gateBaseHi l h }

/-- GATE_BASE_LO_READ. -/
def execGateBaseLoRead (p : PartId) (s : State) : Res :=
  s.barRead p fun s =>
    let v := ((s.shownGate p).map (·.base)).getD 0
    .next ((s.latchGate p p false v).emit (.regData (.host p) (BitVec.ofNat 32 v)))

/-- GATE_NEXT_LO_READ. -/
def execGateNextLoRead (p : PartId) (s : State) : Res :=
  s.barRead p fun s =>
    let v := ((s.shownGate p).bind (·.nextDue)).getD 0
    .next ((s.latchGate p p true v).emit (.regData (.host p) (BitVec.ofNat 32 v)))

/-! ### Compose instants and the end of a pass (R296–R299) -/

/-- The cycle that starts at this instant carries fallback content: the drop is in FALLBACK since at least 1 ms before, and is not handed
back by then (R161, R163, R299). -/
def Drop.showsFallback (d : Drop) (cycleStart : Nat) : Bool :=
  d.state == .fallback && (d.fallbackFrom.map fun t => decide (t ≤ cycleStart)).getD true
    && !(d.activeAt.map fun t => decide (t ≤ cycleStart)).getD false

/-- COMPOSE_INSTANT: K of the drop's segment. -/
def execComposeInstant (g : DropId) (s : State) : Res :=
  .next (if s.instantDue g then s.latchInstant g else s)

/-- The layers of a pass, in order, and the pages drawn as empty for their ratio, which count in INMAT (R294). -/
def Pass.layers (x : Pass) : List LayerFn × Nat :=
  (List.range 4).foldl (fun (a : List LayerFn × Nat) l =>
    if !x.surface.layerEn.getLsbD l then a
    else
      match x.surface.page l with
      | none => a
      | some pg =>
        match pg.source with
        | .solid => (a.1 ++ [pg.drawn pg.solidLayer], a.2)
        | .stream =>
          match x.frames.find? fun f => f.1 == l with
          | some f => if pg.fitBad f.2.width f.2.height then (a.1, a.2 + 1) else (a.1 ++ [pg.drawn (f.2.layer pg)], a.2)
          | none => a
        | .image =>
          match x.images.find? fun f => f.1 == l with
          | some f => if pg.fitBad f.2.width f.2.height then (a.1, a.2 + 1) else (a.1 ++ [pg.drawn (imageLayer f.2 pg)], a.2)
          | none => a) ([], 0)

/-- The page that fallback content is composed as: the whole image onto the whole surface (R476, R478). -/
def fallbackPage (w h : Nat) : Page :=
  { source := .image, fit := true, filter := 0, srcIndex := 0, opacity := 4096, srcX := 0, srcY := 0, srcW := 0, srcH := 0, dstX := 0, dstY := 0,
    dstW := w, dstH := h, solid := [], solidColour := 0, gone := false }

/-- The codes of the partition's own layers. -/
def Pass.ownCodes (x : Pass) (p : Panel) : List Nat × Sats :=
  let l := x.layers
  composePicture x.surface.background l.1 (calCtx x.cal p.w p.ch x.surface.bright.toNat) p.w p.h p.d x.origin { inmat := l.2 }

/-- The codes of the fallback content, over black (R476). -/
def Pass.fallbackCodes (x : Pass) (p : Panel) : List Nat × Sats :=
  let pg := fallbackPage p.w p.h
  let l : List LayerFn × Nat := match x.fbImage with
    | none => ([], 0)
    | some i => if pg.fitBad i.width i.height then ([], 1) else ([pg.drawn (imageLayer i pg)], 0)
  composePicture [0, 0, 0] l.1 (calCtx x.cal p.w p.ch x.surface.bright.toNat) p.w p.h p.d (0, 0) { inmat := l.2 }

/-- Tile classes, and release of the cycle's Wafer jobs (R332, R353). -/
def State.releaseJobs (s : State) (g t : Nat) : State :=
  let d := s.drop g
  if d.wafer = 0 then s
  else
    let p := s.panel g
    let c := p.classify d.back.toArray d.waf.prevCodes.toArray (d.waf.refCodes p) d.waf.unknown
    let s := s.onWaf g fun w => { w with changed := c.1, unsettled := c.2, prevCodes := d.back, beforeCodes := w.prevCodes }
    let slots := slotsFor (slotsOf ((s.seg (g / 32)).calendarAt (t - s.cycleNs (g / 32))).1) (g % 32) 2
    { s with waf := { s.waf with released := (s.waf.released.filter fun j => j.1 != g) ++ slots.map fun e => (g, e.idx) } }

/-- The end instant of a drop's pass for T, in 1/12 ns after T − c (R297, R366). -/
def State.passEnd (s : State) (g t : Nat) : Option Int :=
  (s.slotLoad (s.panel g) g (slotsOf ((s.seg (g / 32)).calendarAt (t - s.cycleNs (g / 32))).1)).map (·.d)

/-- When a pass's pixel work begins (R297). -/
def State.passStart (s : State) (g : Nat) (x : Pass) : Nat := max x.kNs (x.tNs - s.cycleNs (g / 32))

/-- The end instant of a pass in 1/12 ns of unit time; the end of its cycle where no slot carries it. -/
def State.passDeadline (s : State) (g : Nat) (x : Pass) : Int :=
  match s.passEnd g x.tNs with
  | some d => ((x.tNs - s.cycleNs (g / 32) : Nat) : Int) * 12 + d
  | none => (x.tNs : Int) * 12

/-- No pass that began no later is served before pass x of drop g: an earlier end instant, of equal ones a lower index (R297, log entry 110). -/
def State.passServed (s : State) (g : Nat) (x : Pass) : Bool :=
  s.drops.all fun e => e.1 == g || e.2.passes.all fun y =>
    decide (s.passStart g x < s.passStart e.1 y) || decide (s.passDeadline g x < s.passDeadline e.1 y)
      || (decide (s.passDeadline g x = s.passDeadline e.1 y) && decide (g < e.1))

/-- The pass has not ended by its end instant (R298). -/
def State.passLate (s : State) (g : Nat) (x : Pass) : Bool := decide (s.passDeadline g x ≤ (s.now : Int) * 12)

/-- A late pass is discarded: it counts and raises the compositor fault where a picture slot was to carry it (R298). -/
def State.latePass (s : State) (g : Nat) (x : Pass) (rest : List Pass) : State :=
  let p := (s.owner g).getD 8
  if (s.passEnd g x.tNs).isNone then (s.onDrop g fun d => { d with passes := rest }).releaseAll p
  else
    let s := s.onDrop g fun d => { d with passes := rest, lateFor := some x.tNs, composeLate := satInc d.composeLate }
    let s : State := { s with cmp := { s.cmp with late := satInc s.cmp.late } }
    (s.raise 0x008 (BitVec.ofNat 32 g)).releaseAll p

/-- The back buffer is free for the pass: the swap at T − c has taken place (R297). -/
def State.backFree (s : State) (g : Nat) (x : Pass) : Bool :=
  decide (x.tNs - s.cycleNs (g / 32) ≤ s.now) && !((s.seg (g / 32)).started && decide ((s.seg (g / 32)).endNs < x.tNs))

/-- COMPOSE_PASS_END: the oldest pass, whose back buffer the swap at T − c has freed and which is served next; it carries fallback content if
the cycle from T − c does. One that ends past its end instant is late. -/
def execComposePassEnd (g : DropId) (s : State) : Res :=
  let d := s.drop g
  let i := g.val / 32
  match d.passes with
  | [] => .next s
  | x :: rest =>
    if s.passLate g x then .next (s.latePass g x rest)
    else if !s.backFree g x || !s.passServed g x then .next s
    else
      let p := s.panel g
      let k := s.draw
      let s : State := { k.2 with cmp := { k.2.cmp with busy := k.2.cmp.busy + BitVec.ofNat 32 (Config.busyClocks k.1) } }
      let own := x.ownCodes p
      let fb : Option (List Nat × Sats) := if d.showsFallback (x.tNs - s.cycleNs i) then some (x.fallbackCodes p) else none
      let sats := (d.sat.add own.2)
      let s := s.onDrop g fun d =>
        { d with passes := rest, sat := (fb.map fun f => sats.add f.2).getD sats, back := (fb.map (·.1)).getD own.1, backFor := some x.tNs,
                 third := if fb.isSome then own.1 else [] }
      let s := s.onDrop g (·.takeThird)
      .next ((s.releaseJobs g x.tNs).releaseAll ((s.owner g).getD 8))

/-- COMPOSE_LATE: a pass has not ended by its end instant; it is discarded (R298). -/
def execComposeLate (g : DropId) (s : State) : Res :=
  match (s.drop g).passes with
  | [] => .next s
  | x :: rest => .next (if s.passLate g x then s.latePass g x rest else s)

/-! ### Wafer jobs (R353, R354) -/

/-- START of a job's slot in the cycle that the drop's segment is in, in 1/12 ns of unit time. -/
def State.jobDeadline (s : State) (g idx : Nat) : Option Nat :=
  (s.slotAt (g / 32) idx).map fun e => (s.seg (g / 32)).cycleStartNs * 12 + e.start * 100

/-- The lowest-numbered free lane. -/
def State.freeLane (s : State) : Option Nat := (List.range 32).find? fun n => (tblFind s.waf.running n).isNone

/-- The bands and the budget of a Wafer slot (R345). -/
def State.jobBands (s : State) (g : Nat) (e : Slot) : Nat × Nat :=
  let pl := s.slotPlace (g / 32) e
  (s.panel g).bands pl.1 pl.2

/-- In-panel pixels of a Wafer slot's bands (R367). -/
def State.jobPixels (s : State) (g : Nat) (e : Slot) : Nat := (s.panel g).pixels (s.jobBands g e).1 (s.jobBands g e).2

/-- A job's window is open from START − E_job on (R367). -/
def State.jobOpen (s : State) (g idx : Nat) : Bool :=
  match s.slotAt (g / 32) idx, s.jobDeadline g idx with
  | some e, some t => decide (t ≤ s.now * 12 + 240000 + 32 * s.jobPixels g e)
  | _, _ => false

/-- No released job whose window is open has an earlier deadline; ties go in ascending drop index (R353, R367). -/
def State.jobFirst (s : State) (g idx : Nat) : Bool :=
  match s.jobDeadline g idx with
  | none => false
  | some t => s.waf.released.all fun j => !s.jobOpen j.1 j.2 ||
      match s.jobDeadline j.1 j.2 with
      | none => true
      | some u => decide (t < u) || (t == u && decide (g ≤ j.1))

/-- What a job makes of its slot: the frames, and what they leave in the reference copy. Tiles marked UNKNOWN by now are CHANGED (R332, R357). -/
def State.encodeJob (s : State) (g : Nat) (e : Slot) : SlotCode :=
  let d := s.drop g
  let p := s.panel g
  let b := s.jobBands g e
  let changed := d.waf.unknown.foldl insertAsc d.waf.changed
  p.encodeSlot d.back.toArray (d.waf.refCodes p) d.waf.unknown changed (d.waf.unsettled.filter fun t => !d.waf.unknown.contains t) d.waf.lastShift
    (tblGet 0 d.waf.pointer (s.slotPlace (g / 32) e).1) b.1 b.2 e.budget

def SlotCode.toOut (c : SlotCode) (idx ver budget : Nat) : WafOut := { index := idx, ver := ver, slices := c.slices, budget := budget, sent := false }

/-- WAFER_JOB_START: the first of the released jobs, on the lowest free lane; a forced refresh is acted on (R334). -/
def execWaferJobStart (g : DropId) (i : CalIndex) (s : State) : Res :=
  match s.freeLane, s.slotAt (g.val / 32) i with
  | some lane, some e =>
    if !s.waf.released.contains (g.val, i.val) || !s.jobOpen g i || !s.jobFirst g i then .next s
    else
      let s := s.takeThird g
      let s := if (s.drop g).waf.force then (s.markUnknown g).onWaf g fun w => { w with force := false } else s
      let c := s.encodeJob g e
      let s := s.onWaf g fun w => { w with pointer := tblPut w.pointer (s.slotPlace (g.val / 32) e).1 c.pointer }
      .next { s with waf := { s.waf with
        released := s.waf.released.filter (· != (g.val, i.val)),
        running := tblPut s.waf.running lane { drop := g, index := i, out := some (c.toOut i (s.drop g).wafer e.budget) } } }
  | _, _ => .next s

/-- WAFER_JOB_END: the lane is free; the slot's frames are ready unless the job was late. -/
def execWaferJobEnd (lane : LaneId) (s : State) : Res :=
  match tblFind s.waf.running lane with
  | none => .next s
  | some j =>
    let clocks := ((s.slotAt (j.drop / 32) j.index).map fun e => 32 * s.jobPixels j.drop e).getD 0   -- 375 Mpixel/s, in 15ths of a clock
    let s : State := { s with waf := { s.waf with
      running := tblErase s.waf.running lane,
      busy := tblSet 0 s.waf.busy lane (tblGet 0 s.waf.busy lane + clocks) } }
    match j.out with
    | none => .next s
    | some o => .next (s.onWaf j.drop fun w => { w with outs := (w.outs.filter fun x => x.index != o.index) ++ [o] })

/-- The tiles of a slot's bands. -/
def State.slotTiles (s : State) (g : Nat) (e : Slot) : List Nat :=
  let b := s.jobBands g e
  (List.range ((b.2 - b.1) * (s.panel g).tw)).map (· + b.1 * (s.panel g).tw)

/-- WAFER_LATE: a job has not completed by its slot's START (R354). -/
def execWaferLate (g : DropId) (i : CalIndex) (s : State) : Res :=
  let here := s.waf.released.contains (g.val, i.val) || s.waf.running.any fun j => j.2.drop == g.val && j.2.index == i.val && j.2.out.isSome
  match s.slotAt (g.val / 32) i with
  | none => .next s
  | some e =>
    if !here || !(s.seg (g.val / 32)).started || decide (s.offsetNow (g.val / 32) < e.start) then .next s
    else
      let s : State := { s with waf := { s.waf with
        late := satInc s.waf.late,
        released := s.waf.released.filter (· != (g.val, i.val)),
        running := tblMap (fun _ j => if j.drop = g.val ∧ j.index = i.val then { j with out := none } else j) s.waf.running } }
      .next ((s.onWaf g fun w => { w with unknown := (s.slotTiles g e).foldl insertAsc w.unknown }).raise 0x009 (BitVec.ofNat 32 g))

/-- WAF_DROP_REFRESH: FORCE of the selected drop (R334, R358). -/
def execWafDropRefresh (who : Requester) (v : W32) (s : State) : Res :=
  s.access who .write false true (ctlWaf + 0x11C) v fun s =>
    .next (if v.getLsbD 31 then s.onWaf s.waf.sel.toNat fun w => { w with force := true } else s)

end Sys2Proof.Machine
end

