-- ==== Sys2Proof/Machine/FaultCmd.lean ====
section
/-! DEFINITION. The fault collector's registers and timers (R446, R451, R457, R460, R461, R465, R466). -/

namespace Sys2Proof.Machine

/-! ### Sticky bits (R446, R465, R466) -/

/-- Clear the faults of a 32-bit map whose bits are written 1, from fault index first, where ok holds. -/
def State.clearMap (s : State) (first : Nat) (v : W32) (ok : Nat → Bool) : State :=
  ((List.range 32).filter fun b => v.getLsbD b && ok (first + b)).foldl (fun s b => s.clearFault (first + b)) s

/-- A W1C write in the partition's fault view: its own HEARTBEAT and GUARD, and the DROP faults of its drops. -/
def State.clearView (s : State) (p addr : Nat) (v : W32) : State :=
  if addr = 0x6000 then
    let s := if v.getLsbD 0 then s.clearFault (0x010 + 2 * p) else s
    if v.getLsbD 1 then s.clearFault (0x011 + 2 * p) else s
  else if within addr 0x6100 0x100 && addr % 4 == 0 then
    s.clearMap (0x080 + 8 * (addr - 0x6100)) v fun i => s.owns p (i - 0x080)
  else s

/-- A W1C write in the vendor block: FLT_STICKY or FLT_MAPi. -/
def State.clearVendor (s : State) (off : Nat) (v : W32) : State :=
  if off = 0x008 then (if v.getLsbD 31 then s.clearFault s.flt.sel.toNat else s)
  else if within off 0x020 0x110 && off % 4 == 0 then s.clearMap (8 * (off - 0x020)) v fun _ => true
  else s

/-- STICKY_CLEAR; a misaligned write sets BAR0_SIZE, or is a bus error (R123, R510). -/
def execStickyClear (who : Requester) (addr v : W32) (s : State) : Res :=
  match who with
  | .host p => s.barWrite p fun s => .next (if addr.toNat % 4 = 0 then s.clearView p addr.toNat v else s.onPart p (·.setErr 1))
  | _ =>
    if addr.toNat % 4 ≠ 0 then .next (s.busError who addr.toNat)
    else s.access who .write false (within addr.toNat ctlFlt 0x10000) addr.toNat v fun s => .next (s.clearVendor (addr.toNat - ctlFlt) v)

/-- FLT_FIRST_LO_READ: the upper half is latched for the requester. -/
def execFltFirstLoRead (who : Requester) (s : State) : Res :=
  s.access who .read false true (ctlFlt + 0x00C) 0 fun s =>
    let t := (s.faultRec s.flt.sel.toNat).firstTime
    .next ((s.onFlt fun f => { f with firstHi := tblSet 0 f.firstHi (latchOf who) (t.extractLsb' 32 32) }).emit
      (.regData who (t.extractLsb' 0 32)))

/-! ### Windows and intervals (R451, R460) -/

/-- BUCKET_START: a change of bucket length or threshold takes effect; the first new bucket starts at that instant. -/
def execBucketStart (cls : Nat) (s : State) : Res :=
  if cls < 2 ∨ 5 < cls then .next s
  else
    let w := s.flt.winCfg cls
    match w.next with
    | some (t, thresh, ms) =>
      if s.now < t then .next s
      else .next (s.onFlt fun f =>
        { (f.setWinCfg cls { thresh := thresh, bucketMs := ms, next := none }) with bucketStartNs := tblSet 0 f.bucketStartNs cls t })
    | none => .next s

/-- COALESCE_INTERVAL_END. -/
def execCoalesceIntervalEnd (isFault : Bool) (cls index : Nat) (s : State) : Res :=
  .next (s.endInterval (if isFault then 0 else cls) index)

/-! ### Restore (R457, R458) -/

/-- A retired segment is restored: its drops are ABSENT, and it is reset and enumerated. -/
def State.restoreSegment (s : State) (i : Nat) : State :=
  if !(s.seg i).retired then s
  else
    let s := s.clearWindow 3 i
    let s := (natRange (32 * i) (32 * i + 31)).foldl (fun s g =>
      if (s.drop g).state == .absent then s else (s.setLive (0x080 + g) false).loseDrop g) s
    let s := s.onSeg i fun x => { x with retired := false, resetDue := true }
    (s.endCause i 4).occurRestore (0x040 + i)

/-- A retired core returns to service with no load. -/
def State.restoreCore (s : State) (n : Nat) : State :=
  if !(s.core n).retired then s
  else
    let s := (s.clearWindow 2 n).onCore n fun c => { c with retired := false }
    (s.setLive (0x020 + n) false).occurRestore (0x020 + n)

/-- A write of FLT_RESTORE. -/
def State.restoreWrite (s : State) (who : Requester) (v : W32) : Res :=
  s.access who .write false true (ctlFlt + 0x220) v fun s =>
    let k := field v.toNat 13 12
    let i := field v.toNat 5 0
    if !v.getLsbD 31 then .next s
    else if k = 1 then .next (s.restoreSegment i)
    else if k = 2 ∧ i < 16 then .next (s.restoreCore i)
    else .next s

def execSegmentRestore (who : Requester) (v : W32) (s : State) : Res := s.restoreWrite who v

def execCoreRestore (who : Requester) (v : W32) (s : State) : Res := s.restoreWrite who v

/-! ### The log ring's registers (R461, R466) -/

/-- FLT_LOG_CFG_EN: a write of FLT_LOG_CFG. -/
def execFltLogCfgEn (p : PartId) (v : W32) (s : State) : Res :=
  s.barWrite p fun s =>
    let r := (s.part p).logRing
    let en := v.getLsbD 31
    if r.en then
      if en then .next s else .next (s.onPart p fun x => { x with logRing := { r with en := false } })
    else
      let log2 := field v.toNat 3 0
      if en && decide (6 ≤ log2) && decide (log2 ≤ 14) then
        .next (s.onPart p fun x =>
          { x with logRing := { r with en := true, log2 := log2, head := 0, tail := 0, rseq := 1, lostSince := 0, waiting := [] } })
      else .next (s.onPart p fun x => { x with logRing := { r with log2 := log2 } })

/-- FLT_LOG_HEAD_WRITE: records are consumed; those that wait are written to the freed slots, and a GAP record after them where some were lost. -/
def execFltLogHeadWrite (p : PartId) (v : W32) (s : State) : Res :=
  s.barWrite p fun s =>
    let r := (s.part p).logRing
    let h := field v.toNat 13 0
    match r.releases h with
    | some _ => .next ((s.onPart p fun x => { x with logRing := { r with head := h } }).flushLog p)
    | none => .next s

end Sys2Proof.Machine
end

