-- ==== Sys2Proof/Machine/GuardReg.lean ====
section
/-! DEFINITION. The guard's registers (R429, R434, R436, R439, R440, R442, R443). -/

namespace Sys2Proof.Machine

/-! ### Regions within the customer default map (R427, R429) -/

/-- A range gives at least a region's rights. -/
def MapRange.gives (m : MapRange) (g : GuardRegion) : Bool :=
  m.space == g.space && (!g.r || m.r) && (!g.w || m.w) && (!g.x || m.x)

/-- The bytes from addr to last lie in ranges of a list. -/
def coveredFrom (fuel : Nat) (l : List MapRange) (addr last : Nat) : Bool :=
  match fuel with
  | 0 => false
  | k + 1 =>
    if last < addr then true
    else
      match l.find? fun m => within addr m.base m.size with
      | none => false
      | some m => coveredFrom k l (m.base + m.size) last

/-- A region exceeds the customer default map (R429). -/
def State.beyond (s : State) (c : Nat) (g : GuardRegion) : Bool :=
  !coveredFrom 6 ((s.customerMap c).filter fun m => m.gives g) g.base g.last

/-! ### Loads (R429, R434) -/

/-- The load error of a VALID entry at an index of pair n, and the overlapped index; of several the lowest code (R429). -/
def State.loadError (s : State) (n k : Nat) (x : BitVec 128) (g : GuardRegion) : Option (Nat × Nat) :=
  let hit := (regionsOf (s.pair n).inactive).find? fun e => e.1 != k && e.2.meets g
  match hit with
  | some e => some (1, e.1)
  | none =>
    if pairSize n ≤ k || decide (g.last < g.base) || field x.toNat 69 64 != 0 || (decide (n < 8) && g.x) then some (2, 0)
    else if (n = 8 ∨ n = 9) ∧ g.space < 2 ∧ s.beyond (n - 8) g = true then some (3, 0)
    else if (n < 8 ∧ g.space < 2) ∨ ((n = 8 ∨ n = 9) ∧ 2 ≤ g.space) ∨ (n = 10 ∧ g.space = 3) then some (4, 0)
    else none

/-- The entry a bank lists at an index, 0 where none is. -/
def bankEntry (t : Tbl (BitVec 128)) (k : Nat) : BitVec 128 := (tblFind t k).getD 0

/-- An access to a register of bank pair b. -/
def State.pairWrite (s : State) (who : Requester) (b off : Nat) (v : W32) (f : State → State) : Res :=
  s.access who .write false true (ctlGrd + 0x40 * b + off) v fun s => .next (f s)

/-- GRD_ENTRY_SEL_WRITE: the entry that VIEW and INDEX select is copied into D0–D3. -/
def execGrdEntrySelWrite (who : Requester) (b : PairId) (v : W32) (s : State) : Res :=
  s.pairWrite who b 0x0C v fun s => s.onPair b fun p =>
    let view := v.getLsbD 15
    let k := v.extractLsb' 0 9
    { p with view := view, index := k, buffer := bankEntry (if view then p.active else p.inactive) k.toNat }

/-- GRD_ENTRY_LOAD. -/
def execGrdEntryLoad (who : Requester) (b : PairId) (v : W32) (s : State) : Res :=
  s.pairWrite who b 0x20 v fun s =>
    if !v.getLsbD 0 then s
    else
      let p := s.pair b
      let k := p.index.toNat
      let load := s.onPair b fun p =>
        p.setInactive (if p.buffer.getLsbD 5 then tblPut p.inactive k p.buffer else tblErase p.inactive k)
      match (regionOf p.buffer).bind (s.loadError b k p.buffer) with
      | none => load
      | some e =>
        let s := s.onPair b fun p => { p with err := true, errCode := BitVec.ofNat 3 e.1, errOther := BitVec.ofNat 9 e.2 }
        if b.val = 8 ∨ b.val = 9 then s.signalPriv (b.val - 6) 17 else s

/-- GRD_BANK_SWAP. -/
def execGrdBankSwap (who : Requester) (b : PairId) (v : W32) (s : State) : Res :=
  s.pairWrite who b 0 v fun s => if v.getLsbD 31 then s.swapPair b (v.getLsbD 30) else s

/-- GRD_CAP_CLEAR. -/
def execGrdCapClear (who : Requester) (b : PairId) (v : W32) (s : State) : Res :=
  s.pairWrite who b 0x28 v fun s => if v.getLsbD 31 then s.clearCapture b else s

/-- GRD_CAP_ADDR_LO_READ: the upper half is latched for the requester. -/
def execGrdCapAddrLoRead (who : Requester) (b : PairId) (s : State) : Res :=
  s.access who .read false true (ctlGrd + 0x40 * b + 0x2C) 0 fun s =>
    let a := (s.pair b).cap.addr
    .next ((s.onPair b fun p => { p with addrHi := tblSet 0 p.addrHi (latchOf who) (a.extractLsb' 32 32) }).emit
      (.regData who (a.extractLsb' 0 32)))

/-- GRD_SEG_EN_WRITE (R439). -/
def execGrdSegEnWrite (who : Requester) (i : SegId) (v : W32) (s : State) : Res :=
  s.access who .write false true (ctlGrd + 0x1000 + 0x20 * i) v fun s =>
    .next (s.onSeg i fun x => { x with filter := x.filter.writeEn (v.getLsbD 31) })

end Sys2Proof.Machine
end

