-- ==== Sys2Proof/Machine/Restart.lean ====
section
/-! DEFINITION. What survives a loss of power or a restart (R480, R483), the rollback of a firmware trial (R490), and the start-up
sequence: DC_GOOD, the boot calendars, the standby-page cache and the end of start-up (R448, R482, R484, R485, R488, R493). -/

namespace Sys2Proof.Machine

/-! ### What is lost and what is kept (R480) -/

/-- Every segment freezes (R31, R101). -/
def State.freezeAll (s : State) : State := (List.range 64).foldl (fun s i => s.freezeSegment i) s

/-- What each segment's FREEZE still waits for, before the unit stops: a response, a Whistle count with its closing IDLE, a guest tenure (R95, R101,
log entry 90). -/
def State.freezeRest (s : State) : State :=
  (List.range 64).foldl (fun s i =>
    let x := s.seg i
    if !x.clk then s
    else
      let s := if x.freezeDue then s.sendFreeze i else s
      let s := if (s.seg i).tenure.isSome then s.closeTenure i else s
      let s := if (s.seg i).whistleEnd.isSome then s.closeWhistle i else s
      if (s.seg i).freezeAgain then
        (s.onSeg i fun x => { x with freezeAgain := false }).sendWords i (s.base2 i) (broadcast opFreeze [])
      else s) s

/-- Every running CLK stops. -/
def State.stopClocks (s : State) : State :=
  (List.range 64).foldl (fun s i => if (s.seg i).clk then s.emit (.clkStop i) else s) s

/-- Of a drop, flash keeps the calibration sets (R492). -/
def Drop.kept (d : Drop) : Drop := { calNow := d.calNext.getD d.calNow, calPrev := d.calPrev }

/-- Of a customer core, flash keeps the image slots (R491). -/
def CustomerCore.kept (c : CustomerCore) : CustomerCore := { slotA := c.slotA, slotB := c.slotB, useB := c.useB }

/-- Of a partition, what its host's cable holds: PERST#, the reference clock, Link Disable (R41). -/
def Partition.kept (x : Partition) : Partition := { holds := x.holds }

/-- The state with everything but flash and the outside of the unit lost: the supply's, the fans' and the junction's readings and the levels on
the host cables are what they are. -/
def State.lost (s : State) : State :=
  { State.reset with
    pending := s.pending
    out := s.out
    nextId := s.nextId
    free := s.free
    tb := { tick := s.tb.tick }
    plant := { fans := s.plant.fans, junction := s.plant.junction }
    parts := tblFilter (fun _ x => decide (x ≠ {})) (tblMap (fun _ x => x.kept) s.parts)
    drops := tblFilter (fun _ d => decide (d ≠ {})) (tblMap (fun _ d => d.kept) s.drops)
    flt := { store := s.flt.store, storeRestored := s.flt.storeRestored }
    cc := tblFilter (fun _ c => decide (c ≠ {})) (tblMap (fun _ c => c.kept) s.cc)
    boot := { s.boot with phase := .off, warm := false, startTick := 0, doneTick := none, pagesCopied := false, bootCalDone := [],
                          cache := [], copyDue := false, coreDown := [], lapsesDue := [], fwFaultDue := false } }

/-- The unit loses power or is held in reset: every CLK stops, everything but flash is lost (R39, R480). -/
def State.powerDown (s : State) : State := s.stopClocks.lost

/-- A warm restart: FREEZE, then every CLK stops; unit time and the timebase go on (R480, R483). The wait for the mains' return that a power
fail began does not outlast it (log entry 122). -/
def State.warmRestart (s : State) : State :=
  let t := s.freezeAll.freezeRest.stopClocks
  let l := t.lost
  { l with tb := s.tb,
           plant := { l.plant with warn := s.plant.warn, lineReadings := s.plant.lineReadings, lineDv := s.plant.lineDv,
                                   restoreTick := s.plant.restoreTick, psuLimit := s.plant.psuLimit },
           boot := { l.boot with warm := true } }

/-! ### Vendor firmware slots (R489, R490) -/

/-- The firmware slot in trial: true for B. -/
def Boot.trial (b : Boot) : Option Bool := if b.fwB = .trial then some true else if b.fwA = .trial then some false else none
def Boot.setSlot (b : Boot) (slotB : Bool) (x : FwSlotState) : Boot := if slotB then { b with fwB := x } else { b with fwA := x }
def Boot.slot (b : Boot) (slotB : Bool) : FwSlotState := if slotB then b.fwB else b.fwA
/-- The signature verifies, and the version is at least the fuses' (R489). -/
def Boot.verifies (b : Boot) (img : FwImage) : Bool := img.signatureOk && decide (b.fuse ≤ img.version)
def Boot.img (b : Boot) (slotB : Bool) : FwImage := if slotB then b.imgB else b.imgA

/-- The unit runs a TRIAL slot; service mode starts the GOOD slot (R488). -/
def State.inTrial (s : State) : Bool := s.boot.trial.isSome && (s.boot.phase == .starting || s.boot.phase == .running)

/-- A FIRMWARE record for the fault store. -/
def State.storeFirmware (s : State) : State :=
  s.storeRec { type := 1, cls := 0, index := 0x00B, threshHit := false, time := s.now, count := 1, detail := 0, window := 0, part := 0 }

/-- A trial is rolled back: the slot is BAD, and the other one starts (R490). -/
def State.rollback (s : State) : State :=
  match s.boot.trial with
  | none => s
  | some b => ((s.onBoot fun x => x.setSlot b .bad).storeFirmware).warmRestart

/-! ### DC_GOOD: the start-up sequence up to vendor firmware (R482) -/

/-- The newer copy of the map that verifies, else the factory map, with a FIRMWARE fault to come (R493). -/
def State.chooseMap (s : State) : State :=
  if !s.boot.storedBad then s.onBoot fun b => { b with map := b.stored }
  else if !s.boot.olderBad then s.onBoot fun b => { b with map := b.older }
  else (s.onBoot fun b => { b with map := PartMap.factory, fwFaultDue := true }).storeFirmware

/-- R448: the last record of the store, a POWER_FAIL or THERMAL_TRIP without a restoration, sets its sticky bit again. -/
def State.restoreSticky (s : State) : State :=
  match s.flt.store with
  | r :: _ =>
    if r.type = 1 ∧ r.cls = 0 ∧ (r.index = 0 ∨ r.index = 4) ∧ s.flt.storeRestored = false then
      s.setFault r.index { s.faultRec r.index with sticky := true, firstTime := BitVec.ofNat 64 r.time, firstDetail := r.detail }
    else s
  | [] => s

/-- Arbiter and filter settings of a segment by the map (R263, R438). -/
def mapArb (m : PartMap) (i : Nat) : Arb :=
  let a : Arb := {}
  { a with cls := tblGet a.cls m.arbClass i &&& clsMask, tenure := tblGet a.tenure m.arbTenure i,
           leash := match tblFind m.arbLeash i with
             | some l => [(0, BitVec.ofNat 32 l.1), (1, BitVec.ofNat 32 l.2.1), (2, BitVec.ofNat 32 l.2.2.1), (3, BitVec.ofNat 32 l.2.2.2)].filter
                 fun e => e.2 != (0 : W32)
             | none => a.leash }

def mapFilter (m : PartMap) (i : Nat) : Filter :=
  let f : Filter := {}
  let p0 := tblGet (f.prot0Base, f.prot0Last) m.prot0 i
  let p1 := tblGet (f.prot1Base, f.prot1Last) m.prot1 i
  { f with en := tblGet f.en m.filterEn i, rdMask := tblGet f.rdMask m.rdMask i, wrMask := tblGet f.wrMask m.wrMask i,
           guestMask := tblGet f.guestMask m.guestMask i, prot0Base := p0.1, prot0Last := p0.2, prot1Base := p1.1, prot1Last := p1.2 }

def State.loadSegments (s : State) : State :=
  (List.range 64).foldl (fun s i => s.onSeg i fun x => { x with arb := mapArb s.map i, filter := mapFilter s.map i }) s

/-- A customer core's registers by the map; a core with CMEM starts (R471, R479). -/
def State.loadCores (s : State) : State :=
  [0, 1].foldl (fun s c =>
    let on := tblGet 0 s.map.cmemMiB c != 0
    s.onCust c fun x => { x with run := on, fbFormat := tblGet false s.map.ccFbFormat c, startDue := on }) s

/-- A port begins with its static address, or with DHCP requests (R45). -/
def portStart (a : PortAddr) (tick : Nat) : NetState :=
  if a.dhcp then { requestTick := some tick, lastRequest := some tick } else { addr := some (a.addr, a.prefixLen, a.gateway) }

def State.startPort (s : State) (port : NetPort) (a : PortAddr) : State :=
  let n := portStart a s.tick
  let s := s.onPlant fun x => match port with
    | .timing => { x with timing := n }
    | .service => { x with service := n }
  if a.dhcp then s.emit (.dhcpRequest port (Config.macAddress (port == .timing))) else s

/-- Modules failed or absent, as FAN's DETAIL (R447). -/
def Plant.fanMap (x : Plant) : Nat := sumNat (x.fans.map fun f => if f.2 then 2 ^ f.1 else 0)

/-- Conditions that already hold when vendor firmware starts set their faults (R444). -/
def State.standing (s : State) : State :=
  let f := s.plant.fanMap
  let s := if f = 0 then s else (s.setLive 0x005 true).raise 0x005 (BitVec.ofNat 32 f)
  let s := if s.plant.junction < 1000 then s else (s.setLive 0x003 true).raise 0x003 (BitVec.ofInt 32 s.plant.junction)
  let s := if s.plant.psuLimit.toNat < 960 then (s.setLive 0x00C true).raise 0x00C (BitVec.ofNat 32 s.plant.lineDv) else s
  let s := if s.plant.warn then (s.setLive 0x000 true).raise 0x000 (BitVec.ofNat 32 s.plant.lineDv) else s
  let s := if s.tb.state = .holdover then (s.setLive 0x006 true).raise 0x006 0 else s
  if s.plant.lineReadings.isEmpty then s else s.recomputePool

/-- The drops' defaults that the map gives (R473) need no state; partitions take their default FALLBACK (R476). -/
def State.loadPartitions (s : State) : State :=
  (List.range 8).foldl (fun s p => s.onPart p fun x => { x with fallback := tblGet false s.map.defFallback p }) s

/-- In service mode CONSOLE_TX prints boot progress and the fault store's last 16 records, the oldest first (R488). -/
def State.printBoot (s : State) : State :=
  (s.flt.store.take 16).reverse.foldl (fun s l => s.emit (.console (.record l))) (s.emit (.console .bootProgress))

/-- The boot ROM's verification of the TRIAL slot fails (R482, R489, R490); service mode starts the GOOD slot and leaves the trial (R488). -/
def Boot.trialFails (b : Boot) (pinLow : Bool) : Bool :=
  !pinLow && match b.trial with
    | some slot => !b.verifies (b.img slot)
    | none => false

/-- DC_GOOD: the start-up sequence begins, with the level of SERVICE_MODE_N and the real-time clock (R61, R482, R488), unless the TRIAL slot fails
its verification. After a RESTART or a rollback it stands for the boot ROM's start (log entry 36). -/
def execDcGood (pinLow : Bool) (rtcNs : Nat) (s : State) : Res :=
  if s.boot.phase != .off then .next s
  else
    let s := if s.boot.warm then s else s.onTb fun t => { tick := t.tick, acc := BitVec.ofNat 96 (rtcNs * 2 ^ 32) }
    if s.boot.trialFails pinLow then .next s.rollback
    else
    let s := s.onBoot fun b => { b with phase := if pinLow then .service else .starting, warm := false, startTick := s.tick, copyDue := true }
    let s := s.chooseMap.restoreSticky
    let s := s.loadSegments.loadPartitions
    let s := if pinLow then s else s.loadCores
    let s := s.startPort .timing s.map.timing
    let s := s.startPort .service (if pinLow then PartMap.factory.servicePort else s.map.servicePort)
    let s := s.standing
    .next (if pinLow then s.printBoot else s)

/-! ### Boot calendars (R484) -/

/-- Boot calendar entries by the partition that holds them. -/
def bootChanges (t : Tbl W64) (p : Nat) : Tbl W64 := tblFilter (fun k e => (entrySlot k e).part == p) t

/-- The state with a segment's boot calendar decided, as if every partition in it had committed its part for boundary due. -/
def State.decideBoot (s : State) (i due : Nat) (t : Tbl W64) : State :=
  let ps := (List.range 8).filter fun p => !(bootChanges t p).isEmpty
  let s := ps.foldl (fun s p => s.setStaged p i { state := .pending, changes := bootChanges t p, due := due }) s
  ((s.onSeg i fun x => { x with vendor := x.vendor ++ [{ due := due, idle := none, mixed := s.mixed i }] }).recharge (s.recordedDrops i)).chargeColant i

/-- The checks of R229, RETIRED among them, and the admission bounds, with the ceilings of every partition in the calendar. -/
def State.bootRefused (s : State) (i : Nat) (t : Tbl W64) : Bool :=
  let ps := (List.range 8).filter fun p => !(bootChanges t p).isEmpty
  let x := s.seg i
  (s.seg i).retired || s.namesRetired i t || (firstFail (s.wordsSteps i ++ ps.flatMap fun p => s.admitCalendar p i (slotsOf (x.calendarAt x.lastDue).1))).isSome

/-- A boot calendar is not installed: the trace buffer and the calendar source (R484, log entry 37). -/
def State.bootFails (s : State) (i : Nat) : State :=
  (s.traceRec { type := 3, cls := 3, index := i, threshHit := false, time := s.now, count := 0, detail := 0, window := 0,
                part := (s.partsOnSeg i).headD 0 }).signalSeg i 0

/-- Segments with a boot calendar. -/
def State.bootSegs (s : State) : List Nat := (s.map.bootCal.filter fun e => !e.2.isEmpty).map (·.1)

/-- BOOT_CALENDAR_INSTALL: the segment's boot calendar is checked, in ascending segment order, and decided for its first cycle boundary at
least 200 µs later. -/
def execBootCalendarInstall (i : SegId) (s : State) : Res :=
  let earlier := s.bootSegs.filter fun k => decide (k < i.val)
  if s.boot.phase != .starting || !(s.seg i).enumerated || !s.bootSegs.contains i.val || s.boot.bootCalDone.contains i.val
      || !earlier.all (fun k => s.boot.bootCalDone.contains k) then .next s
  else
    let s := s.onBoot fun b => { b with bootCalDone := insertAsc b.bootCalDone i }
    let t := tblGet [] s.map.bootCal i
    let c := s.decideBoot i (s.swapInstant i) t
    if c.bootRefused i t then .next (s.bootFails i) else .next c

/-- STANDBY_PAGE_COPY: the copy of the library into the cache completes (R478). -/
def execStandbyPageCopy (s : State) : Res :=
  if !s.boot.copyDue then .next s
  else .next (s.onBoot fun b => { b with cache := b.library, copyDue := false, pagesCopied := true })

/-! ### The end of start-up (R482) -/

/-- What the sequence has done: every segment enumerated, the pages copied, the boot calendars dealt with, the customer cores begun. -/
def State.startUpDone (s : State) : Bool :=
  (List.range 64).all (fun i => (s.seg i).enumerated) && s.boot.pagesCopied && s.bootSegs.all (fun i => s.boot.bootCalDone.contains i)
    && [0, 1].all fun c => !(s.cust c).startDue

/-- START_UP_COMPLETE: the fallback image areas stay as they are (R467). In service mode start-up never completes (R488). -/
def execStartUpComplete (s : State) : Res :=
  if s.boot.phase != .starting || !s.startUpDone then .next s
  else
    let due := s.boot.fwFaultDue
    let s := [0, 1].foldl (fun s c => s.onCust c fun x => { x with areas := s.areasKnown c }) s
    let s := s.onBoot fun b => { b with phase := .running, doneTick := some s.tick, fwFaultDue := false }
    .next (if due then s.raise 0x00B 0 else s)

/-! ### Firmware trials (R490) -/

/-- TRIAL_TIMEOUT: start-up from a TRIAL slot has not completed within 2 s. -/
def execTrialTimeout (s : State) : Res :=
  if s.inTrial && s.boot.phase == .starting && s.past s.boot.startTick (ticksOfS 2) then .next s.rollback else .next s

/-- The TRIAL slot becomes GOOD and the slot in use. -/
def State.endTrial (s : State) : State :=
  match s.boot.trial with
  | some b => s.onBoot fun x => { x.setSlot b .good with useB := b }
  | none => s

/-- TRIAL_END: 600 s after start-up completed. -/
def execTrialEnd (s : State) : Res :=
  match s.boot.doneTick with
  | some t => if s.inTrial && s.past t (ticksOfS 600) then .next s.endTrial else .next s
  | none => .next s

end Sys2Proof.Machine
end

