-- ==== Sys2Proof/Machine/Plant.lean ====
section
/-! DEFINITION. The supply (R37–R40, R372–R374), temperature and fans (R34, R35), memory errors (R13), restarts of vendor cores (R481), and
the address traffic of the two Ethernet ports (R45). -/

namespace Sys2Proof.Machine

/-- The unit has power and is not held in reset. -/
def State.powered (s : State) : Bool := s.boot.phase != .off && s.boot.phase != .tripped

/-! ### Mains (R38, R39, R372, R373) -/

/-- The supply's warning is asserted: the pool is 0, the fault is recorded, every segment freezes. -/
def State.assertWarning (s : State) (lineDv : Nat) : State :=
  if !s.powered || s.plant.warn then s
  else
    let s := s.onPlant fun x => { x with warn := true, lineDv := lineDv, halted := true, restoreTick := none }
    (((s.recomputePool).setLive 0x000 true).raise 0x000 (BitVec.ofNat 32 lineDv)).freezeAll

/-- POWER_FAIL_WARNING: the rectified input has stayed below 70 V for 3 ms, which the supply alone sees. -/
def execPowerFailWarning (lineDv : Nat) (s : State) : Res := .next (s.assertWarning lineDv)

/-- POWER_FAIL_WARNING_CLEAR: the pool is computed again, SHORT is evaluated against it, the live bit clears. -/
def execPowerFailWarningClear (s : State) : Res :=
  if !s.plant.warn then .next s
  else .next (((s.onPlant fun x => { x with warn := false }).setLive 0x000 false).recomputePool)

/-- MAINS_CYCLE: the RMS input of a full cycle, in 0.1 V. At or above 80 V the time towards restoration runs, from the arrival of the first
such reading (log entry 89); below 75 V the warning is asserted, once the reading has been rated (log entry 118). -/
def execMainsCycle (lineDv : Nat) (s : State) : Res :=
  if !s.powered then .next s
  else
    let s := (s.onPlant fun x =>
      { x with lineDv := lineDv,
               lineReadings := (s.tick, lineDv) :: x.lineReadings.filter fun r => decide (s.tick ≤ r.1 + ticksOfS 60),
               restoreTick := if lineDv < 800 then none else some (x.restoreTick.getD s.tick) }).recomputePool
    .next (if lineDv < 750 then s.assertWarning lineDv else s)

/-- MAINS_RESTORED: output restarts at each segment's next cycle; earlier readings no longer count in V_min. -/
def execMainsRestored (s : State) : Res :=
  if !s.plant.halted || !(s.plant.restoreTick.map fun t => s.past t (ticksOfMs 100)).getD false then .next s
  else
    let s := s.onPlant fun x => { x with halted := false, lineReadings := [] }
    let s := (List.range 64).foldl (fun s i => s.onSeg i fun x => { x with resumeDue := true }) s
    .next ((s.onFlt fun f => { f with storeRestored := true }).recomputePool)

/-- DC_REGULATION_LOSS: the unit powers down; the next start is a cold start, after a thermal trip too (log entry 156). -/
def execDcRegulationLoss (s : State) : Res := .next s.powerDown

/-- PSU_LIMIT_CHANGE: the rating the supply reports. -/
def execPsuLimitChange (quarterWatts : Nat) (s : State) : Res :=
  if !s.powered then .next s
  else
    let was := s.plant.psuLimit.toNat
    let s := s.onPlant fun x => { x with psuLimit := BitVec.ofNat 16 quarterWatts }
    let low := decide (quarterWatts < 960)
    let s := s.setLive 0x00C low
    let s := if low && decide (960 ≤ was) then s.raise 0x00C (BitVec.ofNat 32 s.plant.lineDv) else s
    .next s.recomputePool

/-! ### Grants (R374) -/

/-- The grants of one period: each class its request up to its reservation, then the unreserved rest in the order fans, Colant drivers,
decode cores, compositor, Wafer lanes. -/
def grantsOf (pool : Nat) (resv requests : List Nat) : List Nat :=
  let base := (requests.zip resv).map fun x => min x.1 x.2
  let rest := pool - sumNat resv
  ([5, 4, 1, 2, 3].foldl (fun (a : List Nat × Nat) k =>
    let more := min a.2 (requests.getD k 0 - base.getD k 0)
    (setAt a.1 k (base.getD k 0 + more), a.2 - more)) (base, rest)).1

/-- The consecutive periods in which each class drew more than its grant. -/
def overRunsOf (old : Tbl Nat) (draws grants : List Nat) : Tbl Nat :=
  (List.range 6).foldl (fun t k => tblSet 0 t k (if grants.getD k 0 < draws.getD k 0 then tblGet 0 old k + 1 else 0)) []

/-- POWER_GRANT_PERIOD: requests and measured draws by class, 0.25 W. -/
def execPowerGrantPeriod (requests draws : List Nat) (s : State) : Res :=
  if !s.powered || !(s.plant.grantTick.map fun t => s.past t (ticksOfUs 10)).getD true then .next s
  else
    let g := grantsOf s.plant.pool.toNat (s.reservations s.passes) requests
    let o := overRunsOf s.plant.overRuns draws g
    let hit := o.any fun x => decide (10 ≤ x.2)
    let was := s.plant.overrun
    let s := s.onPlant fun x => { x with grants := (g.zipIdx.filter fun e => e.1 != 0).map fun e => (e.2, e.1), overRuns := o,
                                         grantTick := some s.tick, overrun := x.overrun || hit }
    let s := s.setLive 0x002 (!o.isEmpty)
    .next (if hit && !was then s.raise 0x002 0 else s)

/-! ### Temperature and fans (R34, R35) -/

/-- THERMAL_WARNING: the junction reaches 100 °C; tenths of a degree. -/
def execThermalWarning (tenths : Int) (s : State) : Res :=
  if tenths < 1000 then .next s
  else
    let s := s.onPlant fun x => { x with junction := tenths }
    if !s.powered || (s.faultRec 0x003).live then .next s
    else .next ((s.setLive 0x003 true).raise 0x003 (BitVec.ofInt 32 tenths))

/-- THERMAL_WARNING_CLEAR: the junction falls below 100 °C. -/
def execThermalWarningClear (tenths : Int) (s : State) : Res :=
  if 1000 ≤ tenths then .next s
  else .next ((s.onPlant fun x => { x with junction := tenths }).setLive 0x003 false)

/-- THERMAL_TRIP: FREEZE, the record, the second FREEZE for drops deaf at the first, then reset (R35, R101, log entry 90). -/
def execThermalTrip (tenths : Int) (s : State) : Res :=
  if tenths < 1150 || !s.powered then .next s
  else
    let s := s.onPlant fun x => { x with junction := tenths }
    let s := (s.freezeAll).raise 0x004 (BitVec.ofInt 32 tenths)
    .next (s.freezeRest.powerDown.onBoot fun b => { b with phase := .tripped })

/-- THERMAL_RESTART: below 95 °C the unit may start cold (log entry 36). -/
def execThermalRestart (tenths : Int) (s : State) : Res :=
  if s.boot.phase != .tripped || decide (950 ≤ tenths) then .next s
  else .next ((s.onPlant fun x => { x with junction := tenths }).onBoot fun b => { b with phase := .off })

/-- FAN_FAILURE: a module fails or is removed, or works again. -/
def execFanFailure (m : Fin 4) (failed : Bool) (s : State) : Res :=
  let new := failed && !tblGet false s.plant.fans m
  let s := s.onPlant fun x => { x with fans := tblSet false x.fans m failed }
  let map := s.plant.fanMap
  if !s.powered then .next s
  else
    let s := s.setLive 0x005 (map != 0)
    .next (if new then s.raise 0x005 (BitVec.ofNat 32 map) else s)

/-! ### Memory (R13) -/

/-- The output at a place of s.out carries data with an uncorrectable error: it is sent with EP set (R135). -/
def State.poisonOut (s : State) (k : Nat) : State := { s with out := s.out.zipIdx.map fun o => if o.2 = k then o.1.poison else o.1 }

/-- MEMORY_ERROR: a corrected one is counted, an uncorrectable one is a fault; where it is in data being sent to a host, the TLP that
carries it (its place in s.out) is sent with EP set. -/
def execMemoryError (addr : BitVec 35) (kind : MemError) (s : State) : Res :=
  if !s.powered then .next s
  else
    match kind with
    | .corrected => .next (s.onFlt fun f => { f with ecc := satInc f.ecc })
    | .uncorrectable sent => .next ((match sent with
      | some k => s.poisonOut k
      | none => s).raise 0x007 (addr.extractLsb' 3 32))

/-! ### Vendor cores (R481, R490) -/

/-- VENDOR_CORE_RESTART: a watchdog expiry or exception of CC0 or CC1. In a firmware trial the unit rolls back; otherwise the sessions the
core serves end. -/
def execVendorCoreRestart (c : Fin 2) (s : State) : Res :=
  if !s.powered || (tblFind s.boot.coreDown c).isSome then .next s
  else if s.inTrial then .next s.rollback
  else
    let s := (s.raise 0x00B 0).onBoot fun b => { b with coreDown := tblPut b.coreDown c s.tick }
    let served := (List.range 8).filter fun p => interpreterOf p == c.val && (s.part p).session != .closed
    .next (s.fairly (served.foldl (fun s p => (s.composeFirst p).endSession p) s))

/-- VENDOR_CORE_RUNNING: lapses that fell inside the restart are acted on, and waiting commands are taken. -/
def execVendorCoreRunning (c : Fin 2) (s : State) : Res :=
  if (tblFind s.boot.coreDown c).isNone then .next s
  else
    let s := s.onBoot fun b => { b with coreDown := tblErase b.coreDown c }
    let due := if s.boot.coreDown.isEmpty then s.boot.lapsesDue else []
    let s := due.foldl (fun s p => if (s.part p).session == .opened then s.lapse p else s) s
    let s := if s.boot.coreDown.isEmpty then s.onBoot fun b => { b with lapsesDue := [] } else s
    .next (s.fairly ((List.range 8).foldl (fun s p => s.settleRings p) s))

/-! ### The Ethernet ports (R45) -/

def Plant.port (x : Plant) : NetPort → NetState
  | .timing => x.timing
  | .service => x.service
def Plant.setPort (x : Plant) (p : NetPort) (n : NetState) : Plant :=
  match p with
  | .timing => { x with timing := n }
  | .service => { x with service := n }

/-- The factory static setting of the service port. -/
def factoryAddr : W32 × Nat × W32 :=
  (PartMap.factory.servicePort.addr, PartMap.factory.servicePort.prefixLen, PartMap.factory.servicePort.gateway)

/-- The MAC address of a port (R45). -/
def macOf (port : NetPort) : BitVec 48 := Config.macAddress (port == .timing)

/-- DHCP_ANSWER: a lease is granted to a port that requests one. -/
def execDhcpAnswer (port : NetPort) (addr : W32) (prefixLen : Nat) (gateway : W32) (s : State) : Res :=
  if (s.plant.port port).requestTick.isNone then .next s
  else .next (s.onPlant fun x => x.setPort port { addr := some (addr, prefixLen, gateway), leased := true })

/-- DHCP_REQUEST_TIMER: a further request every 10 s; after 30 s the service port takes its factory static setting. -/
def execDhcpRequestTimer (port : NetPort) (s : State) : Res :=
  let n := s.plant.port port
  match n.requestTick with
  | none => .next s
  | some t =>
    let again := (n.lastRequest.map fun k => s.past k (ticksOfS 10)).getD true
    let fall := port == .service && n.addr.isNone && s.past t (ticksOfS 30)
    let s := s.onPlant fun x => x.setPort port
      { n with lastRequest := if again then some s.tick else n.lastRequest, addr := if fall then some factoryAddr else n.addr }
    .next (if again then s.emit (.dhcpRequest port (macOf port)) else s)

/-- LEASE_LOST: the timing port has no address, the service port its factory static setting; requests begin again at once on either (log
entry 91). -/
def execLeaseLost (port : NetPort) (s : State) : Res :=
  if !(s.plant.port port).leased then .next s
  else
    let addr := if port = .service then some factoryAddr else none
    .next ((s.onPlant fun x => x.setPort port { addr := addr, requestTick := some s.tick, lastRequest := some s.tick }).emit (.dhcpRequest port (macOf port)))

/-- ARP_ICMP_ECHO_REQUEST: answered by a port that has an address. -/
def execArpIcmpEchoRequest (port : NetPort) (query : NetQuery) (payload : Nat) (s : State) : Res :=
  if s.powered && (s.plant.port port).addr.isSome then .next (s.emit (.net port query payload (macOf port))) else .next s

/-- SERVICE_PORT_CLIENT: a client whose certificate chain verifies opens the one session, or the session closes (R487). -/
def execServicePortClient (opening chainOk : Bool) (s : State) : Res :=
  if !opening then .next (s.onPlant fun x => { x with svcClient := false })
  else if !s.powered || !chainOk || s.plant.svcClient || s.plant.service.addr.isNone then .next s
  else .next (s.onPlant fun x => { x with svcClient := true })

end Sys2Proof.Machine
end

