-- ==== Sys2Proof/Machine/Signature.lean ====
section
/-! DEFINITION. ECDSA over P-384 with SHA-384, the standard that R470 names for the signature of a customer image: SHA-384 (FIPS 180-4) and
signature verification on the curve P-384 (FIPS 186-5, SP 800-186), of which the spec gives the names alone (log entry 154). -/

namespace Sys2Proof.Machine

/-! ### SHA-384 -/

/-- Round constants 0–15: the first 64 bits of the fractional parts of the cube roots of the primes. -/
def shaConst0 : List W64 :=
  [0x428a2f98d728ae22, 0x7137449123ef65cd, 0xb5c0fbcfec4d3b2f, 0xe9b5dba58189dbbc,
   0x3956c25bf348b538, 0x59f111f1b605d019, 0x923f82a4af194f9b, 0xab1c5ed5da6d8118,
   0xd807aa98a3030242, 0x12835b0145706fbe, 0x243185be4ee4b28c, 0x550c7dc3d5ffb4e2,
   0x72be5d74f27b896f, 0x80deb1fe3b1696b1, 0x9bdc06a725c71235, 0xc19bf174cf692694]

/-- Round constants 16–31: the first 64 bits of the fractional parts of the cube roots of the primes. -/
def shaConst1 : List W64 :=
  [0xe49b69c19ef14ad2, 0xefbe4786384f25e3, 0x0fc19dc68b8cd5b5, 0x240ca1cc77ac9c65,
   0x2de92c6f592b0275, 0x4a7484aa6ea6e483, 0x5cb0a9dcbd41fbd4, 0x76f988da831153b5,
   0x983e5152ee66dfab, 0xa831c66d2db43210, 0xb00327c898fb213f, 0xbf597fc7beef0ee4,
   0xc6e00bf33da88fc2, 0xd5a79147930aa725, 0x06ca6351e003826f, 0x142929670a0e6e70]

/-- Round constants 32–47: the first 64 bits of the fractional parts of the cube roots of the primes. -/
def shaConst2 : List W64 :=
  [0x27b70a8546d22ffc, 0x2e1b21385c26c926, 0x4d2c6dfc5ac42aed, 0x53380d139d95b3df,
   0x650a73548baf63de, 0x766a0abb3c77b2a8, 0x81c2c92e47edaee6, 0x92722c851482353b,
   0xa2bfe8a14cf10364, 0xa81a664bbc423001, 0xc24b8b70d0f89791, 0xc76c51a30654be30,
   0xd192e819d6ef5218, 0xd69906245565a910, 0xf40e35855771202a, 0x106aa07032bbd1b8]

/-- Round constants 48–63: the first 64 bits of the fractional parts of the cube roots of the primes. -/
def shaConst3 : List W64 :=
  [0x19a4c116b8d2d0c8, 0x1e376c085141ab53, 0x2748774cdf8eeb99, 0x34b0bcb5e19b48a8,
   0x391c0cb3c5c95a63, 0x4ed8aa4ae3418acb, 0x5b9cca4f7763e373, 0x682e6ff3d6b2b8a3,
   0x748f82ee5defb2fc, 0x78a5636f43172f60, 0x84c87814a1f0ab72, 0x8cc702081a6439ec,
   0x90befffa23631e28, 0xa4506cebde82bde9, 0xbef9a3f7b2c67915, 0xc67178f2e372532b]

/-- Round constants 64–79: the first 64 bits of the fractional parts of the cube roots of the primes. -/
def shaConst4 : List W64 :=
  [0xca273eceea26619c, 0xd186b8c721c0c207, 0xeada7dd6cde0eb1e, 0xf57d4f7fee6ed178,
   0x06f067aa72176fba, 0x0a637dc5a2c898a6, 0x113f9804bef90dae, 0x1b710b35131c471b,
   0x28db77f523047d84, 0x32caab7b40c72493, 0x3c9ebe0a15c9bebc, 0x431d67c49c100d4c,
   0x4cc5d4becb3e42b6, 0x597f299cfc657e2a, 0x5fcb6fab3ad6faec, 0x6c44198c4a475817]

/-- The eight working words. -/
structure Sha where
  a : W64
  b : W64
  c : W64
  d : W64
  e : W64
  f : W64
  g : W64
  h : W64
  deriving DecidableEq, Repr

/-- The initial hash value of SHA-384. -/
def shaInit : Sha :=
  { a := 0xcbbb9d5dc1059ed8, b := 0x629a292a367cd507, c := 0x9159015a3070dd17, d := 0x152fecd8f70e5939,
    e := 0x67332667ffc00b31, f := 0x8eb44a8768581511, g := 0xdb0c2e0d64f98fa7, h := 0x47b5481dbefa4fa4 }

/-- The hash value after a block: the old and the new words added. -/
def Sha.add (x y : Sha) : Sha :=
  { a := x.a + y.a, b := x.b + y.b, c := x.c + y.c, d := x.d + y.d, e := x.e + y.e, f := x.f + y.f, g := x.g + y.g, h := x.h + y.h }

/-- One round with constant k and schedule word w. -/
def Sha.round (x : Sha) (k w : W64) : Sha :=
  let t1 := x.h + (x.e.rotateRight 14 ^^^ x.e.rotateRight 18 ^^^ x.e.rotateRight 41) + ((x.e &&& x.f) ^^^ (~~~x.e &&& x.g)) + k + w
  let t2 := (x.a.rotateRight 28 ^^^ x.a.rotateRight 34 ^^^ x.a.rotateRight 39)
    + ((x.a &&& x.b) ^^^ (x.a &&& x.c) ^^^ (x.b &&& x.c))
  { a := t1 + t2, b := x.a, c := x.b, d := x.c, e := x.d + t1, f := x.e, g := x.f, h := x.g }

/-- The next 16 words of the message schedule: the oldest goes and a new one comes. -/
def shaSlide (w : List W64) : List W64 :=
  let s0 := w.getD 1 0
  let s1 := w.getD 14 0
  w.tail ++ [(s1.rotateRight 19 ^^^ s1.rotateRight 61 ^^^ s1 >>> 6) + w.getD 9 0
    + (s0.rotateRight 1 ^^^ s0.rotateRight 8 ^^^ s0 >>> 7) + w.headD 0]

/-- The rounds with the constants ks, the schedule's window standing at w. -/
def shaRounds : List W64 → List W64 → Sha → Sha
  | [], _, x => x
  | k :: ks, w, x => shaRounds ks (shaSlide w) (x.round k (w.headD 0))

/-- Bytes as a big-endian number. -/
def ofBe (bs : List Byte) : Nat := bs.foldl (fun a b => 256 * a + b.toNat) 0

/-- Block i of a padded message as 16 big-endian words. -/
def shaBlock (bs : List Byte) (i : Nat) : List W64 :=
  (List.range 16).map fun j => BitVec.ofNat 64 (ofBe ((bs.drop (128 * i + 8 * j)).take 8))

/-- A message with its padding: a one bit, zeros, and the length in bits as 128 bits. -/
def shaPad (bs : List Byte) : List Byte :=
  bs ++ 0x80 :: List.replicate ((128 - (bs.length + 17) % 128) % 128) 0
    ++ (List.range 16).map fun i => BitVec.ofNat 8 (8 * bs.length / 256 ^ (15 - i))

/-- The SHA-384 digest as the number its 48 bytes spell: the first six words. -/
def sha384 (bs : List Byte) : Nat :=
  let m := shaPad bs
  let x := (List.range (m.length / 128)).foldl (fun x i =>
    x.add (shaRounds (shaConst0 ++ shaConst1 ++ shaConst2 ++ shaConst3 ++ shaConst4) (shaBlock m i) x)) shaInit
  [x.a, x.b, x.c, x.d, x.e, x.f].foldl (fun n w => 2 ^ 64 * n + w.toNat) 0

/-! ### The curve P-384: y² = x³ - 3x + b over the integers modulo p -/

/-- The prime p of the curve's field. -/
def p384Prime : Nat :=
  0xfffffffffffffffffffffffffffffffffffffffffffffffffffffffffffffffeffffffff0000000000000000ffffffff
/-- The order of the base point. -/
def p384Order : Nat :=
  0xffffffffffffffffffffffffffffffffffffffffffffffffc7634d81f4372ddf581a0db248b0a77aecec196accc52973
/-- The coefficient b. -/
def p384B : Nat :=
  0xb3312fa7e23ee7e4988e056be3f82d19181d9c6efe8141120314088f5013875ac656398d8a2ed19d2a85c8edd3ec2aef
/-- The base point. -/
def p384Base : Nat × Nat :=
  (0xaa87ca22be8b05378eb1c71ef320ad746e1d3b628ba79b9859f741e082542a385502f25dbf55296c3a545e3872760ab7,
   0x3617de4a96262c6f5d9e98bf9292dc29f8f41dbd289a147ce9da3113b5f0b8c00a60b1ce1d7e819d7a431d7c90ea0e5f)

/-- The 384 bits of a number, most significant first. -/
def bits384 (n : Nat) : List Bool := (List.range 384).map fun i => n.testBit (383 - i)

/-- 1 / a modulo the prime m: a to the power m - 2. -/
def invMod (m a : Nat) : Nat := (bits384 (m - 2)).foldl (fun r b => if b then r * r % m * a % m else r * r % m) 1

/-- The point at slope l from x1, y1 and x2. -/
def chord (l x1 y1 x2 : Nat) : Nat × Nat :=
  let p := p384Prime
  let x := (l * l + 2 * p - x1 - x2) % p
  (x, (l * (x1 + p - x) + p - y1) % p)

/-- The sum of two points; none is the point at infinity. -/
def pointAdd : Option (Nat × Nat) → Option (Nat × Nat) → Option (Nat × Nat)
  | none, q => q
  | q, none => q
  | some (x1, y1), some (x2, y2) =>
    let p := p384Prime
    if x1 = x2 then
      if y1 = y2 ∧ y1 ≠ 0 then some (chord ((3 * x1 * x1 + p - 3) * invMod p (2 * y1) % p) x1 y1 x2) else none
    else some (chord ((y2 + p - y1) * invMod p (x2 + p - x1) % p) x1 y1 x2)

/-- k times a point. -/
def pointMul (k : Nat) (q : Nat × Nat) : Option (Nat × Nat) :=
  (bits384 k).foldl (fun r b => if b then pointAdd (pointAdd r r) (some q) else pointAdd r r) none

/-- A public key, x then y of 48 bytes each as one number (log entry 154); none where no point of the curve has these coordinates. -/
def keyPoint (key : Nat) : Option (Nat × Nat) :=
  let x := key / 2 ^ 384
  let y := key % 2 ^ 384
  if x < p384Prime ∧ y < p384Prime ∧ y * y % p384Prime = (x * x * x + (p384Prime - 3) * x + p384B) % p384Prime then some (x, y) else none

/-- A signature, r then s of 48 bytes each, verifies for a message against a public key (R470). -/
def signatureVerifies (key : Nat) (message signature : List Byte) : Bool :=
  let n := p384Order
  let r := ofBe (signature.take 48)
  let v := ofBe ((signature.drop 48).take 48)
  match keyPoint key with
  | none => false
  | some q =>
    if r = 0 ∨ n ≤ r ∨ v = 0 ∨ n ≤ v then false
    else
      let w := invMod n v
      match pointAdd (pointMul (sha384 message * w % n) p384Base) (pointMul (r * w % n) q) with
      | none => false
      | some z => z.1 % n == r

end Sys2Proof.Machine
end

