-- ==== Sys2Proof/Machine/Customer.lean ====
section
/-! DEFINITION. Customer cores (R467–R475, R479, R491): start and its checks, the modes, the watchdog, publications, timers. -/

namespace Sys2Proof

/-! ### The image a core starts from (R470) -/

/-- Bytes off to off + n - 1 of an image (R470). -/
def CustImage.part (m : CustImage) (off n : Nat) : List Byte := (m.bytes.drop off).take n
/-- A field of the header, read as the little-endian number of its bytes (log entry 154). -/
def CustImage.num (m : CustImage) (off n : Nat) : Nat := Machine.ofLe (m.part off n)
def CustImage.version (m : CustImage) : Nat := m.num 0x008 4
def CustImage.codeLen (m : CustImage) : Nat := m.num 0x00C 4
def CustImage.dataLen (m : CustImage) : Nat := m.num 0x010 4
def CustImage.bssLen (m : CustImage) : Nat := m.num 0x014 4
def CustImage.entry (m : CustImage) : Nat := m.num 0x018 4
def CustImage.keyId (m : CustImage) : Nat := m.num 0x01C 1
def CustImage.target (m : CustImage) : Nat := m.num 0x01D 1
def CustImage.signature (m : CustImage) : List Byte := m.part 0x080 0x60
/-- The body: the code, then the initialised data. -/
def CustImage.body (m : CustImage) : List Byte := m.part 0x100 (m.codeLen + m.dataLen)
/-- What the signature covers. -/
def CustImage.signed (m : CustImage) : List Byte := m.part 0 0x80 ++ m.body

end Sys2Proof

namespace Sys2Proof.Machine

/-- The core as a requester: CC2 is core 2, CC3 core 3 of the four control cores. -/
def custReq (c : CustCore) : Requester := .core ⟨c.val + 2, by omega⟩

/-- Address of a register of a customer core's block. -/
def ccReg (c : Nat) (off : Nat) : Nat := ctlCc + 0x100 * c + off

/-! ### Start (R470, R471, R491) -/

/-- The image in the slot in use. -/
def CustomerCore.image (x : CustomerCore) : Option CustImage := if x.useB then x.slotB else x.slotA

/-- Check 0x2: MAGIC, FORMAT and the reserved fields; the image holds its header and its body (R470). -/
def headerOk (m : CustImage) : Bool :=
  m.num 0x000 4 == 0x43464B57 && m.num 0x004 2 == 1
    && [(0x006, 2), (0x01E, 2), (0x020, 0x60), (0x0E0, 0x20)].all (fun r => (m.part r.1 r.2).all (· == 0))
    && decide (0x100 + m.codeLen + m.dataLen ≤ m.bytes.length)

/-- Check 0x3: the key KEY_ID is enrolled for core c, and the signature verifies against it. -/
def keyOk (pm : PartMap) (c : Nat) (m : CustImage) : Bool :=
  decide (m.keyId < 2) && match (tblGet [] pm.ccKeys c)[m.keyId]? with
    | some key => signatureVerifies key m.signed m.signature
    | none => false

/-- Check 0x6. -/
def targetOk (c : Nat) (m : CustImage) : Bool := m.target == c + 2 || m.target == 0xFF

/-- LOAD_ERR of an image on core c, 0 for none (R471). -/
def State.loadErr (s : State) (c : Nat) (i : Option CustImage) : Nat :=
  match i with
  | none => 1
  | some m =>
    if !headerOk m then 2
    else if !keyOk s.map c m then 3
    else if m.version < tblGet 0 s.map.ccMinVer c then 4
    else if s.cmemBytes c < m.codeLen + m.dataLen + m.bssLen ∨ s.cmemBytes c ≤ m.entry then 5
    else if !targetOk c m then 6
    else 0

/-- The drops core c serves that have a record. -/
def State.served (s : State) (c : Nat) : List Nat := (s.drops.map (·.1)).filter fun g => s.servedBy g == some c

/-- A memory of zeros with bytes copied to offset 0, in the table's canonical form. -/
def memoryOf (l : List Byte) : Tbl Byte := l.zipIdx.filterMap fun x => if x.1 = 0 then none else some (x.2, x.1)

/-- A byte of customer memory. -/
def CustomerCore.byte (x : CustomerCore) (off : Nat) : Byte := tblGet 0 x.mem off

/-- Customer memory after a start: zeroed, with the image's code and data at offset 0 (R471). -/
def imageMemory (m : CustImage) : Tbl Byte := memoryOf m.body

/-- The fallback image areas are zeroed; no publication counts any more (R471, R475). SUPPLYING tells of the last K (R479). -/
def FbArea.cleared (f : FbArea) : FbArea := { overCnt := f.overCnt, supplying := f.supplying }

/-- A start runs (R471): with a failing check VERIFY_FAIL; else memory is zeroed, code and data are copied to it, the pair's banks are
invalid, and the core begins at ENTRY in supervisor mode with every private MASK and IMASK 1. -/
def State.startCore (s : State) (c : Nat) : State :=
  let x := s.cust c
  let e := s.loadErr c x.image
  if e ≠ 0 then s.onCust c fun x => { x with state := .verifyFail, loadErr := e, task := false }
  else
    let s := s.onCust c fun x =>
      { x with state := .running, loadErr := 0, task := false, imgVer := BitVec.ofNat 32 ((x.image.map (·.version)).getD 0), wdogTick := s.tick,
               wdogHalf := false, mem := (x.image.map imageMemory).getD [], began := (x.image.map (·.entry)).getD 0 }
    let s := (s.served c).foldl (fun s g => s.onDrop g fun d => { d with fb := d.fb.cleared }) s
    let s := s.onPair (8 + c) fun b => { b with bankA := [], bankB := [] }
    s.onEvcCore (c + 2) fun e =>
      ({ e with imask := true, priv := (List.range 64).foldl (fun t n => tblSet {} t n { tblGet {} t n with mask := true }) e.priv } : EvcCore).settle

/-- A start by any of R471's occasions. After an activation a failing start falls back to the previous slot, once (R491). -/
def State.beginCore (s : State) (c : Nat) : State :=
  let s := (s.onCust c fun x => { x with startDue := false, restartAt := none }).startCore c
  if (s.cust c).state == .verifyFail && (s.cust c).activatedTick.isSome then
    (s.onCust c fun x => { x with useB := !x.useB, activatedTick := none }).startCore c
  else s

/-- CORE_START: a start that has been decided is carried out. A CMEM of 0 disables the core (R467). -/
def execCoreStart (c : CustCore) (s : State) : Res :=
  if !(s.cust c).startDue || s.cmemBytes c == 0 || (s.boot.phase != .starting && s.boot.phase != .running) then .next s
  else .next (s.beginCore c)

/-- A write of CC_CTRL.RUN: 1 decides a start, of a core that runs too (log entry 61); 0 holds it in reset (R471, R472, R479). -/
def State.setRun (s : State) (c : Nat) (run : Bool) : State :=
  s.onCust c fun x =>
    if !run then { x with run := false, state := .stopped, task := false, startDue := false, restartAt := none }
    else { x with run := true, startDue := s.cmemBytes c != 0, restartAt := none }

/-! ### Modes (R468) -/

/-- GO: a running core enters task mode. -/
def CustomerCore.go (x : CustomerCore) (v : W32) : CustomerCore := if v.getLsbD 0 && x.state == .running then { x with task := true } else x

/-- CC_TASK_GO. -/
def execCcTaskGo (c : CustCore) (v : W32) (s : State) : Res :=
  s.access (custReq c) .write false true (ccReg c 0x24) v fun s => .next (s.onCust c fun x => x.go v)

/-- Kind of an access as R442 codes it. -/
def TaskAccess.acc (x : TaskAccess) : AccKind :=
  if x.kind = 0 then .read else if x.kind = 1 then .write else if x.kind = 2 then .fetch else .locked

/-- TASK_EXIT: the core is back in supervisor mode, and the cause is recorded. A bus error is that of an access, in any space, that the task's
rules refuse (R426, R437, R441); one to a register of the control space has taken the core out of task mode with the access itself. -/
def execTaskExit (c : CustCore) (cause : TaskCause) (s : State) : Res :=
  if !(s.cust c).task then .next s
  else
    match cause with
    | .interrupt => .next (s.onCust c fun x => { x with task := false, taskCause := 1 })
    | .supervisorCall => .next (s.onCust c fun x => { x with task := false, taskCause := 2 })
    | .busError x =>
      let k := TaskAccess.acc x
      if s.guardOk (custReq c) k x.space.toNat x.addr.toNat 0 then .next s
      else .next ((s.violation (8 + c) false false k x.space.toNat (s.reqCode (custReq c)) x.addr.toNat).busError (custReq c) x.addr.toNat)

/-! ### Watchdog (R472) -/

/-- WDOG_MS of a core, 1,000 by default. -/
def State.wdogMs (s : State) (c : Nat) : Nat := tblGet 1000 s.map.ccWdogMs c

/-- The watchdog of a running core starts anew. -/
def CustomerCore.kick (x : CustomerCore) (tick : Nat) (v : W32) : CustomerCore :=
  if v.getLsbD 31 && x.state == .running then { x with wdogTick := tick, wdogHalf := false } else x

/-- KICK: a write of CC_WDOG. -/
def execKick (c : CustCore) (v : W32) (s : State) : Res :=
  s.access (custReq c) .write false true (ccReg c 0x2C) v fun s => .next (s.onCust c fun x => x.kick s.tick v)

/-- WATCHDOG_HALF: private source 7. -/
def execWatchdogHalf (c : CustCore) (s : State) : Res :=
  let x := s.cust c
  if x.state != .running || x.wdogHalf || !s.past x.wdogTick (ticksOfMs (s.wdogMs c) / 2) then .next s
  else .next ((s.onCust c fun x => { x with wdogHalf := true }).signalPriv (c.val + 2) 7)

/-- The core gives up; within 600 s of an activation it starts from its previous slot instead, once (R472, R491). -/
def State.giveUp (s : State) (c : Nat) : State :=
  let back := ((s.cust c).activatedTick.map fun t => !s.past t (ticksOfS 600)).getD false
  s.onCust c fun x =>
    if back then { x with state := .gaveUp, restartAt := none, useB := !x.useB, activatedTick := none, startDue := true }
    else { x with state := .gaveUp, restartAt := none }

/-- WATCHDOG_EXPIRY: the core is held in reset, the expiry goes to the trace buffer (log entry 38); the fourth within 600 s is the last. -/
def execWatchdogExpiry (c : CustCore) (s : State) : Res :=
  let x := s.cust c
  if x.state != .running || !s.past x.wdogTick (ticksOfMs (s.wdogMs c)) then .next s
  else
    let l := (s.tick :: x.expiries).filter fun t => decide (s.tick ≤ t + ticksOfS 600)
    let s := s.traceRec { type := 3, cls := 2, index := 0x12 + c.val, threshHit := false, time := s.now, count := 1, detail := 0, window := 0, part := 0 }
    let s := s.onCust c fun x => { x with state := .stopped, task := false, expiries := l, restartAt := some (s.tick + ticksOfMs 10) }
    .next (if 4 ≤ l.length then s.giveUp c else s)

/-- CUSTOMER_RESTART: 10 ms after the expiry. -/
def execCustomerRestart (c : CustCore) (s : State) : Res :=
  match (s.cust c).restartAt with
  | none => .next s
  | some t =>
    if s.tick < t then .next s
    else .next ((s.onCust c fun x => { x with restarts := satInc x.restarts }).beginCore c)

/-! ### Publications (R474) -/

/-- A publication of a drop by core c: ignored for a drop of another, counted while one is queued. -/
def State.publish (s : State) (c g : Nat) : State :=
  if s.servedBy g != some c then s
  else (s.composeDue [g]).onDrop g fun d =>
    if d.fb.queued then { d with fb := { d.fb with overCnt := satInc d.fb.overCnt } }
    else { d with fb := { d.fb with queued := true, queuedTick := s.tick } }

/-- CC_FB_PUBLISH. -/
def execCcFbPublish (c : CustCore) (v : W32) (s : State) : Res :=
  s.access (custReq c) .write false true (ccReg c 0x64) v fun s => .next (s.publish c (field v.toNat 10 0))

/-! ### Timers (R469, R479) -/

def CustomerCore.timer (x : CustomerCore) (n : Nat) : CcTimer := tblGet {} x.timers n
def CustomerCore.onTimer (x : CustomerCore) (n : Nat) (f : CcTimer → CcTimer) : CustomerCore :=
  { x with timers := tblSet {} x.timers n (f (x.timer n)) }

/-- CC_TIMER: unit time has reached CC_TMRn of an enabled timer. -/
def execCcTimer (c : CustCore) (n : Fin 4) (s : State) : Res :=
  let x := s.cust c
  if !x.tmrEn.getLsbD n || decide (s.now < (x.timer n).cmp.toNat) then .next s
  else .next ((s.onCust c fun x => { x with tmrEn := x.tmrEn &&& ~~~(BitVec.ofNat 4 (2 ^ n.val)) }).signalPriv (c.val + 2) n)

/-- CMP takes a new low half and a written high half together. -/
def CcTimer.writeLo (t : CcTimer) (v : W32) : CcTimer := { t with cmp := (t.hiPending.getD (t.cmp.extractLsb' 32 32)) ++ v, hiPending := none }

/-- CC_TMR_LO_WRITE. -/
def execCcTmrLoWrite (c : CustCore) (n : Fin 4) (v : W32) (s : State) : Res :=
  s.access (custReq c) .write false true (ccReg c (0x30 + 8 * n)) v fun s => .next (s.onCust c fun x => x.onTimer n (·.writeLo v))

/-- CC_TMR_LO_READ: the upper half is latched for the requester. -/
def execCcTmrLoRead (who : Requester) (c : CustCore) (n : Fin 4) (s : State) : Res :=
  s.access who .read false true (ccReg c (0x30 + 8 * n)) 0 fun s =>
    let a := ((s.cust c).timer n).cmp
    .next ((s.onCust c fun x => x.onTimer n fun t => { t with hiLatch := tblSet 0 t.hiLatch (latchOf who) (a.extractLsb' 32 32) }).emit
      (.regData who (a.extractLsb' 0 32)))

end Sys2Proof.Machine
end

