-- ==== Sys2Proof/Machine/Decoder.lean ====
section
/-! DEFINITION. The decode engine at work (R272, R274, R277–R288): pictures decoded, frames made available, pauses and upsets. -/

namespace Sys2Proof.Machine

/-- Codec clocks in a tick of 10 ns, at 1.2 GHz (R9). -/
def codecClocks (ticks : Nat) : Nat := 12 * ticks

/-- The cores that work on the stream's next picture: all of a row-split group, core n mod k of an interleaved one (R272). -/
def Stream.workers (x : Stream) : List Nat :=
  if x.coreList.length ≤ 1 || x.lowDelay then x.coreList else [x.coreList.getD (x.pictures % x.coreList.length) 0]

/-- The profile of a bitstream lies within the created one (R264, R267). -/
def Stream.profileOk (x : Stream) (profile : Nat) : Bool :=
  if x.codec = 1 then profile == 2 || (profile == 1 && x.profile == 1)
  else if x.codec = 2 then profile == 1 || (profile == 2 && x.profile == 2)
  else profile == 1

/-- The chroma format is one the codec's profiles have (R264). -/
def Stream.chromaOk (x : Stream) (chroma : Nat) : Bool := chroma == 1 || (chroma == 0 && x.codec != 2)

/-- FAIL_REASON of what a stream cannot conceal: its headers held against the created parameters, whatever level they signal (R267, R288, log
entry 106). -/
def Stream.failure (x : Stream) (i : PictureInfo) : Option Nat :=
  if i.errors.contains .unsupported || !x.profileOk i.profile then some 0x01
  else if i.errors.contains .operatingPoint || !x.chromaOk i.chroma || decide (x.maxW < i.width) || decide (x.maxH < i.height)
      || decide (x.depth < i.depth) then some 0x02
  else if x.dpb < i.framesNeeded then some 0x03
  else none

/-- Damaged blocks, which are concealed (R285, R286). -/
def damagedBlocks (l : List StreamError) : List Nat :=
  l.foldl (fun d e => match e with
    | .syntaxDamage b => b.foldl insertAsc d
    | .truncated b => b.foldl insertAsc d
    | _ => d) []

def isConcealing (e : StreamError) : Bool :=
  match e with
  | .syntaxDamage _ => true
  | .truncated _ => true
  | _ => false

/-! ### The order of pictures on a core (R273, R280) -/

/-- A frame period P in ns × 2 × MAX_FPS. -/
def periodUnits : Nat := 2 * 10 ^ 12

/-- S of the next picture, in ns × 2 × MAX_FPS. -/
def Stream.headS (x : Stream) : Option Nat := x.queue.head?.map fun u => max (u.doneNs * (2 * x.maxFps)) x.nextS

/-- A picture's own period: P, or half of it for a field (R280). -/
def pictureUnits (field : Bool) : Nat := if field then periodUnits / 2 else periodUnits

/-- From S to the bound: k periods of the picture in a picture-interleaved group, else one; a retry adds a frame time (R274, R280). -/
def Stream.boundUnits (x : Stream) (field : Bool) : Nat :=
  (if 1 < x.coreList.length ∧ x.lowDelay = false then x.coreList.length else 1) * pictureUnits field
    + (x.queue.head?.map (·.retries)).getD 0 * periodUnits

/-- The next picture's bound less the 100 µs that every bound has, as a fraction of ns (R280). -/
def Stream.deadline (x : Stream) (field : Bool) : Option (Nat × Nat) := x.headS.map fun t => (t + x.boundUnits field, 2 * x.maxFps)

/-- Since when the stream's next picture can be worked on, in ns: its S, and the end of the picture before it. -/
def Stream.startable (x : Stream) : Option Nat := x.headS.map fun t => max (ceilDiv t (2 * x.maxFps)) x.readyNs

/-- The next picture's time on its core has not come, or a picture of another stream on the core that has an earlier deadline could be worked on
for longer than this picture's core time and goes first (R273, log entry 107). Another stream's next picture counts as a field if its last one was
(log entry 130). -/
def State.outranked (s : State) (slot : Nat) (x : Stream) (ticks : Nat) (field : Bool) : Bool :=
  !(x.startable.any fun t => decide (t ≤ s.now)) || s.streams.any fun e =>
    e.1 != slot && e.2.state == .running && !e.2.paused && e.2.coreList.any x.coreList.contains
      && ((e.2.deadline e.2.lastField).any fun a => (x.deadline field).any fun b => decide (a.1 * b.2 < b.1 * a.2))
      && e.2.startable.any fun t => decide (t + 10 * ticks < s.now)

/-! ### Frames (R278, R282, R283, R286, R287) -/

/-- A frame becomes available; LATE where the pass of a layer it feeds has begun for an instant at or after its PTS (R284). -/
def State.makeAvailable (s : State) (slot : Nat) (f : Frame) : State :=
  match s.stream slot with
  | none => s
  | some x =>
    let late := (s.feeds x).any fun e => e.1.any fun t => decide (f.pts ≤ t)
    s.onStream slot fun x =>
      { x with avail := x.avail ++ [{ f with availTick := s.tick }], late := if late then satInc x.late else x.late, lastAvailPts := f.pts,
               lastAvailTime := s.now, lastW := f.width, lastH := f.height, lastDepth := f.depth }

/-- The next access unit leaves the input buffer. -/
def State.popUnit (s : State) (slot : Nat) : State :=
  s.onStream slot fun x => { x with queue := x.queue.drop 1, inUsed := x.inUsed - (x.queue.head?.map (·.bytes)).getD 0 }

/-- END_OF_STREAM: every frame held for output becomes available, the status source signals, and what follows decodes afresh (R279). -/
def State.drainStream (s : State) (slot : Nat) : State :=
  let held := ((s.stream slot).map (·.heldForEos)).getD []
  let s := held.foldl (fun s f => s.makeAvailable slot f) s
  (s.onStream slot fun x => { x with heldForEos := [], needRap := true }).signal (2048 + 2 * slot)

/-- Decoded out of the order the host declared, held against the pictures before it in the coded sequence (R281). -/
def State.checkOrder (s : State) (slot : Nat) (x : Stream) (pts : Nat) (fresh : Bool) : State :=
  let prev := if fresh then none else x.maxPtsSeen
  let bad := x.lowDelay && (prev.map fun t => decide (pts < t)).getD false
  let s := s.onStream slot fun x =>
    { x with maxPtsSeen := some (max pts (prev.getD 0)), reorder := if bad then satInc x.reorder else x.reorder }
  if bad then s.signal (2049 + 2 * slot) else s

/-- The frames that layers show and passes read. -/
def State.shownFrames (s : State) : List Frame :=
  s.drops.flatMap (fun e => e.2.lastFrames.map (·.2) ++ e.2.passes.flatMap fun p => p.frames.map (·.2))
    ++ s.canvases.flatMap fun c => c.2.lastFrames.map (·.2)

/-- The frames of a stream that something holds (R283). -/
def State.heldFrames (s : State) (slot : Nat) (x : Stream) : List Frame :=
  x.refs ++ x.avail ++ x.heldForEos ++ s.shownFrames.filter fun f => f.slot == slot && decide (x.firstUid ≤ f.uid)

/-- The concealment source: of the whole frames held, the one decoded last (R286). -/
def State.concealSource (s : State) (slot : Nat) (x : Stream) : Option Frame :=
  ((s.heldFrames slot x).filter fun f => x.fieldOpen.all fun o => o.frame.uid != f.uid).foldl (fun a f =>
    match a with
    | none => some f
    | some b => if b.uid < f.uid then some f else some b) none

/-- What the marks and the concealment of a frame come from: its references by number, its damaged blocks (of a field those of the top and of the bottom
one), a missing reference, whether damage marks it CONCEALED, whether it is a random access point. -/
structure Damage where
  refs : List Nat
  blocks : List Nat
  bottom : Option (List Nat)
  missing : Bool
  concealed : Bool
  rap : Bool
  deriving DecidableEq, Repr

/-- Some block of the frame is damaged. -/
def Damage.any (d : Damage) : Bool := !d.blocks.isEmpty || d.bottom.any fun l => !l.isEmpty

def Damage.ofUnit (i : PictureInfo) : Damage :=
  let l := damagedBlocks i.errors
  { refs := i.refs, blocks := if i.field.isSome && i.bottom then [] else l,
    bottom := if i.field.isSome then some (if i.bottom then l else []) else none, missing := i.errors.contains .missingReference, concealed := i.errors.any isConcealing,
    rap := i.randomAccess }

def Damage.ofHidden (h : HiddenFrame) : Damage :=
  { refs := h.refs, blocks := h.damaged.foldl insertAsc [], bottom := none, missing := h.missing, concealed := !h.damaged.isEmpty, rap := false }

/-- A frame over its concealment source where it has damage or lacks a reference; a reference marked CONCEALED or TAINTED marks it TAINTED (R278,
R282, R285–R287). k is its place in the access unit. -/
def State.newFrame (s : State) (slot : Nat) (x : Stream) (u : AccessUnit) (i : PictureInfo) (k : Nat) (d : Damage) : Frame :=
  let source := if !d.any && !d.missing then [] else ((s.concealSource slot x).map (·.pictures)).getD []
  let tainted := d.missing || (!d.rap && (s.heldFrames slot x).any fun f =>
    decide (x.startUid ≤ f.uid) && d.refs.contains f.n && (f.concealed || f.tainted))
  { uid := s.nextId, slot := slot, n := x.frames, codec := x.codec, op := x.op, grain := !bitOf x.flags 2,
    pictures := { coded := x.coded, frame := k, damaged := d.blocks, bottom := d.bottom, width := i.width, height := i.height, depth := i.depth } :: source, pts := u.pts, width := i.width, height := i.height,
    depth := i.depth, mono := i.chroma == 0, colour := ColourInfo.resolve i.colour x.colourDefault, concealed := d.concealed, tainted := tainted,
    chosen := false, availTick := 0 }

/-- A second field woven into the frame of the first (R265, R278): PTS and number are the first's. -/
def Frame.weave (f g : Frame) : Frame :=
  let own := match f.pictures, g.pictures with
    | a :: _, b :: _ => [{ b with damaged := b.damaged.foldl insertAsc a.damaged, bottom := some ((b.bottom.getD []).foldl insertAsc (a.bottom.getD [])) }]
    | _, _ => []
  { f with pictures := own ++ (if (f.pictures.drop 1).isEmpty then g.pictures else f.pictures).drop 1,
           concealed := f.concealed || g.concealed, tainted := f.tainted || g.tainted }

/-- CONCEAL_HOLD keeps a frame back: a marked one, and all after it up to a clean random access point (R287). -/
def Stream.holdsBack (x : Stream) (f : Frame) (rap : Bool) : Bool := bitOf x.flags 1 && (f.concealed || f.tainted || (x.taint && !rap))

/-- A whole frame: its counters; it waits for its output unless CONCEAL_HOLD keeps it back (R283, R286, R287). -/
def State.finishFrame (s : State) (slot : Nat) (f : Frame) (output rap : Bool) : State :=
  s.onStream slot fun x =>
    let holding := x.holdsBack f rap
    { x with decoded := satInc x.decoded, concealed := if f.concealed then satInc x.concealed else x.concealed,
             cblocks := satAdd x.cblocks ((f.pictures.head?.map fun p => p.damaged.length + (p.bottom.getD []).length).getD 0),
             taintedCnt := if f.tainted then satInc x.taintedCnt else x.taintedCnt, taint := holding,
             frames := x.frames + 1, heldForEos := if output && !holding then x.heldForEos ++ [f] else x.heldForEos }

/-- A frame of which only one field came is whole. -/
def State.closeField (s : State) (slot : Nat) : State :=
  match (s.stream slot).bind (·.fieldOpen) with
  | some f => (s.onStream slot fun x => { x with fieldOpen := none }).finishFrame slot f.frame f.output f.rap
  | none => s

/-- What the standard marks for output becomes available; references hold what it says, of the frames so far and the new one (R283). -/
def State.markOutput (s : State) (slot : Nat) (new : Option Frame) (i : PictureInfo) : State :=
  let held := ((s.stream slot).map (·.heldForEos)).getD []
  let out := i.outputs.filterMap fun n => held.find? fun g => g.n == n
  let s := s.onStream slot fun x =>
    { x with heldForEos := held.filter fun g => !i.outputs.contains g.n, refs := (x.refs.filter fun g => new.all fun f => g.n != f.n) ++ new.toList }
  (out.foldl (fun s g => s.makeAvailable slot g) s).onStream slot fun x => x.letGo fun g => i.refsAfter.contains g.n

/-- A frame of an AV1 temporal unit that is not shown is decoded: references can hold it (R283). -/
def State.storeHidden (s : State) (slot : Nat) (u : AccessUnit) (i : PictureInfo) (k : Nat) (h : HiddenFrame) : State :=
  match s.stream slot with
  | none => s
  | some x =>
    let g := s.newFrame slot x u i k (.ofHidden h)
    (s.newId.2.finishFrame slot g false false).onStream slot fun x => { x with refs := x.refs ++ [g] }

/-- show_existing_frame: the frame of this number awaits its output with the PTS of the unit that shows it (R283, log entry 131). -/
def State.showExisting (s : State) (slot : Nat) (u : AccessUnit) (n : Nat) : State :=
  s.onStream slot fun x =>
    match x.refs.find? fun f => f.n == n with
    | some f => if x.holdsBack f false then x else { x with heldForEos := x.heldForEos ++ [{ f with pts := u.pts, chosen := false }] }
    | none => x

/-- A decoded picture: a frame, the first field of one, the field that completes one, or the frames of an AV1 temporal unit (R276, R283, R286,
R287). fresh: it begins a coded sequence. -/
def State.storeFrame (s : State) (slot : Nat) (u : AccessUnit) (i : PictureInfo) (fresh : Bool) : State :=
  let s := i.hidden.zipIdx.foldl (fun s h => s.storeHidden slot u i h.2 h.1) s
  match s.stream slot with
  | none => s
  | some x =>
    let g := s.newFrame slot x u i i.hidden.length (.ofUnit i)
    match i.field, x.fieldOpen, i.existing with
    | some true, some f, _ =>
      let w := f.frame.weave g
      (((s.checkOrder slot x u.pts fresh).onStream slot fun x => { x with fieldOpen := none }).finishFrame slot w f.output (f.rap || i.randomAccess)).markOutput slot (some w) i
    | some false, _, _ =>
      let s := (s.newId.2).checkOrder slot x u.pts fresh
      s.onStream slot fun x => { x with fieldOpen := some { frame := g, output := i.forOutput, rap := i.randomAccess }, refs := x.refs ++ [g] }
    | _, _, some n => ((s.checkOrder slot x u.pts fresh).showExisting slot u n).markOutput slot none i
    | _, _, _ =>
      let s := (s.newId.2).checkOrder slot x u.pts fresh
      (s.finishFrame slot g i.forOutput i.randomAccess).markOutput slot (some g) i

/-- An access unit is skipped (R277, R285). -/
def State.skipUnit (s : State) (slot : Nat) : State := s.onStream slot fun x => { x with skipped := satInc x.skipped }

/-- Decoding starts afresh: references go (R277, R279). -/
def Stream.restart (x : Stream) (u : AccessUnit) : Stream := if u.discontinuity then { x with needRap := true }.letGo fun _ => false else x

/-- The parameter sets a unit carries: an invalid one stands until a valid one arrives (R285). -/
def Stream.takeSets (x : Stream) (i : PictureInfo) : Stream :=
  let bad := i.errors.filterMap fun e => match e with
    | .badParameterSet n => some n
    | _ => none
  { x with badSets := (bad.foldl insertAsc x.badSets).filter fun n => !i.setsValid.contains n }

/-- A picture that the random access point which starts decoding leaves undecodable: it stays skippable up to the next random access point, or to
the recovery point (R277). -/
def Stream.leads (x : Stream) (i : PictureInfo) : Bool :=
  (x.needRap && i.randomAccess) || (x.leading && (!i.randomAccess || i.leadingSkipped))

/-- The unit is skipped: before the random access point, led by it, or referring to an invalid parameter set (R277, R285). -/
def Stream.skips (x : Stream) (i : PictureInfo) : Bool := (x.needRap && !i.randomAccess) || (x.leads i && i.leadingSkipped)

/-- The access unit joins what the pictures after it are decoded from. -/
def Stream.take (x : Stream) (u : AccessUnit) (i : PictureInfo) (skipped : Bool) (source : Option Nat) : Stream :=
  let d := Damage.ofUnit i
  { x with coded := { data := u.data, restart := u.discontinuity, skipped := skipped, damaged := damagedBlocks i.errors, missing := d.missing, hidden := i.hidden,
                        source := source } :: x.coded,
           needRap := x.needRap && !i.randomAccess, leading := x.leads i,
           pictures := if skipped then x.pictures else x.pictures + 1 }

/-- The errors of R285 in a unit: those of its picture, and of each hidden frame its damage and its missing reference. -/
def unitErrorCount (i : PictureInfo) : Nat :=
  i.errors.length + sumNat (i.hidden.map fun h => b2n (!h.damaged.isEmpty) + b2n h.missing)

/-- A unit that fails its stream by its headers alone has an error of R285 of its own: a limit or tool exceeded. -/
def failureErrors (i : PictureInfo) : Nat :=
  unitErrorCount i + (if i.errors.contains .unsupported || i.errors.contains .operatingPoint then 0 else 1)

/-- n errors of R285. -/
def State.streamErrors (s : State) (slot n : Nat) : State := (List.range n).foldl (fun s _ => s.streamError slot) s

/-- A unit is decoded by the stream's cores (R272, R285, R286). -/
def State.decodePicture (s : State) (slot : Nat) (x : Stream) (u : AccessUnit) (i : PictureInfo) : State :=
  let s : State := x.workers.foldl (fun s n => s.onCore n fun c => { c with busy := c.busy + codecClocks i.pictureTicks }) s
  let d := Damage.ofUnit i
  let hurt := d.any || d.missing || i.hidden.any fun h => !h.damaged.isEmpty || h.missing
  let source := if hurt then (s.concealSource slot x).map (·.n) else none
  let s := s.onStream slot fun x => (x.takeSets i).take u i false source
  if i.setsUsed.any ((x.takeSets i).badSets.contains ·) then s.skipUnit slot
  else if i.errors.contains .lostPicture then s
  else s.storeFrame slot u i (x.needRap || i.sequenceStart)

/-- The work on one access unit. Its headers are checked whether or not it is skipped (R267), and its errors count (R285, R288). -/
def State.workUnit (s : State) (slot : Nat) (u : AccessUnit) (i : PictureInfo) : State :=
  let s := if i.field = some true then s else s.closeField slot
  let s := s.onStream slot fun x => x.restart u
  match s.stream slot with
  | none => s
  | some x =>
    if u.readFailed then s.unitErrors slot true
    else
      match x.failure i with
      | some reason => (s.streamErrors slot (failureErrors i)).failStream slot reason
      | none =>
        let s := s.streamErrors slot (unitErrorCount i)
        let s := if x.skips i then (s.onStream slot fun x => (x.takeSets i).take u i true none).skipUnit slot else s.decodePicture slot x u i
        s.unitErrors slot (unitErrorCount i != 0)

/-- No buffer is free: the frames held fill the references' and the output's (R268, R283, log entry 108). -/
def State.streamFull (s : State) (slot : Nat) (x : Stream) : Bool :=
  decide (x.dpb + x.outFrames ≤ ((s.heldFrames slot x).map (·.uid)).dedup.length)

/-- The next picture's S comes one period, or after a field half a period, after this one's (R280). -/
def Stream.pace (x : Stream) (field : Bool) (now : Nat) : Stream :=
  { x with nextS := (x.headS.getD x.nextS) + pictureUnits field, readyNs := now, lastField := field }

/-- PICTURE_DECODED: the stream's next access unit has been worked on. -/
def execPictureDecoded (slot : StreamSlot) (info : PictureInfo) (s : State) : Res :=
  match s.stream slot with
  | none => .next s
  | some x =>
    match x.queue with
    | [] => .next s
    | u :: _ =>
      if x.state ≠ .running || x.paused || s.outranked slot x info.pictureTicks info.field.isSome then .next s
      else
        let now := s.now
        let s := ((((s.composeFirst x.part).onStream slot fun x => x.pace info.field.isSome now).popUnit slot).workUnit slot u info)
        let running := ((s.stream slot).map fun y => y.state == .running).getD false
        let s := if u.endOfStream && running then (s.closeField slot).drainStream slot else s
        let s := s.releaseFrames slot
        .next (s.onStream slot fun y => { y with paused := s.streamFull slot y })

/-- STREAM_PAUSE_END. -/
def execStreamPauseEnd (slot : StreamSlot) (s : State) : Res :=
  let now := s.now
  let s := s.releaseFrames slot
  .next (s.onStream slot fun x =>
    let p := x.paused && s.streamFull slot x
    { x with paused := p, readyNs := if x.paused && !p then now else x.readyNs })

/-- The place in the queue of the picture that core n works on: of an interleaved group each core has its own (R272). -/
def Stream.pictureOn (x : Stream) (n : Nat) : Nat :=
  let k := x.coreList.length
  if k ≤ 1 ∨ x.lowDelay = true then 0 else ((firstIdx (· == n) x.coreList).getD 0 + k - x.pictures % k) % k

/-- CORE_UPSET: the picture is decoded again, within the retry count; each upset counts in the core's window (R274, R450, R452). -/
def execCoreUpset (n : CodecCore) (slot : StreamSlot) (s : State) : Res :=
  match s.stream slot with
  | none => .next s
  | some x =>
    let j := x.pictureOn n
    if x.state ≠ .running || x.queue.length ≤ j || !x.coreList.contains n.val then .next s
    else
      let s := s.onCore n fun c => { c with upsets := satInc c.upsets }
      let s := s.countError 2 n slot
      match s.stream slot with
      | none => .next s
      | some x =>
        if x.state ≠ .running then .next s
        else if ((x.queue.drop j).head?.map (·.retries)).getD 0 < s.flt.retryCore then
          .next (((s.onStream slot fun y => { y with queue := y.queue.zipIdx.map fun u =>
            if u.2 = j then { u.1 with retries := u.1.retries + 1 } else u.1 }).onCore n fun c =>
              { c with retries := satInc c.retries }).traceRetry 2 n)
        else .next (s.failStream slot 0x06)

end Sys2Proof.Machine
end

