-- ==== Sys2Proof/Machine/EvcCmd.lean ====
section
/-! DEFINITION. The event controller's registers and timers (R403, R406–R416, R420, R421). -/

namespace Sys2Proof.Machine

/-- DOORBELL: an arrival of a shared or a private source. -/
def execDoorbell (who : Requester) (v : W32) (s : State) : Res :=
  s.access who .write false true ctlEvc v fun s =>
    let n := field v.toNat 11 0
    .next (if v.getLsbD 31 then s.strike (.priv (field v.toNat 29 28) n) else if n < 3072 then s.strike (.shared n) else s)

/-- HOLDOFF_EXPIRY: every pending unmasked source of the group outside its own delivery window is committed at once (R409). -/
def execHoldoffExpiry (grp : GroupId) (s : State) : Res :=
  let g := s.group grp
  match g.expiry with
  | none => .next s
  | some t =>
    if s.tick < t then .next s
    else
      let s := s.setGroup grp { g with expiry := none }
      .next ((List.range 32).foldl (fun s k =>
        let n := 32 * grp.val + k
        let x := s.source n
        if x.pending && !x.mask && x.window.isNone then s.commit n else s) s)

/-! ### Delivery windows (R410, R413, R414, R416) -/

/-- The distinct close instants that have been reached, in order. -/
def State.closes (s : State) : List Nat :=
  (((s.evc.sources.filterMap fun e => e.2.window.map (·.1)).filter fun t => decide (t ≤ s.tick)).foldl insertAsc [])

/-- Delivered sources whose windows have closed; the core's interrupt is asserted for them if IMASK is 0 (R414). -/
def EvcCore.ripen (e : EvcCore) (l : List Nat) : EvcCore :=
  ({ e with ripe := (l.filter e.delivered.contains).foldl insertAsc e.ripe } : EvcCore).settle

/-- The windows of one burst close: one MSI-X write for each vector, in ascending order of the lowest source it carries, one assertion
for each core, the functions of one link in turns; an arming made inside a window takes effect now. -/
def State.closeBurst (s : State) (t : Nat) : State :=
  let burst := s.evc.sources.filterMap fun e => e.2.window.bind fun w => if w.1 = t then some (e.1, w.2) else none
  let s := burst.foldl (fun s b => s.setSource b.1 { s.source b.1 with window := none }) s
  let again := (s.evc.sources.map (·.1)).filter fun n => (burst.any fun b => b.1 == n) && (s.source n).pending && !(s.source n).mask
  let targets := (burst.map (·.2)).foldl (fun (l : List Target) x => if l.contains x then l else l ++ [x]) []
  let s := s.fairly (targets.foldl (fun s x =>
    match x with
    | .vector p v => s.deliverVector p v
    | .core c => s.onEvcCore c fun e => e.ripen ((burst.filter fun b => b.2 == .core c).map (·.1))) s)
  again.foldl (fun s n => s.arm n) s

/-- The private windows of a core that have closed: the interrupt falls due for a source whose delivered bit is set, whether or not its next arrival
opens a window at once (R413, R414). -/
def EvcCore.closePrivate (e : EvcCore) (tick : Nat) : EvcCore :=
  let due := (e.priv.filter fun x => (x.2.window.map fun t => decide (t ≤ tick)).getD false).map (·.1)
  if due.isEmpty then e
  else
    let e := due.foldl (fun e n =>
      let x := tblGet {} e.priv n
      let e : EvcCore := { e with priv := tblSet {} e.priv n { x with window := none, ripe := x.delivered } }
      if x.pending && !x.mask then e.privCommit tick n else e) e
    e.settle

/-- DELIVERY_WINDOW_CLOSE. -/
def execDeliveryWindowClose (s : State) : Res :=
  let s := s.closes.foldl (fun s t => s.closeBurst t) s
  .next ((List.range 4).foldl (fun s c => s.onEvcCore c fun e => e.closePrivate s.tick) s)

/-! ### Masks, targets, counters (R405–R407, R411, R412, R420, R421) -/

/-- A write of MASK; to 0 while PENDING is 1 it acts as an arrival for arming (R407). -/
def State.maskWrite (s : State) (n : Nat) (mask : Bool) : State :=
  let s := s.setSource n { s.source n with mask := mask }
  if !mask && (s.source n).pending then s.arm n else s

/-- A write of EVC_SRC_CFG by a partition: VECTOR, then MASK, of the selected source where it owns it (R402, R405). -/
def State.srcCfgWrite (s : State) (p : Nat) (v : W32) : State :=
  let n := (s.part p).evcSel.toNat
  if s.sourceOwner n != some p then s
  else
    let r := s.route n
    let s := if r.tkind then s else s.setSource n { s.source n with route := some { r with vector := field v.toNat 7 0 } }
    s.maskWrite n (v.getLsbD 30)

/-- A write of EVC_ROUTE by vendor firmware: target, then MASK; a partition-owned source keeps its partition (R405, R421). -/
def State.routeWrite (s : State) (v : W32) : State :=
  let n := s.evc.routeSel.toNat
  if 3072 ≤ n then s
  else
    let r : Route := { tkind := v.getLsbD 30, core := field v.toNat 29 28, part := (s.sourceOwner n).getD (field v.toNat 10 8),
                       vector := field v.toNat 7 0 }
    let s := s.setSource n { s.source n with route := some r }
    s.maskWrite n (v.getLsbD 31)

/-- MASK stands in EVC_SRC_CFG for a partition and in EVC_ROUTE for vendor firmware. -/
def State.evcWrite (s : State) (who : Requester) (v : W32) : Res :=
  match who with
  | .host p => s.barWrite p fun s => .next (s.srcCfgWrite p v)
  | _ => s.access who .write false true (ctlEvc + 8) v fun s => .next (s.routeWrite v)

def execEvcMaskWrite (who : Requester) (v : W32) (s : State) : Res := s.evcWrite who v

def execEvcVectorWrite (p : PartId) (v : W32) (s : State) : Res := s.barWrite p fun s => .next (s.srcCfgWrite p v)

def execEvcRouteWrite (who : Requester) (v : W32) (s : State) : Res :=
  s.access who .write false true (ctlEvc + 8) v fun s => .next (s.routeWrite v)

/-- N leaves an arrival counter (R406). -/
def ackCount (count : Byte) (v : W32) : Byte := count - BitVec.ofNat 8 (min (field v.toNat 7 0) count.toNat)

/-- EVC_SRC_ACK. -/
def execEvcSrcAck (p : PartId) (v : W32) (s : State) : Res :=
  s.barWrite p fun s =>
    let n := (s.part p).evcSel.toNat
    if s.sourceOwner n != some p.val then .next s
    else .next (s.setSource n { s.source n with count := ackCount (s.source n).count v, saturated := false })

/-- EVC_GRP_HOLDOFF_WRITE: a partition writes its own unit group while it has selected one of its sources, vendor firmware any group. -/
def execEvcGrpHoldoffWrite (who : Requester) (grp : GroupId) (v : W32) (s : State) : Res :=
  let set := fun (s : State) => Host.Outcome.next (s.setGroup grp { s.group grp with holdoff := v.extractLsb' 0 16 })
  match who with
  | .host p => s.barWrite p fun s => if groupOf (s.part p).evcSel.toNat = 88 + p ∧ grp.val = 88 + p then set s else .next s
  | _ => s.access who .write false true (ctlEvc + 0x10 + 4 * grp) v set

/-! ### Control cores (R414, R415, R421) -/

/-- The delivered source a claim takes, private ones first: its CLAIM word and the bank without it. -/
def EvcCore.claim (e : EvcCore) : W32 × EvcCore :=
  match e.priv.find? fun x => x.2.delivered with
  | some x => (BitVec.ofNat 32 (2 ^ 31 + 2 ^ 12 + x.1), { e with priv := tblSet {} e.priv x.1 { x.2 with delivered := false, ripe := false } })
  | none =>
    match e.delivered with
    | n :: rest => (BitVec.ofNat 32 (2 ^ 31 + n), { e with delivered := rest, ripe := e.ripe.filter (· != n) })
    | [] => (0, e)

/-- EVC_CORE_CLAIM. -/
def execEvcCoreClaim (who : Requester) (c : CtlCore) (s : State) : Res :=
  s.access who .read false true (ctlEvc + 0x200 + 32 * c) 0 fun s =>
    let k := (s.evcCore c).claim
    .next ((s.onEvcCore c fun _ => k.2.settle).emit (.regData who k.1))

/-- EVC_IMASK_WRITE. -/
def execEvcImaskWrite (who : Requester) (c : CtlCore) (v : W32) (s : State) : Res :=
  s.access who .write false true (ctlEvc + 0x204 + 32 * c) v fun s =>
    .next (s.onEvcCore c fun e => { e with imask := v.getLsbD 0 }.settle)

/-- EVC_PCNT_WRITE: of the private source that PCNT_SEL shows. -/
def execEvcPcntWrite (who : Requester) (c : CtlCore) (v : W32) (s : State) : Res :=
  s.access who .write false true (ctlEvc + 0x21C + 32 * c) v fun s =>
    .next (s.onEvcCore c fun e =>
      let n := e.cntSel.toNat
      let x := tblGet {} e.priv n
      { e with priv := tblSet {} e.priv n { x with count := ackCount x.count v, saturated := false } })

end Sys2Proof.Machine
end

