-- ==== Sys2Proof/Machine/GuardCmd.lean ====
section
/-! DEFINITION. GUARD_WRITE, GUARD_SWAP and GUARD_QUERY (R425, R429–R432, R436). -/

namespace Sys2Proof.Machine

/-- The 16-byte entry at PARAM 0x10. -/
def guardEntry (e : BitVec 512) : BitVec 128 := BitVec.ofNat 128 (entryField e 0x10 0 128)
def guardValid (e : BitVec 512) : Bool := (guardEntry e).getLsbD 5

/-- Bits [5:0] of the second QWord are reserved in a VALID entry; a load with VALID 0 is never refused (R429). -/
def guardLayout (e : BitVec 512) : List (Nat × Nat) :=
  if guardValid e then [(bitPos 0x10 0, 64), (bitPos 0x18 6, 58)] else [(bitPos 0x10 0, 128)]

def guardChecks (e : BitVec 512) : List (Bool × Nat) :=
  let x := guardEntry e
  let v := guardValid e
  [objectCheck e 0 127, (v && x.getLsbD 2, bitPos 0x10 2), (v && decide (field x.toNat 4 3 < 2), bitPos 0x10 3),
   (v && decide (field x.toNat 127 70 < field x.toNat 63 6), bitPos 0x18 6)]

/-- Every drop a Colant-space region covers belongs to the partition (R430). -/
def State.regionOwned (s : State) (p : Nat) (g : GuardRegion) : Bool :=
  g.space != 2 || (decide (g.last < 2 ^ 36) && (natRange (g.base / 2 ^ 25) (g.last / 2 ^ 25)).all (s.owns p))

/-- Another VALID entry of a bank that a region overlaps (R429). -/
def bankOverlap (t : Tbl (BitVec 128)) (k : Nat) (g : GuardRegion) : Option Nat :=
  ((regionsOf t).find? fun x => x.1 != k && x.2.meets g).map (·.1)

/-- Load an entry into the inactive bank; one with VALID 0 clears it. -/
def BankPair.load (b : BankPair) (k : Nat) (x : BitVec 128) : BankPair :=
  b.setInactive (if x.getLsbD 5 then tblPut b.inactive k x else tblErase b.inactive k)

def execGuardWrite (p : PartId) (r : RingId) (s : State) : Res :=
  match s.turn p r 0x68 with
  | none => .next s
  | some e0 =>
    ringCmd s p r 0x68 false (guardLayout e0) guardChecks fun s e =>
      let k := entryObject e
      let load := s.onPair p fun b => b.load k (guardEntry e)
      match regionOf (guardEntry e) with
      | none => .reply (replyOk 0) load
      | some g =>
        checked s [failIf (!s.regionOwned p g) replyNotOwner,
                   (bankOverlap (s.pair p).inactive k g).map fun o => replyConflict typeGuard 1 o]
          (.reply (replyOk 0) load)

def execGuardSwap (p : PartId) (r : RingId) (s : State) : Res :=
  ringCmd s p r 0x69 false [] (fun e => [objectCheck e 0 0]) fun s _ =>
    let s := s.swapPair p true
    .reply (replyOk (s.pair p).epoch.toNat) s

/-- The command a guest waits with. -/
def GuestWait.cmd : GuestWait → GuestCmd
  | .read c _ | .posted c | .room c | .semaphore c => c

/-- The guest commands of partition p that wait for their answers. -/
def State.guestCmds (s : State) (p : Nat) : List GuestCmd :=
  (List.range 64).filterMap fun i => (s.seg i).tenure.bind fun t => if t.part = p then t.wait.map (·.cmd) else none

/-- A hardware block's access that the guard has decided when it was queued (R423). -/
def TxFor.checked : TxFor → Bool
  | .telemetry | .qdelay => true
  | _ => false

/-- The epochs under which a pair's accesses in flight were checked: bridge items, posted guest writes and waiting guest commands of a
partition; of pair 10 the service port's access and the telemetry reads and DD_QDELAY writes that wait or are on the wires. The other accesses of
the cores and blocks end in the step that makes them (R435, R436). -/
def State.flightEpochs (s : State) (n : Nat) : List W32 :=
  if n < 8 then (s.bridge n).items.map (·.epoch) ++ (s.bridge n).guestPosted.map (·.epoch) ++ (s.guestCmds n).map (·.epoch)
  else if n = 10 then
    (if s.plant.svcBusy then [s.plant.svcEpoch] else []) ++ s.segs.flatMap fun x =>
      ((x.2.hk.filter fun h => h.who.checked).map (·.epoch)) ++ ((x.2.tx.toList.filter fun t => t.who.checked).map (·.epoch))
  else []

/-- Accesses in flight under an epoch other than the present one (R436). -/
def State.oldInFlight (s : State) (n : Nat) : Nat := min 0xFFFF ((s.flightEpochs n).filter fun e => e != (s.pair n).epoch).length

/-- GRD_DRAIN and GRD_CAP_STAT. -/
def State.drainWord (s : State) (n : Nat) : Nat :=
  packFields [(s.oldInFlight n, 0), (b2n (s.oldInFlight n == 0), 31)]
def Capture.word (c : Capture) : Nat :=
  packFields [(c.count.toNat, 0), (c.req.toNat, 16), (c.space.toNat, 24), (c.kind.toNat, 27), (b2n c.level, 29), (b2n c.partialAcc, 30),
    (b2n c.valid, 31)]

def State.guardRecord (s : State) (p : Nat) : List Byte :=
  let b := s.pair p
  recordBytes ([b.epoch.toNat, s.drainWord p + b2n b.activeB * 2 ^ 16,
    packFields [((regionsOf b.active).length, 0), ((regionsOf b.inactive).length, 8)], b.cap.word] ++ qword b.cap.addr.toNat
    ++ [b.cap.time.toNat, b.cap.epoch.toNat] ++ List.replicate 8 0)

def execGuardQuery (p : PartId) (r : RingId) (s : State) : Res :=
  ringCmd s p r 0x6A false [(bitPos 0x10 0, 64), (bitPos 0x18 0, 1)] (fun e => [objectCheck e 0 0, recordCheck e]) fun s e =>
    let t := s.writeRecord p (entryField e 0x10 0 64) (s.guardRecord p)
    .reply (replyOk 0) (if entryField e 0x18 0 1 = 1 then t.clearCapture p else t)

end Sys2Proof.Machine
end

