-- ==== Sys2Proof/WellFormed.lean ====
section
/-! DEFINITION. What a command's operands must satisfy to be a command that can arrive at all. Bounds of single indices stand in the
operand types; what is checked here are lengths, byte enables and the shape of words received. -/

namespace Sys2Proof

/-- Odd parity over the data bits and the four tag bits (R76). -/
def ColWord.ones (w : ColWord) : Nat :=
  ((List.range 16).filter (fun i => w.data.getLsbD i)).length
    + w.c.toNat + w.p.toNat + w.f.toNat + w.rsv.toNat

/-- A PCI Express memory request of n DWords: its byte enables (a one-DWord request has no last enables). -/
def enablesOk (n : Nat) (firstBE lastBE : BitVec 4) : Bool :=
  if n = 1 then decide (lastBE = 0) else decide (firstBE ≠ 0) && decide (lastBE ≠ 0)

/-- An image carries exactly its pixels and one of the two formats (R300, R478). -/
def Image.sized (i : Image) : Bool :=
  decide (i.pixels.length = i.width * i.height) && (i.format == 1 || i.format == 2)
    && decide (1 ≤ i.width) && decide (i.width ≤ 8192) && decide (1 ≤ i.height) && decide (i.height ≤ 8192)

/-- A command that can arrive. -/
def Instr.wellFormed : Instr → Bool
  -- payload of at most 512 bytes (R117)
  | .hostWrite _ _ data fbe lbe => decide (1 ≤ data.length) && decide (data.length ≤ 128) && enablesOk data.length fbe lbe
  -- a read of at most 4,096 bytes (R117, R191); the zero-length read has its own row
  | .hostRead _ _ n fbe lbe _ => decide (1 ≤ n) && decide (n ≤ 1024) && enablesOk n fbe lbe && !(n == 1 && fbe == 0)
  | .zeroLengthRead .. => true
  -- FetchAdd and Swap of 4 or 8 bytes, CAS of 4, 8 or 16, aligned to their size (R127)
  | .atomicOp _ _ off k n _ _ _ =>
    (n == 4 || n == 8 || (n == 16 && k == .cas)) && decide (off.toNat % n = 0)
  -- one command reads at most its data's whole length: an access unit or a full image (R167, R301)
  | .dmaReadCompletion _ (.data b) => decide (1 ≤ b.length)
  | .dmaReadCompletion .. => true
  | .guestReadCompletion _ (.data b) => decide (b.length ≤ 128)
  | .guestReadCompletion .. => true
  -- the access carries at least one DWord; a host's address is a DWord's in its 64 KiB BAR0 (R121, R123)
  | .registerWrite (.host _) acc => decide (1 ≤ acc.data.length) && decide (acc.addr.toNat < 65536) && decide (acc.addr.toNat % 4 = 0)
  | .registerWrite _ acc => decide (1 ≤ acc.data.length)
  -- each drop number at most once, in ascending order (R112)
  | .segmentEnumeration _ fs => (fs.map (fun f => f.number.val)).Pairwise (· < ·)
  | .negotiation _ a => decide (a.measures.length ≤ 16)
  | .colantResponse _ a => decide (1 ≤ a.words.length)
  | .guestCommand _ ws => decide (1 ≤ ws.length)
  -- 1 to 64 words, data for a write (R81, R487)
  | .segAccess _ a => decide (1 ≤ a.len) && decide (a.len ≤ 64) && (!a.isWrite || decide (a.data.length = a.len))
  | .pageWrite _ i => i.sized
  | .powerGrantPeriod r d => decide (r.length = 6) && decide (d.length = 6)
  | .powerFailWarning .. | .mainsRestored | .dcRegulationLoss | .mainsCycle .. | .psuLimitChange .. | .thermalWarning ..
  | .thermalTrip .. | .thermalRestart .. | .fanFailure .. | .memoryError .. | .vendorCoreRestart .. | .vendorCoreRunning .. => true
  | .poisonedWrite .. | .linkReset .. | .partitionReady .. | .functionLevelReset .. | .linkDegraded .. | .d3hotEntry ..
  | .d0Return .. | .pmeResend .. | .pmeTurnOff .. | .aspmL1Entry .. | .busMasterEnableSet .. | .msixUnmask .. => true
  | .sqTailDoorbell .. | .cqHeadDoorbell .. | .sqFetchRetry .. | .adminRingEnable .. | .heartbeat .. | .heartbeatLapse .. => true
  | .openSession .. | .closeSession .. | .handback .. | .ringCreate .. | .ringDelete .. | .admissionQuery .. => true
  | .streamCreate .. | .streamStart .. | .streamFeed .. | .streamFeedSpace .. | .streamStop .. | .streamDestroy ..
  | .streamQuery .. | .dropQuery .. | .dropRestore .. | .dropRestoreEnd .. => true
  | .imageCreate .. | .imageWrite .. | .imageDestroy .. | .layerSet .. | .surfaceSet .. | .surfaceQuery .. | .canvasCreate ..
  | .canvasDestroy .. | .commandReadEnd .. => true
  | .windowCreate .. | .windowSet .. | .windowEnable .. | .windowDisable .. | .windowDrained .. | .windowDestroy ..
  | .writeFence .. | .writeFenceHolds .. => true
  | .calWrite .. | .calDiscard .. | .calCommit .. | .gateListCreate .. | .gateListWrite .. | .gateListStart ..
  | .gateListStop .. | .gateListDestroy .. | .shaperCreate .. | .shaperSet .. | .shaperDestroy .. => true
  | .guardWrite .. | .guardSwap .. | .guardQuery .. => true
  | .timebaseTick | .ptpMessage .. | .ppsEdge .. | .referenceLoss | .srcWrite .. | .tbRateWrite .. | .stepGo .. | .stepApply
  | .ppsOut | .tbTimeLoRead .. | .pathDelayRemeasure .. => true
  | .segmentReset .. | .negotiationFailWait .. | .dropRenewal .. | .colantTimeout .. | .attnAsserted .. | .pollRound ..
  | .statReceived .. | .strayAttention .. | .stuckAttn .. | .noAnswerReset .. | .cycleStart .. | .calendarSwap ..
  | .linkHoldWindow .. | .slotStart .. | .whistle .. | .grant .. | .guestPostedEntry .. | .holdCeiling .. | .guestReturn ..
  | .tenureEnd .. | .sync .. | .presentationInstant .. | .arbitrationPhase .. | .wheelBucket .. | .keepaliveOverdue .. => true
  | .schArbFreeze .. | .schArbClassWrite .. | .schArbLeashWrite .. | .schArbTenureWrite .. => true
  | .gateBaseReached .. | .gateEntryDue .. | .gateBaseLoRead .. | .gateNextLoRead .. => true
  | .composeInstant .. | .composePassEnd .. | .composeLate .. | .waferJobStart .. | .waferJobEnd .. | .waferLate ..
  | .wafDropRefresh .. | .pictureDecoded .. | .streamPauseEnd .. | .coreUpset .. => true
  | .stale .. | .prefetchExpiry .. | .claim .. | .release .. | .semaphoreExpiry .. | .brgJrnAckWrite .. => true
  | .doorbell .. | .holdoffExpiry .. | .deliveryWindowClose | .evcMaskWrite .. | .evcVectorWrite .. | .evcSrcAck ..
  | .evcGrpHoldoffWrite .. | .evcRouteWrite .. | .evcCoreClaim .. | .evcImaskWrite .. | .evcPcntWrite .. => true
  | .grdEntrySelWrite .. | .grdEntryLoad .. | .grdBankSwap .. | .grdCapClear .. | .grdCapAddrLoRead .. | .grdSegEnWrite .. => true
  | .stickyClear .. | .fltFirstLoRead .. | .bucketStart .. | .coalesceIntervalEnd .. | .segmentRestore .. | .coreRestore ..
  | .fltLogCfgEn .. | .fltLogHeadWrite .. => true
  | .crcReport .. | .thumbnailDue .. | .captureResponse .. | .chunkResponse .. | .thumbnailEncoded .. | .telemetryDue ..
  | .telemetryResponse .. | .rtvRingCfgEn .. | .rtvRingHeadWrite .. | .rtvDropCfgWrite .. => true
  | .coreStart .. | .ccTaskGo .. | .taskExit .. | .kick .. | .watchdogHalf .. | .watchdogExpiry .. | .customerRestart ..
  | .ccFbPublish .. | .ccTimer .. | .ccTmrLoWrite .. | .ccTmrLoRead .. => true
  | .dcGood .. | .startUpComplete | .bootCalendarInstall .. | .standbyPageCopy | .trialTimeout | .trialEnd => true
  | .mapWrite .. | .mapRead | .mapFactory | .mapCapture | .fwWrite .. | .fwActivate | .fwCommit .. | .ccWrite .. | .ccActivate ..
  | .calLoad .. | .calRevert .. | .restartCold | .restartWarm | .segReset .. | .coreRun .. | .flt .. | .trace | .store => true
  | .attnReleased .. | .powerFailWarningClear | .thermalWarningClear .. | .dhcpAnswer .. | .dhcpRequestTimer .. | .leaseLost ..
  | .arpIcmpEchoRequest .. | .servicePortClient .. => true

end Sys2Proof
end

