-- ==== Sys2Proof/Machine/Service.lean ====
section
/-! DEFINITION. The operations of the service port (R487): the partition map (R23, R116, R401, R478, R484, R486, R493), vendor firmware (R489,
R490), customer images (R491), calibration sets (R492, R512), standby pages (R478), restarts (R480), segment resets (R458) and accesses
(R250), the fault collector's contents (R446, R462, R463). -/

namespace Sys2Proof.Machine

/-! ### Answers -/

def State.svcOk (s : State) : State := s.emit (.service .ok [])
/-- REFUSED, with the rule that the request breaks. -/
def State.svcRefused (s : State) (rule : Nat) : State := s.emit (.service .refused [rule])
def State.svcVerify (s : State) : State := s.emit (.service .verify [])

/-- One operation at a time, and only for an accepted client. -/
def State.svc (s : State) (f : State → State) : Res :=
  if !s.powered || !s.plant.svcClient then .next s
  else if s.plant.svcBusy then .next (s.emit (.service .busy []))
  else .next (f s)

/-! ### The partition map -/

/-- The fields lie in the ranges of the rules that give them: R23, R28, R45, R116, R121, R221, R329, R401, R408, R467, R470, R472, R473, R478. -/
def mapRanged (m : PartMap) : Bool :=
  m.portMode.all (fun x => decide (x.1 < 4) && decide (x.2 ≤ 2))
    && m.owner.all (fun x => decide (x.1 ≤ x.2.1) && decide (x.2.1 < 2048) && decide (x.2.2 < 8))
    && m.cycle.all (fun x => decide (x.1 < 64) && within x.2.1 1000 49001 && decide (x.2.2.1 < x.2.1) && within x.2.2.2 25 76)
    && m.bootCal.all (fun x => decide (x.1 < 64) && tblRising x.2 && x.2.all fun e => decide (e.1 < 512))
    && m.bar2Log2.all (fun x => decide (x.1 < 8) && within x.2 28 7)
    && m.waferLimit.all (fun x => decide (x.1 < 2048) && decide (x.2 ≤ 2))
    && m.segRoute.all (fun x => decide (x.1 < 64) && decide (x.2.1 < 8) && decide (x.2.2 < 256))
    && m.holdoff.all (fun x => decide (x.1 < 88) && decide (x.2 < 65536))
    && m.page.all (fun x => decide (x.1 < 2048) && decide (x.2.toNat ≤ 0x100))
    && m.cmemMiB.all (fun x => decide (x.1 < 2) && decide (x.2 % 64 = 0) && decide (x.2 ≤ 1024))
    && m.ccKeys.all (fun x => decide (x.1 < 2) && decide (x.2.length ≤ 2))
    && m.ccWdogMs.all (fun x => decide (x.1 < 2) && within x.2 10 9991)
    && m.assigned.all (fun x => decide (x.1 < 2048) && decide (x.2 < 2))
    && decide (m.timing.prefixLen ≤ 32) && decide (m.servicePort.prefixLen ≤ 32)

/-- A partition that its port's mode leaves absent owns a drop or has a ceiling (R116). -/
def mapAbsent (m : PartMap) : Bool :=
  m.owner.any (fun x => !m.hasPart x.2.2)
    || (m.ceilDecode ++ m.ceilDram ++ m.ceilPower).any fun x => x.2 != 0 && !m.hasPart x.1

/-- A segment's sources are routed to a partition without a drop on it (R401). -/
def mapBadRoute (m : PartMap) : Bool :=
  m.segRoute.any fun x => !(List.range 32).any fun n => m.ownerOf (x.1 * 32 + n) == some x.2.1

/-- A page breaks the ratio limits on a drop with recorded dimensions (R478). -/
def State.pageBad (s : State) (g : Nat) (i : Image) : Bool :=
  let d := s.drop g
  d.desc.isSome && (fallbackPage d.width d.height).fitBad i.width i.height

def State.mapBadPage (s : State) (m : PartMap) : Bool :=
  m.page.any fun x => (tblFind s.boot.library x.2.toNat).any fun i => s.pageBad x.1 i

/-- S of a segment under a map (R222). -/
def mapCycleS (m : PartMap) (i : Nat) : Nat :=
  let c := m.cycleOf i
  c.1 * 120 - c.2.2 * 120 - 6 - ceilDiv (c.1 * 120) 50000

/-- An entry that CAL_WRITE would refuse, or a control slot with a shaper (R228, R484). -/
def State.bootEntryBad (s : State) (m : PartMap) (i k : Nat) (w : W64) : Bool :=
  let x := entrySlot k w
  let g := i * 32 + x.drop
  let p := if x.kind = 4 then x.part else (m.ownerOf g).getD 8
  w.toNat % 16 != 0 || (slotFaults x p (mapCycleS m i)).any (·.1) || (x.kind == 3 && x.shaper != 0)
    || (x.kind != 0 && s.dropState g == .retired)

def State.mapBadBoot (s : State) (m : PartMap) : Bool := m.bootCal.any fun b => b.2.any fun e => s.bootEntryBad m b.1 e.1 e.2

/-- The rule a map breaks, if any. -/
def State.mapRefusal (s : State) (m : PartMap) : Option Nat :=
  if mapAbsent m then some 116
  else if mapBadRoute m then some 401
  else if s.mapBadPage m then some 478
  else if s.mapBadBoot m then some 484
  else none

/-- The older copy is overwritten (R493). -/
def Boot.writeMap (b : Boot) (m : PartMap) : Boot := { b with older := b.stored, olderBad := b.storedBad, stored := m, storedBad := false }

/-- A map goes to flash if nothing speaks against it. -/
def State.putMap (s : State) (m : PartMap) : State :=
  match s.mapRefusal m with
  | some r => s.svcRefused r
  | none => (s.onBoot fun b => b.writeMap m).svcOk

def execMapWrite (m : PartMap) (formatOk : Bool) (s : State) : Res :=
  s.svc fun s => if !formatOk || !mapRanged m then s.svcVerify else s.putMap m

def execMapRead (s : State) : Res := s.svc fun s => s.svcOk.emit (.serviceMap s.boot.stored)

def execMapFactory (s : State) : Res := s.svc fun s => s.putMap PartMap.factory

/-- MAP_CAPTURE: each segment's active calendar, its Whistle entries apart, becomes its boot calendar. -/
def execMapCapture (s : State) : Res :=
  s.svc fun s =>
    let cals := ((List.range 64).map fun i => (i, bareCalendar (s.seg i).calendar)).filter fun x => !x.2.isEmpty
    s.putMap { s.boot.stored with bootCal := cals }

/-! ### Vendor firmware (R489, R490) -/

/-- FW_WRITE into the slot not in use. A write that a power-fail warning cuts leaves the slot BAD (R489, log entry 39). -/
def execFwWrite (img : FwImage) (s : State) : Res :=
  s.svc fun s =>
    let slot := !s.boot.useB
    let ok := s.boot.verifies img && !s.plant.warn
    let s := s.onBoot fun b =>
      let b := b.setSlot slot (if ok then .good else .bad)
      if slot then { b with imgB := img } else { b with imgA := img }
    if ok then s.svcOk else s.svcVerify

/-- FW_ACTIVATE: the slot not in use, which must be GOOD, is in trial, and the unit restarts. -/
def execFwActivate (s : State) : Res :=
  s.svc fun s =>
    let slot := !s.boot.useB
    if s.boot.slot slot ≠ .good then s.svcRefused 489
    else ((s.onBoot fun b => b.setSlot slot .trial).svcOk).warmRestart

/-- FW_COMMIT ends a trial; a separate one with FUSE gives the fuses the version in use (R490). -/
def execFwCommit (fuse : Bool) (s : State) : Res :=
  s.svc fun s =>
    if s.inTrial then s.endTrial.svcOk
    else if fuse then (s.onBoot fun b => { b with fuse := max b.fuse (b.img b.useB).version }).svcOk
    else s.svcOk

/-! ### Customer images (R491) -/

def execCcWrite (c : CustCore) (img : CustImage) (s : State) : Res :=
  s.svc fun s =>
    if !headerOk img || !keyOk s.map c img || !targetOk c img || s.plant.warn then s.svcVerify
    else (s.onCust c fun x => if x.useB then { x with slotA := some img } else { x with slotB := some img }).svcOk

/-- CC_ACTIVATE: the core starts again from the other slot. -/
def execCcActivate (c : CustCore) (s : State) : Res :=
  s.svc fun s =>
    if s.cmemBytes c = 0 then s.svcRefused 467
    else ((s.onCust c fun x =>
      { x with useB := !x.useB, activatedTick := some s.tick, run := true, state := .stopped, task := false, startDue := true,
               restartAt := none }).svcOk)

/-- CORE_RUN writes CC_CTRL.RUN. -/
def execCoreRun (c : CustCore) (run : Bool) (s : State) : Res :=
  s.svc fun s => (s.setRun c run).svcOk

/-! ### Calibration (R492, R512) -/

def calCols (w : Nat) : Nat := (w - 1) / 16 + 2

/-- The layout of R512: the length each part has, reserved bits 0, gains of at most 4,095; one-channel rows 1 and 2 hold zeros. -/
def calLayoutOk (c : CalSet) : Bool :=
  let nc := if c.chan then 3 else 1
  c.reservedZero && c.matrix.length == 9 && c.matrix.all (fun x => decide (-32768 ≤ x) && decide (x ≤ 32767))
    && (c.chan || (c.matrix.drop 3).all fun x => x == 0)
    && c.oetf.length == nc && c.oetf.all (fun t => t.length == 1025 && t.all fun x => decide (x < 65536))
    && c.gains.length == nc * calCols c.width * calCols c.height && c.gains.all fun x => decide (x ≤ 4095)

/-- The set's three fields are the drop's, as last enumerated (R316). -/
def Drop.calMatches (d : Drop) (c : CalSet) : Bool :=
  d.desc.isSome && c.width == d.width && c.height == d.height && c.chan == (d.chan == 3)

/-- A set becomes the one in force in flash; it takes effect at the next compose instant (R325). -/
def Drop.loadCal (d : Drop) (c : Option CalSet) : Drop := { d with calPrev := some (d.calNext.getD d.calNow), calNext := some c }

/-- CAL LOAD of a set with the CRC-32 that came with it over the layout of R512 (R328). -/
def execCalLoad (g : DropId) (w : CalWrite) (s : State) : Res :=
  s.svc fun s =>
    if !(s.drop g).calMatches w.set then s.svcRefused 492
    else if !calLayoutOk w.set then s.svcVerify
    else if s.plant.warn then s.svcRefused 40
    else if w.crc != crc32 (calBytes w.set) then s.svcVerify
    else ((s.composeDue [g.val]).onDrop g fun d => d.loadCal (some w.set)).svcOk

def execCalRevert (g : DropId) (s : State) : Res :=
  s.svc fun s =>
    match (s.drop g).calPrev with
    | none => s.svcRefused 492
    | some c => ((s.composeDue [g.val]).onDrop g fun d => d.loadCal c).svcOk

/-! ### Standby pages (R478) -/

/-- Bytes of a library: 4 for a pixel. -/
def libraryBytes (t : Tbl Image) : Nat := sumNat (t.map fun e => 4 * e.2.width * e.2.height)

def execPageWrite (i : Fin 256) (page : Image) (s : State) : Res :=
  s.svc fun s =>
    let lib := tblPut s.boot.library i page
    if !page.sized || decide (7 < page.colour) then s.svcVerify
    else if 256 * 2 ^ 20 < libraryBytes lib ∨ (s.map.page.any fun x => x.2.toNat == i.val && s.pageBad x.1 page) then s.svcRefused 478
    else (s.onBoot fun b => { b with library := lib, copyDue := true }).svcOk

/-! ### Restarts and segments (R458, R480, R487) -/

def execRestartCold (s : State) : Res := s.svc fun s => s.svcOk.powerDown

def execRestartWarm (s : State) : Res := s.svc fun s => s.svcOk.warmRestart

def execSegReset (i : SegId) (s : State) : Res :=
  s.svc fun s => if (s.seg i).retired then s.svcRefused 454 else (s.onSeg i fun x => { x with resetDue := true }).svcOk

/-- A word that the guard refuses to the service port (R423, R426, R487). -/
def State.svcRefusedWord (s : State) (g : Nat) (acc : SegAccess) : Option Nat :=
  let k : AccKind := if acc.isWrite then .write else .read
  ((List.range acc.len).map fun n => colantAddr (g / 32) (g % 32) ((acc.addr.toNat + n) % 2 ^ 24)).find? fun a =>
    match (s.pair 10).find 2 a with
    | some e => !e.2.covers k
    | none => false

/-- SEG_ACCESS: one RD, WR, RDB or WRB as an EMG request; its answer ends the operation. -/
def execSegAccess (g : DropId) (acc : SegAccess) (s : State) : Res :=
  s.svc fun s =>
    let i := g.val / 32
    if !(s.seg i).clk ∨ (s.seg i).retired = true ∨ (s.drop g).state = .retired then s.svcRefused 453
    else
      match s.svcRefusedWord g acc with
      | some a => (s.violation 10 (s.splitAt g acc.addr.toNat acc.len) false (if acc.isWrite then .write else .read) 2 0x18 a).svcRefused 426
      | none =>
        let op := if acc.isWrite then (if acc.len = 1 then opWr else opWrb) else if acc.len = 1 then opRd else opRdb
        (s.onPlant fun x => { x with svcBusy := true, svcEpoch := (s.pair 10).epoch }).queueHk i
          { who := .service, drop := g.val % 32, op := op, addr := acc.addr.toNat, len := acc.len, data := acc.data, emg := true }

/-! ### Faults, trace, store (R446, R462, R463) -/

/-- A clear of the trace leaves TRACE_HEAD and TRACE_WRAP (log entry 148). -/
def execFlt (op : FltOp) (s : State) : Res :=
  s.svc fun s =>
    match op with
    | .read i =>
      let x := s.faultRec i
      s.emit (.service .ok ([b2n x.sticky, b2n x.live, x.rep.toNat] ++ qword x.firstTime.toNat ++ [x.firstDetail.toNat]))
    | .clear i => (s.clearFault i).svcOk
    | .clearTrace => (s.onFlt fun f => { f with trace := [] }).svcOk
    | .clearStore => (s.onFlt fun f => { f with store := [], storeRestored := false }).svcOk

def execTrace (s : State) : Res := s.svc fun s => s.svcOk.emit (.serviceRecords s.flt.trace)

def execStore (s : State) : Res := s.svc fun s => s.svcOk.emit (.serviceRecords s.flt.store)

end Sys2Proof.Machine
end

