-- ==== Sys2Proof/Machine/RegRead.lean ====
section
/-! DEFINITION. What every register reads (R67–R69, R136–R140, R176–R179, R201, R215–R220, R257–R263, R291, R327, R328, R358, R377, R398, R420,
R421, R442, R443, R465, R466, R479, R508–R511). A register of 32 bits reads as a natural below 2^32; reserved bits and unlisted offsets
read as 0. -/

namespace Sys2Proof.Machine

/-- The low and the high half of a QWord. -/
def lo32 (x : Nat) : Nat := x % 2 ^ 32
def hi32 (x : Nat) : Nat := x / 2 ^ 32 % 2 ^ 32
def halfWord (hi : Bool) (x : Nat) : Nat := if hi then hi32 x else lo32 x

/-- 32 bits of a map: bit b is f b. -/
def bitMap (f : Nat → Bool) : Nat := sumNat ((List.range 32).map fun b => if f b then 2 ^ b else 0)

/-! ### HST and doorbells (R136–R140, R176–R179) -/

/-- A pending vector that is masked counts in HELD too (log entry 159). -/
def State.hstReg (s : State) (p off : Nat) : Nat :=
  let x := s.part p
  match off with
  | 0x00 => packFields [(0x6432, 16), (Config.siliconRev.toNat, 8), (Config.boardRev.toNat, 0)]
  | 0x04 => packFields [(b2n (tblGet false s.map.tbWr p), 12), (s.map.mode (p / 2), 8), (p % 2, 6), (p / 2, 4), (p, 0)]
  | 0x08 => packFields [(x.downCnt.toNat, 24), (b2n x.degraded, 16), (x.width.toNat, 4), (x.speed.toNat, 0)]
  | 0x0C =>
    let held := !x.held.isEmpty || (!x.dmaOk && x.vectors.any fun v => v.2.pending)
    packFields [(x.pmeSent.toNat, 16), (b2n held, 8), (b2n x.pmeEn, 2), (if x.dstate = .d3hot then 3 else 0, 0)]
  | 0x10 => x.hstErr.toNat
  | 0x20 => lo32 x.admSq.toNat
  | 0x24 => hi32 x.admSq.toNat
  | 0x28 => lo32 x.admCq.toNat
  | 0x2C => hi32 x.admCq.toNat
  | 0x30 => packFields [(b2n x.admEn, 31), (x.admCqLog2, 8), (x.admSqLog2, 0)]
  | 0x34 => packFields ((List.range 16).map fun i => ((s.ring p i).state.code, 2 * i))
  | 0x38 => x.dbErr.toNat
  | 0x40 => packFields [(x.sessNum.toNat, 8), (x.level, 4), (x.session.code, 0)]
  | _ => 0

def State.doorbellReg (s : State) (p off : Nat) : Nat :=
  let r := s.ring p (off / 8)
  if 0x80 ≤ off then 0 else if off % 8 = 0 then r.sqTail else r.cqHead

/-! ### TB (R56, R67–R69); l is the reader's latch -/

def State.tbReg (s : State) (l off : Nat) : Nat :=
  let t := s.tb
  match off with
  | 0x00 => packFields [(b2n t.stepEn, 4), (t.src.toNat, 0)]
  | 0x04 => packFields [(t.ppsReject.toNat, 16), (b2n t.taiValid, 4), (b2n t.ppsPresent, 3), (b2n t.ptpPresent, 2), (t.state.code, 0)]
  | 0x08 => lo32 s.now
  | 0x0C => (tblGet 0 t.hiLatch l).toNat
  | 0x10 => t.rate.toNat
  | 0x14 => t.offset.toNat
  | 0x18 => t.stepLo.toNat
  | 0x1C => t.stepHi.toNat
  | 0x20 => packFields [(t.domain.toNat, 8), (t.transport.toNat, 6), (t.delayReqLog.toNat, 0)]
  | 0x24 => packFields [(t.ppsInDelay.toNat, 16), (b2n t.ppsOutEn, 1), (b2n t.ppsInTerm, 0)]
  | 0x28 => packFields [(b2n t.utcValid, 16), (t.utcOffset.toNat, 0)]
  | _ => 0

/-! ### EVC, partition view (R420) -/

/-- The layout of EVC_SRC_STAT. -/
def Source.stat (x : Source) : Nat :=
  packFields [(b2n x.pending, 31), (b2n x.window.isSome, 30), (b2n x.saturated, 29), (x.count.toNat, 0)]

def State.evcReg (s : State) (p off : Nat) : Nat :=
  let n := (s.part p).evcSel.toNat
  let x := s.source n
  let own := s.sourceOwner n == some p
  match off with
  | 0x00 => n
  | 0x04 =>
    if !own then 0
    else
      let r := s.route n
      packFields [(1, 31), (b2n x.mask, 30), (b2n r.tkind, 29), (if r.tkind then r.core else 0, 8), (r.vector, 0)]
  | 0x08 => if own then x.stat else 0
  | 0x10 => if own then packFields [(b2n (groupOf n == 88 + p), 31), ((s.group (groupOf n)).holdoff.toNat, 0)] else 0
  | 0x14 =>
    match (if own then (s.group (groupOf n)).expiry else none) with
    | some t => packFields [(1, 31), (min 0xFFFF (ceilDiv (t - s.tick) 10), 0)]
    | none => 0
  | _ =>
    if within off 0x100 0x180 then
      bitMap fun b => let k := 8 * (off - 0x100) + b; s.sourceOwner k == some p && (s.source k).fired
    else 0

/-! ### BRG (R201, R215–R220) -/

def JrnEntry.dword (e : JrnEntry) (k : Nat) : Nat :=
  match k with
  | 0 => e.seq.toNat
  | 1 =>
    if e.nowin then packFields [(e.cause.toNat, 28), (1, 27), (b2n e.dir, 26), (e.addr / 2 ^ 24 % 512, 17), (e.words, 0)]
    else packFields [(e.cause.toNat, 28), (b2n e.dir, 26), (e.seg, 20), (e.drop, 15), (e.window, 7), (e.words, 0)]
  | 2 => packFields [(e.nak.toNat, 24), (e.addr % 2 ^ 24, 0)]
  | _ => e.time.toNat

def State.brgReg (s : State) (p off : Nat) : Nat :=
  let b := s.bridge p
  let w := s.win p b.winSel.toNat
  match off with
  | 0x00 => b.winSel.toNat
  | 0x04 => (w.map fun w => lo32 w.haddr.toNat).getD 0
  | 0x08 => (w.map fun w => hi32 w.haddr.toNat).getD 0
  | 0x0C => (w.map fun w => packFields [(w.sizeLog2, 24), (w.cbase, 0)]).getD 0
  | 0x10 => (w.map fun w => packFields [(w.state.code, 30), (b2n w.guest, 29), (w.swap.toNat, 27), (b2n w.prefetch, 26), (b2n w.force, 25),
      (w.hold, 16), (w.drop, 8), (w.seg, 0)]).getD 0
  | 0x14 => (w.map fun w => packFields [(w.failCnt.toNat, 16), (b2n w.pfSuspended, 1), (b2n w.discard, 0)]).getD 0
  | 0x20 => b.jrnNext.toNat
  | 0x24 => b.jrnAck.toNat
  | 0x28 => b.jrnLost.toNat
  | 0x34 =>
    let owner := match b.semOwner with
      | .none => 0
      | .host => 1
      | .atomic => 2
      | .guest => 3
    packFields [(min 0xFFFF b.semWaiting.length, 16), (b.semSeg, 8), (b.semDrop, 3), (b2n b.semExpired, 2), (owner, 0)]
  | 0x40 =>
    let e := b.rdErr
    packFields [(b2n e.valid, 31), (e.cause.toNat, 24), (b2n e.nowin, 23), (e.window, 15), (e.offsetHi, 0)]
  | 0x44 => packFields [(b.rdErr.nak.toNat, 24), (b.rdErr.addr % 2 ^ 24, 0)]
  | 0x48 => packFields [(b.lateCpl.toNat, 16), (b.staleCnt.toNat, 0)]
  | _ =>
    if 0x1000 ≤ off then ((tblFind b.journal ((off - 0x1000) / 16)).map fun e => e.dword (off % 16 / 4)).getD 0 else 0

/-! ### FLT, partition view (R466) -/

def State.sticky (s : State) (i : Nat) : Bool := (s.faultRec i).sticky
def State.live (s : State) (i : Nat) : Bool := (s.faultRec i).live

def RecRing.cfg (r : RecRing) : Nat := packFields [(b2n r.en, 31), (r.log2, 0)]

def State.fltView (s : State) (p off : Nat) : Nat :=
  let r := (s.part p).logRing
  let hb := 0x010 + 2 * p
  match off with
  | 0x000 => packFields [(b2n s.alarm, 31), (b2n (s.live (hb + 1)), 17), (b2n (s.live hb), 16), (b2n (s.sticky (hb + 1)), 1), (b2n (s.sticky hb), 0)]
  | 0x004 => bitMap fun b => if b < 16 then s.sticky b else s.live (b - 16)
  | 0x008 => bitMap fun b => (s.partsOnSeg b).contains p && s.sticky (0x040 + b)
  | 0x00C => bitMap fun b => (s.partsOnSeg (32 + b)).contains p && s.sticky (0x060 + b)
  | 0x010 => bitMap fun b => if b < 16 then s.sticky (0x020 + b) else (s.core (b - 16)).retired
  | 0x020 => lo32 r.addr.toNat
  | 0x024 => hi32 r.addr.toNat
  | 0x028 => r.cfg
  | 0x02C => r.head
  | 0x030 => r.tail
  | 0x034 => r.lost.toNat
  | _ =>
    if within off 0x100 0x100 then bitMap fun b => let g := 8 * (off - 0x100) + b; s.owns p g && s.sticky (0x080 + g)
    else if within off 0x200 0x100 then bitMap fun b => let g := 8 * (off - 0x200) + b; s.owns p g && s.dropState g == .retired
    else 0

/-! ### RTV (R398) -/

/-- Telemetry channels read from a drop: three static words each (R394). -/
def Drop.tlmK (d : Drop) : Nat := min 15 (d.tlmStatic.length / 3)

def State.rtvReg (s : State) (p off : Nat) : Nat :=
  let x := s.part p
  let g := x.rtv.dropSel.toNat
  let d := s.drop g
  match off with
  | 0x000 => lo32 x.rtvRing.addr.toNat
  | 0x004 => hi32 x.rtvRing.addr.toNat
  | 0x008 => x.rtvRing.cfg
  | 0x00C => x.rtvRing.head
  | 0x010 => x.rtvRing.tail
  | 0x014 => x.rtvRing.lost.toNat
  | 0x018 => lo32 x.rtv.thumbAddr.toNat
  | 0x01C => hi32 x.rtv.thumbAddr.toNat
  | 0x020 => packFields [(x.rtv.qp, 16), (x.rtv.slots, 0)]
  | 0x024 => packFields [(x.rtv.stale.toNat, 16), (x.rtv.thumbLost.toNat, 8), (x.rtv.tlmSat.toNat, 0)]
  | 0x100 => g
  | 0x104 => if s.owns p g then packFields [(b2n d.crcEn, 31), (d.thumbInt, 16), (d.tlmInt, 0)] else 0
  | 0x108 =>
    if s.owns p g then
      packFields [(d.mismatch.toNat, 16), (d.lastSeq.toNat, 8), (d.tlmK, 4), (b2n (!d.tlmStatic.isEmpty), 3), (b2n (d.cap 10), 2),
        (b2n (d.cap 11 && d.colant2), 1)]
    else 0
  | _ => 0

/-! ### SCH and GATE views (R258–R262) -/

/-- An entry of the calendar as partition p sees it (R260). -/
def viewEntry (p k : Nat) (w : W64) : Nat :=
  let x := entrySlot k w
  if x.kind = 0 then 0
  else if x.kind = 6 then packFields [(x.start, 41), (x.len, 21), (6, 13)]
  else if x.part = p then w.toNat
  else packFields [(x.start, 41), (x.len, 21), (7, 13)]

/-- The calendar a partition's view shows: the active one, or with COPY its own changes applied (R258). -/
def State.viewCal (s : State) (p : Nat) : Tbl W64 :=
  let sel := (s.part p).schSel
  let x := s.seg (sel.extractLsb' 0 6).toNat
  if sel.getLsbD 8 then applyChanges x.calendar (s.staged p (sel.extractLsb' 0 6).toNat).changes else x.calendar

def Shaper.reg (x : Shaper) (k : Nat) : Nat :=
  match k with
  | 0 => packFields [(1, 31), (x.rate, 0)]
  | 1 => x.burst
  | 2 => unsignedOf (x.credit.fdiv 100000) 32
  | _ => if x.credit < 0 then lo32 (x.bucket.getD 0) else 0

def State.schReg (s : State) (p off : Nat) : Nat :=
  let i := ((s.part p).schSel.extractLsb' 0 6).toNat
  if off = 0x000 then (s.part p).schSel.toNat
  else if off = 0x004 then packFields [(s.cycleUs i, 16), (s.leadUs i, 8), (b2n (s.mixed i), 1), (b2n (s.base2 i), 0)]
  else if off = 0x008 then s.phaseUs i
  else if off = 0x00C then
    let held := ((s.seg i).calendar.filter fun e => (entrySlot e.1 e.2).kind != 6 && (entrySlot e.1 e.2).part == p).length
    packFields [(held, 16), (b2n (s.mismatch p i), 3), ((s.staged p i).state.code, 0)]
  else if within off 0x1000 0x1000 then
    let k := (off - 0x1000) / 8
    halfWord (off % 8 != 0) (((tblFind (s.viewCal p) k).map fun w => viewEntry p k w).getD 0)
  else if within off 0x2000 0x200 then ((s.shaper p ((off - 0x2000) / 16)).map fun x => x.reg (off % 16 / 4)).getD 0
  else 0

def State.gateReg (s : State) (p l off : Nat) : Nat :=
  let x := s.part p
  let g := s.shownGate p
  match off with
  | 0x00 => x.gateSel.toNat
  | 0x04 => (g.map fun g => packFields [(g.next, 16), (g.count, 8), (g.state.code, 0)]).getD 0
  | 0x08 => lo32 ((g.map (·.base)).getD 0)
  | 0x0C => (tblGet 0 x.gateBaseHi l).toNat
  | 0x10 => lo32 ((g.map (·.cycle)).getD 0)
  | 0x14 => hi32 ((g.map (·.cycle)).getD 0)
  | 0x18 => lo32 ((g.bind (·.nextDue)).getD 0)
  | 0x1C => (tblGet 0 x.gateNextHi l).toNat
  | _ => 0

/-! ### BAR0 (R122, R509) -/

/-- What the DWord at offset a of partition p's BAR0 reads for a reader with latch l. -/
def State.bar0 (s : State) (p l a : Nat) : Nat :=
  if a % 4 ≠ 0 then 0
  else if a < 0x100 then s.hstReg p a
  else if within a 0x1000 0x1000 then s.doorbellReg p (a - 0x1000)
  else if within a 0x2000 0x100 then s.tbReg l (a - 0x2000)
  else if within a 0x3000 0x1000 then s.evcReg p (a - 0x3000)
  else if within a 0x4000 0x2000 then s.brgReg p (a - 0x4000)
  else if within a 0x6000 0x1000 then s.fltView p (a - 0x6000)
  else if within a 0x7000 0x1000 then s.rtvReg p (a - 0x7000)
  else if within a 0x8000 0x3000 then s.schReg p (a - 0x8000)
  else if within a 0xB000 0x20 then s.gateReg p l (a - 0xB000)
  else 0

/-! ### The vendor blocks (R508) -/

def State.evcVendor (s : State) (off : Nat) : Nat :=
  let n := s.evc.routeSel.toNat
  if off = 0x004 then n
  else if off = 0x008 then
    if 3072 ≤ n then 0
    else
      let own := s.sourceOwner n
      let r := s.route n
      packFields [(b2n (s.source n).mask, 31), (b2n r.tkind, 30), (r.core, 28), (b2n own.isNone, 27), (own.getD 0, 24), (r.part, 8),
                  (r.vector, 0)]
  else if off = 0x00C then (if 3072 ≤ n then 0 else (s.source n).stat)
  else if within off 0x010 0x180 then (s.group ((off - 0x010) / 4)).holdoff.toNat
  else if within off 0x200 0x80 then
    let e := s.evcCore ((off - 0x200) / 32)
    let x := fun n => tblGet ({} : PrivSource) e.priv n
    match off % 32 with
    | 0x00 => (e.claim.1).toNat
    | 0x04 => packFields [(b2n e.sleeping, 1), (b2n e.imask, 0)]
    | 0x08 => bitMap fun b => (x b).mask
    | 0x0C => bitMap fun b => (x (32 + b)).mask
    | 0x10 => bitMap fun b => (x b).pending
    | 0x14 => bitMap fun b => (x (32 + b)).pending
    | 0x18 => e.cntSel.toNat
    | 0x1C => packFields [(b2n (x e.cntSel.toNat).saturated, 8), ((x e.cntSel.toNat).count.toNat, 0)]
    | _ => 0
  else 0

def State.grdPair (s : State) (b l off : Nat) : Nat :=
  let x := s.pair b
  match off with
  | 0x00 => b2n x.activeB
  | 0x04 => x.epoch.toNat
  | 0x08 => s.drainWord b
  | 0x0C => packFields [(b2n x.view, 15), (x.index.toNat, 0)]
  | 0x10 => x.buffer.toNat % 2 ^ 32
  | 0x14 => x.buffer.toNat / 2 ^ 32 % 2 ^ 32
  | 0x18 => x.buffer.toNat / 2 ^ 64 % 2 ^ 32
  | 0x1C => x.buffer.toNat / 2 ^ 96
  | 0x24 => packFields [(b2n x.err, 31), (x.errCode.toNat, 28), (x.errOther.toNat, 0)]
  | 0x28 => x.cap.word
  | 0x2C => lo32 x.cap.addr.toNat
  | 0x30 => (tblGet 0 x.addrHi l).toNat
  | 0x34 => x.cap.time.toNat
  | 0x38 => x.cap.epoch.toNat
  | _ => 0

def Filter.reg (f : Filter) (off : Nat) : Nat :=
  match off with
  | 0x00 => packFields [(b2n f.en, 31), (b2n f.loadErr, 30)]
  | 0x04 => f.rdMask.toNat
  | 0x08 => f.wrMask.toNat
  | 0x0C => f.guestMask.toNat
  | 0x10 => f.prot0Base
  | 0x14 => f.prot0Last
  | 0x18 => f.prot1Base
  | 0x1C => f.prot1Last
  | _ => 0

def State.grdReg (s : State) (l off : Nat) : Nat :=
  if off < 0x2C0 then s.grdPair (off / 0x40) l (off % 0x40)
  else if within off 0x1000 0x800 then (s.seg ((off - 0x1000) / 0x20)).filter.reg (off % 0x20)
  else 0

/-- A window's settings as last written. -/
def WinCfg.reg (w : WinCfg) : Nat :=
  match w.next with
  | some (_, t, ms) => packFields [(t, 16), (ms, 0)]
  | none => packFields [(w.thresh, 16), (w.bucketMs, 0)]

def State.fltReg (s : State) (l off : Nat) : Nat :=
  let f := s.flt
  let x := s.faultRec f.sel.toNat
  match off with
  | 0x000 => packFields [(b2n s.alarm, 31), (s.stickyCount, 0)]
  | 0x004 => f.sel.toNat
  | 0x008 => packFields [(b2n x.sticky, 31), (b2n x.live, 30), (x.rep.toNat, 0)]
  | 0x00C => lo32 x.firstTime.toNat
  | 0x010 => (tblGet 0 f.firstHi l).toNat
  | 0x014 => x.firstDetail.toNat
  | 0x200 => packFields [(f.retryCore, 8), (f.retrySeg, 0)]
  | 0x204 => f.winDrop.reg
  | 0x208 => f.winSeg.reg
  | 0x20C => f.winCore.reg
  | 0x210 => f.winStream.reg
  | 0x214 => packFields [(f.selClass.toNat, 12), (f.selIndex.toNat, 0)]
  | 0x218 => min 0xFFFF (s.windowCount f.selClass.toNat f.selIndex.toNat)
  | 0x224 => f.coalesceMs
  | 0x228 => f.ecc.toNat
  | 0x230 => f.traceHead.toNat
  | 0x234 => f.traceWrap.toNat
  | _ => if within off 0x020 0x110 then bitMap fun b => s.sticky (8 * (off - 0x020) + b) else 0

def State.pwrReg (s : State) (off : Nat) : Nat :=
  let x := s.plant
  let l := s.passes
  let shown := fun n => if s.powered then min 0xFFFF n else 0
  if off = 0x000 then packFields [(x.vMin s.tick % 65536, 16), (x.pool.toNat, 0)]
  else if off = 0x004 then packFields [(b2n x.warn, 31), (b2n x.short, 30), (b2n x.overrun, 29), (shown s.reserved, 0)]
  else if off = 0x008 then min 0xFFFF (sumNat (x.grants.map (·.2)))
  else if off = 0x00C then x.psuLimit.toNat
  else if within off 0x010 24 then
    let n := (off - 0x010) / 4
    packFields [(min 0xFFFF (tblGet 0 x.grants n), 16), (shown ((s.reservations l).getD n 0), 0)]
  else if within off 0x040 32 then
    let p := (off - 0x040) / 4
    packFields [(min 0xFFFF (tblGet 0 s.map.ceilPower p * 4), 16), (min 0xFFFF (s.powerPart l p), 0)]
  else 0

/-- Where the pending half of a drop's fallback image lies: areas by ascending drop, the second half at half of the area (log entry 40). -/
def State.fbAddr (s : State) (c g : Nat) : Nat :=
  s.fbAreaBase c + sumNat (((s.areas c).filter fun e => decide (e.1 < g)).map (·.2))
    + (if (s.drop g).fb.pendingBuf then tblGet 0 (s.areas c) g / 2 else 0)

def CcState.code : CcState → Nat
  | .stopped => 0
  | .running => 1
  | .verifyFail => 2
  | .gaveUp => 3

def State.ccRegs (s : State) (c l off : Nat) : Nat :=
  let x := s.cust c
  let g := x.fbSel.toNat
  let d := s.drop g
  let own := s.servedBy g == some c
  match off with
  | 0x00 => packFields [(b2n x.run, 31), (b2n x.fbFormat, 0)]
  | 0x04 => packFields [(x.state.code, 30), (b2n x.task, 29), (x.loadErr, 16), (x.restarts.toNat, 0)]
  | 0x08 => x.imgVer.toNat
  | 0x0C => lo32 (tblGet 0 s.map.ccMinVer c)
  | 0x10 => s.cmemBase c / 16
  | 0x14 => tblGet 0 s.map.cmemMiB c
  | 0x18 => s.fbAreaBase c / 16
  | 0x1C => s.fbAreaBytes c / 65536
  | 0x20 => x.taskEntry.toNat
  | 0x28 => packFields [(x.taskCause.toNat, 28), (x.taskAddr.toNat, 0)]
  | 0x2C => s.wdogMs c % 2 ^ 14
  | 0x50 => x.tmrEn.toNat
  | 0x54 => x.takeover.toNat
  | 0x58 => g
  | 0x5C =>
    if own then packFields [(1, 31), (b2n d.fb.supplying, 30), (b2n d.fb.queued, 29), (b2n d.fb.pendingBuf, 28), (d.fb.overCnt.toNat, 0)] else 0
  | 0x60 => if own then s.fbAddr c g / 16 else 0
  | _ =>
    if within off 0x30 0x20 then
      let t := x.timer ((off - 0x30) / 8)
      if off % 8 = 0 then lo32 t.cmp.toNat else (tblGet 0 t.hiLatch l).toNat
    else 0

def State.decReg (s : State) (off : Nat) : Nat :=
  let x := s.stream s.decSel.toNat
  if off < 0x100 then
    let n := off / 16
    let c := s.core n
    match off % 16 with
    | 0x0 =>
      let st := if c.retired then 2 else if s.coreGrouped n then 3 else if s.coreStreams n = 0 then 0 else 1
      packFields [(st, 30), (s.coreStreams n, 16), (min 600 (loadOf (s.coreLoad n, 100)), 0)]
    | 0x4 => packFields [(c.upsets.toNat, 16), (c.retries.toNat, 0)]
    | 0x8 => c.busy / 1024 % 2 ^ 32
    | _ => 0
  else
    match off with
    | 0x100 => s.decSel.toNat
    | 0x104 => (x.map fun x => packFields [(1, 11), (x.part, 8), (x.index, 0)]).getD 0
    | 0x108 => (x.map fun x => packFields [(x.cores - 1, 28), (x.firstCore, 24), (x.flags, 16), (x.level, 8), (x.profile, 4), (x.codec, 0)]).getD 0
    | 0x10C => (x.map fun x => packFields [(loadOf (x.q, 100), 16), (x.failReason, 8), (x.state.code, 0)]).getD 0
    | _ => 0

def State.cmpReg (s : State) (off : Nat) : Nat :=
  let g := s.cmp.surfSel.toNat
  let d := s.drop g
  let c := tblFind s.canvases s.cmp.canvasSel.toNat
  match off with
  | 0x000 => min 0x3FFF (loadOf (passRate s.passes))
  | 0x004 => s.cmp.late.toNat
  | 0x008 => s.cmp.busy.toNat
  | 0x100 => g
  | 0x104 => packFields [(b2n d.canvas.isSome, 31), (d.canvas.getD 0, 24), (d.latchedSurface.bright.toNat, 16), (d.latchedSurface.layerEn.toNat, 0)]
  | 0x108 => d.latchedSurface.sel.toNat
  | 0x10C => lo32 d.lastK
  | 0x200 => s.cmp.canvasSel.toNat
  | 0x204 => (c.map fun c => packFields [(1, 31), (c.part, 24), (c.members.length, 15)]).getD 0
  | 0x208 => (c.map fun c => packFields [(c.height - 1, 16), (c.width - 1, 0)]).getD 0
  | _ => 0

def State.clrReg (s : State) (off : Nat) : Nat :=
  let g := s.cmp.clrSel.toNat
  let d := s.drop g
  match off with
  | 0x000 => g
  | 0x004 => d.sat.scale.toNat
  | 0x008 => d.sat.inmat.toNat
  | 0x00C => d.sat.gamut.toNat
  | 0x010 => d.sat.cal.toNat
  | 0x014 => d.sat.unif.toNat
  | 0x018 => d.sat.oetf.toNat
  | 0x01C => d.sat.dither.toNat
  | 0x020 => if d.desc.isSome then d.calCrc.toNat else 0
  | 0x024 =>
    if d.desc.isSome then
      packFields [(b2n d.calValid, 31), (calCols d.height, 20), (calCols d.width, 10), (b2n (d.chan == 3), 9), (d.depth, 0)]
    else 0
  | _ => if within off 0x040 20 then (eotfCrc ((off - 0x040) / 4)).toNat else 0

/-- The drop's Wafer slots of the active calendar. -/
def State.waferSlots (s : State) (g : Nat) : List Slot := slotsFor (slotsOf (s.seg (g / 32)).calendar) (g % 32) 2

def State.wafReg (s : State) (off : Nat) : Nat :=
  let g := s.waf.sel.toNat
  let d := s.drop g
  let p := s.panel g
  let slots := s.waferSlots g
  let known := d.desc.isSome
  match off with
  | 0x000 => min 0x3FFF (loadOf (laneRate s.passes))
  | 0x004 => s.waf.late.toNat
  | 0x008 => s.waf.csh.toNat
  | 0x100 => g
  | 0x104 =>
    packFields [(d.wafer, 30), (tblGet 2 s.map.waferLimit g, 28), (b2n (d.chan == 3), 27), (min 255 slots.length, 16), (if known then d.depth else 0, 0)]
  | 0x108 => if known then packFields [(p.nb, 16), (p.tw, 0)] else 0
  | 0x10C => lo32 d.waf.budget
  | 0x110 =>
    if known then lo32 (sumNat ((List.range slots.length).map fun j => let b := p.bands j slots.length; p.slotFloor b.1 b.2)) else 0
  | 0x114 => packFields [(d.waf.changedCnt.toNat, 16), (d.waf.refinedCnt.toNat, 0)]
  | 0x118 => lo32 d.waf.fillCnt
  | 0x11C => packFields [(b2n d.waf.force, 31), (d.waf.refreshCount.toNat, 0)]
  | 0x120 => packFields [(min 0xFFFF d.waf.unsettledCnt, 16), (min 0xFFFF d.waf.unknown.length, 0)]
  | _ => if within off 0x040 0x80 then tblGet 0 s.waf.busy ((off - 0x040) / 4) / 15360 % 2 ^ 32 else 0

def State.arbReg (s : State) (i off : Nat) : Nat :=
  let a := (s.seg i).arb
  if off = 0x00 then packFields [(b2n a.freeze, 31), (b2n (s.drained i), 30), (s.holderNow i, 16), (a.preempt.toNat, 0)]
  else if off = 0x04 then a.cls.toNat
  else if within off 0x08 16 then (tblGet 0 a.leash ((off - 0x08) / 4)).toNat
  else if off = 0x18 then a.tenure.toNat
  else if within off 0x1C 16 then
    let n := (off - 0x1C) / 4
    packFields ((List.range 4).map fun k => (min 255 (tblGet 0 a.wait (4 * n + k)), 8 * k))
  else 0

/-- The partition whose view an address lies in (R508, R509). -/
def viewOf (a : Nat) : Option Nat := if within a 0x20000000 0x80000 then some ((a - 0x20000000) / 0x10000) else none

/-- What the DWord at a control-space address reads for a reader with latch l. -/
def State.ctl (s : State) (l a : Nat) : Nat :=
  if a % 4 ≠ 0 then 0
  else
    match viewOf a with
    | some p => if s.map.hasPart p then s.bar0 p l (a % 0x10000) else 0
    | none =>
      let off := a % 0x10000
      match a / 0x10000 with
      | 0x1000 => s.tbReg l off
      | 0x1001 => s.evcVendor off
      | 0x1002 => s.grdReg l off
      | 0x1003 => s.fltReg l off
      | 0x1004 => s.pwrReg off
      | 0x1005 => if off < 0x200 then s.ccRegs (off / 0x100) l (off % 0x100) else 0
      | 0x1006 => s.decReg off
      | 0x1007 => s.cmpReg off
      | 0x1008 => s.clrReg off
      | 0x1009 => s.wafReg off
      | 0x100A => if off < 0x1000 then s.arbReg (off / 0x40) (off % 0x40) else 0
      | _ => 0

end Sys2Proof.Machine
end

