-- ==== Sys2Proof/Machine/RegWrite.lean ====
section
/-! DEFINITION. REGISTER_WRITE: an access to BAR0 or to the internal control space by address (R3, R122, R123, R508–R510). A register
whose write or read has a command of its own acts by that command's meaning. -/

namespace Sys2Proof

/-! ### The bytes of an access (R510) -/

/-- The byte enables of DWord k of an access. -/
def RegAccess.enables (a : RegAccess) (k : Nat) : BitVec 4 := if k = 0 then a.firstBE else a.lastBE

/-- The bytes of an access that are enabled, counted from its address. -/
def RegAccess.bytes (a : RegAccess) : List Nat :=
  (List.range (4 * a.data.length)).filter fun b => (a.enables (b / 4)).getLsbD (b % 4)

/-- The bytes of an access of at most eight lie aligned to its size (R510). -/
def RegAccess.aligned (a : RegAccess) : Bool :=
  match a.bytes.head?, a.bytes.getLast? with
  | some lo, some hi =>
    let n := hi + 1 - lo
    lo % (if n ≤ 1 then 1 else if n ≤ 2 then 2 else if n ≤ 4 then 4 else 8) == 0
  | _, _ => true

end Sys2Proof

namespace Sys2Proof.Machine

/-- What a command leaves. -/
def after (r : Res) (s : State) : State :=
  match r with
  | .next t => t
  | _ => s

/-- A W1C field: each 1 clears its bit (R3). -/
def w1c {n : Nat} (x v : BitVec n) : BitVec n := x &&& ~~~v

/-- A 64-bit address register with its low or its high DWord written; bits [11:0] of the low one are reserved. -/
def putAddr (a : W64) (hi : Bool) (v : W32) : W64 :=
  if hi then v ++ a.extractLsb' 0 32 else (a.extractLsb' 32 32) ++ (v &&& 0xFFFFF000)

/-! ### Latches and claims (R56, R414, R509) -/

/-- A read of a LO register through partition p's BAR0 layout latches its HI register for reader l. -/
def State.latchBar (s : State) (p l off : Nat) : State :=
  if off = 0x2008 then s.onTb fun t => { t with hiLatch := tblSet 0 t.hiLatch l (BitVec.ofNat 32 (hi32 s.now)) }
  else if off = 0xB008 then s.latchGate p l false (((s.shownGate p).map (·.base)).getD 0)
  else if off = 0xB018 then s.latchGate p l true (((s.shownGate p).bind (·.nextDue)).getD 0)
  else s

/-- The side effect of a read in control space. -/
def State.latchCtl (s : State) (l a : Nat) : State :=
  let off := a % 0x10000
  match viewOf a with
  | some p => if s.map.hasPart p then s.latchBar p l off else s
  | none =>
    match a / 0x10000 with
    | 0x1000 => if off = 8 then s.latchBar 0 l 0x2008 else s
    | 0x1001 =>
      if within off 0x200 0x80 && off % 32 == 0 then s.onEvcCore ((off - 0x200) / 32) fun e => e.claim.2.settle else s
    | 0x1002 =>
      if decide (off < 0x2C0) && off % 0x40 == 0x2C then
        s.onPair (off / 0x40) fun b => { b with addrHi := tblSet 0 b.addrHi l (b.cap.addr.extractLsb' 32 32) }
      else s
    | 0x1003 =>
      if off = 0x00C then
        s.onFlt fun f => { f with firstHi := tblSet 0 f.firstHi l ((s.faultRec f.sel.toNat).firstTime.extractLsb' 32 32) }
      else s
    | 0x1005 =>
      if decide (off < 0x200) && within (off % 0x100) 0x30 0x20 && off % 8 == 0 then
        s.onCust (off / 0x100) fun x => x.onTimer ((off % 0x100 - 0x30) / 8) fun t =>
          { t with hiLatch := tblSet 0 t.hiLatch l (t.cmp.extractLsb' 32 32) }
      else s
    | _ => s

/-! ### Writes through BAR0 -/

def State.hstWrite (s : State) (p : PartId) (off : Nat) (v : W32) : State :=
  match off with
  | 0x10 => s.onPart p fun x => { x with hstErr := w1c x.hstErr (v.extractLsb' 0 5) }
  | 0x20 => s.onPart p fun x => { x with admSq := putAddr x.admSq false v }
  | 0x24 => s.onPart p fun x => { x with admSq := putAddr x.admSq true v }
  | 0x28 => s.onPart p fun x => { x with admCq := putAddr x.admCq false v }
  | 0x2C => s.onPart p fun x => { x with admCq := putAddr x.admCq true v }
  | 0x30 => after (execAdminRingEnable p v s) s
  | 0x38 => s.onPart p fun x => { x with dbErr := w1c x.dbErr v }
  | 0x44 => after (execHeartbeat p s) s
  | _ => s

def State.doorbellWrite (s : State) (p : PartId) (off : Nat) (v : W32) : State :=
  if h : off / 8 < 16 then
    if off % 8 = 0 then after (execSqTailDoorbell p ⟨off / 8, h⟩ v s) s else after (execCqHeadDoorbell p ⟨off / 8, h⟩ v s) s
  else s

/-- DELAY_REQ_LOG saturates to −4 … 1 (R69). -/
def satLog (x : BitVec 4) : BitVec 4 := BitVec.ofInt 4 (clampInt (-4) 1 x.toInt)

/-- A timebase write by a requester that may make it. -/
def State.tbRegWrite (s : State) (who : Requester) (off : Nat) (v : W32) : State :=
  match off with
  | 0x00 => s.writeTbCtrl v
  | 0x10 => after (execTbRateWrite who v s) s
  | 0x18 => s.onTb fun t => { t with stepLo := v }
  | 0x1C => s.onTb fun t => { t with stepHi := v }
  | 0x20 => s.onTb fun t => ({ t with domain := v.extractLsb' 8 8, transport := v.extractLsb' 6 2, delayReqLog := satLog (v.extractLsb' 0 4) } : Timebase).select
  | 0x24 => s.onTb fun t => { t with ppsInDelay := v.extractLsb' 16 16, ppsOutEn := v.getLsbD 1, ppsInTerm := v.getLsbD 0 }
  | _ => s

/-- The FIRED bits written 1 of sources of a partition's own clear, from source first. -/
def State.clearFired (s : State) (p first : Nat) (v : W32) : State :=
  ((List.range 32).filter fun b => v.getLsbD b && s.sourceOwner (first + b) == some p).foldl
    (fun s b => s.setSource (first + b) { s.source (first + b) with fired := false }) s

def State.evcRegWrite (s : State) (p : PartId) (off : Nat) (v : W32) : State :=
  match off with
  | 0x00 => s.onPart p fun x => { x with evcSel := v.extractLsb' 0 12 }
  | 0x04 => after (execEvcMaskWrite (.host p) v s) s
  | 0x0C => after (execEvcSrcAck p v s) s
  | 0x10 => after (execEvcGrpHoldoffWrite (.host p) ⟨88 + p.val, by omega⟩ v s) s
  | _ => if within off 0x100 0x180 then s.clearFired p (8 * (off - 0x100)) v else s

/-- BRG_SEM_CTRL: CLAIM acts on a free semaphore, RELEASE on one the host holds. -/
def State.semCtrl (s : State) (p : PartId) (v : W32) : State :=
  if (s.bridge p).semOwner = .host then (if v.getLsbD 1 then after (execRelease p s) s else s)
  else if v.getLsbD 0 then after (execClaim p s) s
  else s

def State.brgWrite (s : State) (p : PartId) (off : Nat) (v : W32) : State :=
  match off with
  | 0x00 => s.onBridge p fun b => { b with winSel := v.extractLsb' 0 8 }
  | 0x14 => if v.getLsbD 0 then s.onWin p (s.bridge p).winSel.toNat fun w => { w with discard := false } else s
  | 0x24 => after (execBrgJrnAckWrite p v s) s
  | 0x30 => s.semCtrl p v
  | 0x34 => if v.getLsbD 2 then s.onBridge p fun b => { b with semExpired := false } else s
  | 0x40 => if v.getLsbD 31 then s.onBridge p fun b => { b with rdErr := { b.rdErr with valid := false } } else s
  | _ => s

/-- An address register of a record ring; ignored while EN is 1. -/
def RecRing.writeAddr (r : RecRing) (hi : Bool) (v : W32) : RecRing := if r.en then r else { r with addr := putAddr r.addr hi v }

def State.fltViewWrite (s : State) (p : PartId) (off : Nat) (v : W32) : State :=
  match off with
  | 0x020 => s.onPart p fun x => { x with logRing := x.logRing.writeAddr false v }
  | 0x024 => s.onPart p fun x => { x with logRing := x.logRing.writeAddr true v }
  | 0x028 => after (execFltLogCfgEn p v s) s
  | 0x02C => after (execFltLogHeadWrite p v s) s
  | _ => s.clearView p (0x6000 + off) v

def State.rtvWrite (s : State) (p : PartId) (off : Nat) (v : W32) : State :=
  match off with
  | 0x000 => s.onPart p fun x => { x with rtvRing := x.rtvRing.writeAddr false v }
  | 0x004 => s.onPart p fun x => { x with rtvRing := x.rtvRing.writeAddr true v }
  | 0x008 => after (execRtvRingCfgEn p v s) s
  | 0x00C => after (execRtvRingHeadWrite p v s) s
  | 0x018 => s.onPart p fun x => { x with rtv := { x.rtv with thumbAddr := putAddr x.rtv.thumbAddr false v } }
  | 0x01C => s.onPart p fun x => { x with rtv := { x.rtv with thumbAddr := putAddr x.rtv.thumbAddr true v } }
  | 0x020 => s.onPart p fun x => { x with rtv := { x.rtv with qp := field v.toNat 21 16, slots := field v.toNat 8 0 } }
  | 0x100 => s.onPart p fun x => { x with rtv := { x.rtv with dropSel := v.extractLsb' 0 11 } }
  | 0x104 => after (execRtvDropCfgWrite p v s) s
  | _ => s

/-- A DWord written at offset a of partition p's own BAR0. -/
def State.writeBar (s : State) (p : PartId) (a : Nat) (v : W32) : State :=
  if a % 4 ≠ 0 then s
  else if a < 0x100 then s.hstWrite p a v
  else if within a 0x1000 0x1000 then s.doorbellWrite p (a - 0x1000) v
  else if within a 0x2000 0x100 then (if tblGet false s.map.tbWr p then s.tbRegWrite (.host p) (a - 0x2000) v else s)
  else if within a 0x3000 0x1000 then s.evcRegWrite p (a - 0x3000) v
  else if within a 0x4000 0x2000 then s.brgWrite p (a - 0x4000) v
  else if within a 0x6000 0x1000 then s.fltViewWrite p (a - 0x6000) v
  else if within a 0x7000 0x1000 then s.rtvWrite p (a - 0x7000) v
  else if a = 0x8000 then s.onPart p fun x => { x with schSel := v.extractLsb' 0 9 &&& 0x13F }
  else if a = 0xB000 then s.onPart p fun x => { x with gateSel := v.extractLsb' 0 8 }
  else s

/-! ### Writes in control space -/

/-- Private MASK bits of 32 sources of a core; a pending source unmasked outside its delivery window is committed (R407, R421). -/
def EvcCore.writeMasks (e : EvcCore) (tick first : Nat) (v : W32) : EvcCore :=
  ((List.range 32).foldl (fun (e : EvcCore) b =>
    let n := first + b
    let x := tblGet {} e.priv n
    let e : EvcCore := { e with priv := tblSet {} e.priv n { x with mask := v.getLsbD b } }
    if !v.getLsbD b && x.pending && x.window.isNone then e.privCommit tick n else e) e).settle

def State.evcVendorWrite (s : State) (who : Requester) (off : Nat) (v : W32) : State :=
  if off = 0x000 then after (execDoorbell who v s) s
  else if off = 0x004 then { s with evc := { s.evc with routeSel := v.extractLsb' 0 12 } }
  else if off = 0x008 then after (execEvcRouteWrite who v s) s
  else if h : 0x010 ≤ off ∧ off < 0x190 then after (execEvcGrpHoldoffWrite who ⟨(off - 0x010) / 4, by omega⟩ v s) s
  else if h : 0x200 ≤ off ∧ off < 0x280 then
    let c : CtlCore := ⟨(off - 0x200) / 32, by omega⟩
    match off % 32 with
    | 0x04 => after (execEvcImaskWrite who c v s) s
    | 0x08 => s.onEvcCore c fun e => e.writeMasks s.tick 0 v
    | 0x0C => s.onEvcCore c fun e => e.writeMasks s.tick 32 v
    | 0x18 => s.onEvcCore c fun e => { e with cntSel := v.extractLsb' 0 6 }
    | 0x1C => after (execEvcPcntWrite who c v s) s
    | _ => s
  else s

/-- DWord k of the staging buffer; ignored while VIEW is 1. -/
def BankPair.writeBuffer (b : BankPair) (k : Nat) (v : W32) : BankPair :=
  if b.view then b
  else { b with buffer := (b.buffer &&& ~~~((0xFFFFFFFF : BitVec 128) <<< (32 * k))) ||| (v.setWidth 128 <<< (32 * k)) }

/-- A filter register; masks and ranges are ignored while EN is 1. -/
def Filter.write (f : Filter) (off : Nat) (v : W32) : Filter :=
  let a := field v.toNat 23 0
  if off = 0 then f.writeEn (v.getLsbD 31)
  else if f.en then f
  else
    match off with
    | 0x04 => { f with rdMask := v }
    | 0x08 => { f with wrMask := v }
    | 0x0C => { f with guestMask := v }
    | 0x10 => { f with prot0Base := a }
    | 0x14 => { f with prot0Last := a }
    | 0x18 => { f with prot1Base := a }
    | 0x1C => { f with prot1Last := a }
    | _ => f

def State.grdWrite (s : State) (who : Requester) (off : Nat) (v : W32) : State :=
  if h : off < 0x2C0 then
    let b : PairId := ⟨off / 0x40, by omega⟩
    match off % 0x40 with
    | 0x00 => after (execGrdBankSwap who b v s) s
    | 0x0C => after (execGrdEntrySelWrite who b v s) s
    | 0x10 => s.onPair b fun x => x.writeBuffer 0 v
    | 0x14 => s.onPair b fun x => x.writeBuffer 1 v
    | 0x18 => s.onPair b fun x => x.writeBuffer 2 v
    | 0x1C => s.onPair b fun x => x.writeBuffer 3 v
    | 0x20 => after (execGrdEntryLoad who b v s) s
    | 0x24 => if v.getLsbD 31 then s.onPair b fun x => { x with err := false } else s
    | 0x28 => after (execGrdCapClear who b v s) s
    | _ => s
  else if within off 0x1000 0x800 then
    s.onSeg ((off - 0x1000) / 0x20) fun x => { x with filter := x.filter.write (off % 0x20) v }
  else s

/-- A window's settings change at the start of the next bucket (R451). -/
def State.writeWin (s : State) (cls : Nat) (v : W32) : State :=
  s.onFlt fun f =>
    let w := f.winCfg cls
    f.setWinCfg cls { w with next := some ((s.now / w.ns + 1) * w.ns, field v.toNat 31 16, field v.toNat 12 0) }

def State.fltWrite (s : State) (who : Requester) (off : Nat) (v : W32) : State :=
  match off with
  | 0x004 => s.onFlt fun f => { f with sel := v.extractLsb' 0 12 }
  | 0x200 => s.onFlt fun f => { f with retryCore := field v.toNat 9 8, retrySeg := field v.toNat 2 0 }
  | 0x204 => s.writeWin 4 v
  | 0x208 => s.writeWin 3 v
  | 0x20C => s.writeWin 2 v
  | 0x210 => s.writeWin 5 v
  | 0x214 => s.onFlt fun f => { f with selClass := v.extractLsb' 12 3, selIndex := v.extractLsb' 0 11 }
  | 0x220 => after (s.restoreWrite who v) s
  | 0x224 => s.onFlt fun f => { f with coalesceMs := field v.toNat 13 0 }
  | _ => s.clearVendor off v

/-- A register of a customer core; vendor: written by CC0, CC1 or the service port (R479). -/
def State.ccWrite (s : State) (vendor : Bool) (c off : Nat) (v : W32) : State :=
  match off with
  | 0x00 => if vendor then (s.setRun c (v.getLsbD 31)).onCust c fun x => { x with fbFormat := v.getLsbD 0 } else s
  | 0x20 => s.onCust c fun x => { x with taskEntry := v }
  | 0x24 => s.onCust c fun x => x.go v
  | 0x2C => s.onCust c fun x => x.kick s.tick v
  | 0x50 => s.onCust c fun x => { x with tmrEn := v.extractLsb' 0 4 }
  | 0x58 => s.onCust c fun x => { x with fbSel := v.extractLsb' 0 11 }
  | 0x64 => s.publish c (field v.toNat 10 0)
  | _ =>
    if within off 0x30 0x20 then
      s.onCust c fun x => x.onTimer ((off - 0x30) / 8) fun t => if off % 8 = 0 then t.writeLo v else { t with hiPending := some v }
    else s

def State.wafWrite (s : State) (who : Requester) (off : Nat) (v : W32) : State :=
  match off with
  | 0x008 => { s with waf := { s.waf with csh := v.extractLsb' 0 2 } }
  | 0x100 => { s with waf := { s.waf with sel := v.extractLsb' 0 11 } }
  | 0x11C => after (execWafDropRefresh who v s) s
  | _ => s

def State.arbRegWrite (s : State) (who : Requester) (off : Nat) (v : W32) : State :=
  if h : off < 0x1000 then
    let i : SegId := ⟨off / 0x40, by omega⟩
    match off % 0x40 with
    | 0x00 => after (execSchArbFreeze who i v s) s
    | 0x04 => after (execSchArbClassWrite who i v s) s
    | 0x08 => after (execSchArbLeashWrite who i 0 v s) s
    | 0x0C => after (execSchArbLeashWrite who i 1 v s) s
    | 0x10 => after (execSchArbLeashWrite who i 2 v s) s
    | 0x14 => after (execSchArbLeashWrite who i 3 v s) s
    | 0x18 => after (execSchArbTenureWrite who i v s) s
    | _ => s
  else s

/-- A requester of the vendor side: CC0, CC1 or the service port. -/
def isVendor : Requester → Bool
  | .host _ => false
  | .core c => decide (c.val < 2)
  | .service => true

/-- A DWord written at a control-space address the guard allows. Partition views are read-only (R509). -/
def State.writeCtl (s : State) (who : Requester) (a : Nat) (v : W32) : State :=
  let off := a % 0x10000
  match a / 0x10000 with
  | 0x1000 => s.tbRegWrite who off v
  | 0x1001 => s.evcVendorWrite who off v
  | 0x1002 => s.grdWrite who off v
  | 0x1003 => s.fltWrite who off v
  | 0x1004 => if off = 4 && v.getLsbD 29 then s.onPlant fun x => { x with overrun := false } else s
  | 0x1005 => if off < 0x200 then s.ccWrite (isVendor who) (off / 0x100) (off % 0x100) v else s
  | 0x1006 => if off = 0x100 then { s with decSel := v.extractLsb' 0 8 } else s
  | 0x1007 =>
    if off = 0x100 then { s with cmp := { s.cmp with surfSel := v.extractLsb' 0 11 } }
    else if off = 0x200 then { s with cmp := { s.cmp with canvasSel := v.extractLsb' 0 6 } }
    else s
  | 0x1008 => if off = 0 then { s with cmp := { s.cmp with clrSel := v.extractLsb' 0 11 } } else s
  | 0x1009 => s.wafWrite who off v
  | 0x100A => s.arbRegWrite who off v
  | _ => s

/-! ### Accesses -/

/-- One DWord, or two at an address aligned to eight bytes. -/
def accSized (a : RegAccess) : Bool :=
  a.addr.toNat % 4 == 0 && (a.data.length == 1 || (a.data.length == 2 && a.addr.toNat % 8 == 0))

/-- An access through a partition's own BAR0 (R123); one of a class whose credits are withheld does not arrive (R192). A write that is too long or
misaligned sets BAR0_SIZE alone, whatever its byte enables; of a QWord write the DWord that is not whole is dropped (log entry 149). -/
def State.barAccess (s : State) (p : PartId) (a : RegAccess) : State :=
  if s.linkHeld p a.isRead then s
  else if !s.hostOpen p then (if a.isRead then s.emit (.regAbort p .ur) else s.dropWrite p)
  else if !accSized a then
    let s := s.onPart p (·.setErr 1)
    if a.isRead then s.emit (.regAbort p .ca) else s
  else if a.isRead then
    a.data.zipIdx.foldl (fun s e =>
      let off := a.addr.toNat + 4 * e.2
      (s.latchBar p p off).emit (.regData (.host p) (BitVec.ofNat 32 (s.bar0 p p off)))) s
  else a.data.zipIdx.foldl (fun s e =>
    if a.enables e.2 = 15 then s.writeBar p (a.addr.toNat + 4 * e.2) e.1 else s.onPart p (·.setErr 0)) s

/-- The two DWords of a QWord lie in different ranges of what the guard checks, as those at EVC_DOORBELL do (R437). -/
def State.splits (s : State) (who : Requester) (oks : List Bool) (a : Nat) : Bool :=
  (oks.any id && !oks.all id) || (oks.length == 2 && s.reqCode who ∈ [0x12, 0x13] && !isVendor who && a == ctlEvc)

/-- An access in control space (R437, R510): a narrower write is judged and dropped. -/
def State.ctlAccess (s : State) (who : Requester) (a : RegAccess) : State :=
  if !accSized a || !a.aligned then s.busError who a.addr.toNat
  else
    let k : AccKind := if a.isRead then .read else .write
    let l := latchOf who
    let parts := a.data.zipIdx.map fun e => (e.2, e.1, s.controlOk who k (a.addr.toNat + 4 * e.2) e.1.toNat)
    let t := parts.foldl (fun (t : State) e =>
      let at_ := a.addr.toNat + 4 * e.1
      if a.isRead then
        if e.2.2 && !s.taskBarred who at_ then (t.latchCtl l at_).emit (.regData who (BitVec.ofNat 32 (t.ctl l at_))) else t.emit (.regData who 0)
      else if e.2.2 && a.enables e.1 == 15 && !s.taskBarred who at_ then t.writeCtl who at_ e.2.1
      else t) s
    match parts.find? fun e => !e.2.2 with
    | none => t
    | some e =>
      let first := a.addr.toNat + ((a.bytes.find? fun b => b / 4 == e.1).getD (4 * e.1))
      (t.violation (pairOf who) (s.splits who (parts.map (·.2.2)) a.addr.toNat) false k 1 (s.reqCode who) first).busError who first

/-- REGISTER_WRITE. -/
def execRegisterWrite (who : Requester) (acc : RegAccess) (s : State) : Res :=
  match who with
  | .host p => .next (s.barAccess p acc)
  | _ => .next (s.ctlAccess who acc)

end Sys2Proof.Machine
end

