-- ==== Sys2Proof/Machine/WindowCmd.lean ====
section
/-! DEFINITION. Window commands (R170, R171, R181, R182, R501) and WRITE_FENCE (R202). -/

namespace Sys2Proof.Machine

def windowObject (e : BitVec 512) : List (Bool × Nat) := [objectCheck e 0 255]

/-- Accesses accepted through a window of partition p are in progress: bridge items, the guest's command, guest writes not yet sent. -/
def State.windowBusy (s : State) (p w : Nat) : Bool :=
  let waits := fun (x : GuestWait) => match x with
    | .read c _ => c.window == w
    | .semaphore c => c.window == w
    | .posted c => c.window == w
    | .room c => c.window == w
  (s.bridge p).items.any (fun it => it.windows.contains w) || (s.bridge p).zeroReads.any (fun z => z.window == w) || (s.bridge p).guestPosted.any (fun g => g.window == w)
    || s.segs.any fun x => x.2.tenure.any fun t => t.part == p && t.wait.any waits

/-- WINDOW_CREATE; an index that a destroyed window's accesses still hold reads DRAINING (R29, log entry 6). -/
def execWindowCreate (p : PartId) (r : RingId) (s : State) : Res :=
  ringCmd s p r 0x40 false [(bitPos 0x10 0, 1)] windowObject fun s e =>
    let k := entryObject e
    checked s [((s.win p k).map fun w => replyConflict typeWindow w.state.code k),
               failIf (s.windowBusy p k) (replyConflict typeWindow WinState.draining.code k)]
      (.reply (replyOk 0) (s.onBridge p fun b =>
        { b with windows := tblPut b.windows k { guest := entryField e 0x10 0 1 == 1 } }))

/-! ### WINDOW_SET (R181, R206, R501) -/

def windowLayout : List (Nat × Nat) :=
  [(bitPos 0x10 0, 64), (bitPos 0x18 0, 24), (bitPos 0x18 24, 5), (bitPos 0x1C 0, 6), (bitPos 0x1C 8, 5), (bitPos 0x1C 16, 8),
   (bitPos 0x1C 25, 1), (bitPos 0x1C 26, 1), (bitPos 0x1C 27, 2)]

/-- Fields of GEOM and ATTR (R215, R216). -/
def winSize (e : BitVec 512) : Nat := entryField e 0x18 24 5
def winCbase (e : BitVec 512) : Nat := entryField e 0x18 0 24
def winHold (e : BitVec 512) : Nat := entryField e 0x1C 16 8
def winPrefetch (e : BitVec 512) : Bool := entryField e 0x1C 26 1 == 1
def winForce (e : BitVec 512) : Bool := entryField e 0x1C 25 1 == 1
def winDrop (e : BitVec 512) : Nat := entryField e 0x1C 0 6 * 32 + entryField e 0x1C 8 5

/-- Step 1 of WINDOW_SET; what depends on KIND is judged where the window exists, what depends on S where SIZE_LOG2 gives one. -/
def windowChecks (s : State) (p : Nat) (e : BitVec 512) : List (Bool × Nat) :=
  let size := 2 ^ winSize e
  let sized := !outside (winSize e) 12 25
  let haddr := entryField e 0x10 0 64
  let kind := (s.win p (entryObject e)).map (·.guest)
  let host := kind == some false
  let guest := kind == some true
  windowObject e ++
  [((host && sized && (haddr % size != 0 || decide (s.bar2Size p < haddr + size))) || (guest && haddr % 4096 != 0), bitPos 0x10 0),
   (sized && winCbase e % (size / 2) != 0, bitPos 0x18 0), (!sized, bitPos 0x18 24),
   ((host && winHold e != 0) || (guest && outside (winHold e) 1 200), bitPos 0x1C 16),
   (guest && winForce e, bitPos 0x1C 25),
   ((guest && winPrefetch e) || (host && winPrefetch e && !winForce e && !(s.drop (winDrop e)).colant2), bitPos 0x1C 26),
   (entryField e 0x1C 27 2 == 3, bitPos 0x1C 27)]

def execWindowSet (p : PartId) (r : RingId) (s : State) : Res :=
  ringCmd s p r 0x41 false windowLayout (windowChecks s p) fun s e =>
    let k := entryObject e
    let g := winDrop e
    match s.win p k with
    | none => .reply replyNotOwner s
    | some w =>
      let onHost := fun (x : Option Reply) => if w.guest then none else x
      checked s [onHost (ownDrop s p g), onHost (notRetired s g), failIf (w.state != .disabled) (replyConflict typeWindow w.state.code k),
                 onHost (dropPresent s g)]
        (.reply (replyOk 0) (s.onWin p k fun w =>
          { w with isSet := true, haddr := BitVec.ofNat 64 (entryField e 0x10 0 64), sizeLog2 := winSize e, cbase := winCbase e,
                   swap := BitVec.ofNat 2 (entryField e 0x1C 27 2), prefetch := winPrefetch e, force := winForce e, hold := winHold e,
                   drop := g % 32, seg := g / 32, failCnt := 0, pfSuspended := false }))

/-! ### ENABLE, DISABLE, DESTROY (R170, R171, R182) -/

/-- Two windows of one kind overlap as R182 forbids. -/
def Window.overlaps (a b : Window) : Bool :=
  a.guest == b.guest &&
    (if a.guest then
      a.seg == b.seg && a.drop == b.drop && decide (a.cbase < b.cbase + 2 ^ b.sizeLog2 / 2) && decide (b.cbase < a.cbase + 2 ^ a.sizeLog2 / 2)
    else decide (a.haddr.toNat < b.haddr.toNat + 2 ^ b.sizeLog2) && decide (b.haddr.toNat < a.haddr.toNat + 2 ^ a.sizeLog2))

/-- An existing window of the partition, in a state. -/
def onNamedWindow (s : State) (p : Nat) (e : BitVec 512) (legal : WinState) (k : Nat → Window → CmdOut) : CmdOut :=
  let i := entryObject e
  match s.win p i with
  | none => .reply replyNotOwner s
  | some w => if w.state = legal then k i w else .reply (replyConflict typeWindow w.state.code i) s

def execWindowEnable (p : PartId) (r : RingId) (s : State) : Res :=
  ringCmd s p r 0x42 false [] windowObject fun s e =>
    onNamedWindow s p e .disabled fun i w =>
      let other := (s.bridge p).windows.find? fun x => x.1 != i && x.2.state != .disabled && x.2.overlaps w
      checked s [failIf (!w.isSet) (replyConflict typeWindow w.state.code i),
                 other.map fun x => replyConflict typeWindow x.2.state.code x.1]
        (.reply (replyOk 0) (s.onWin p i fun w => { w with state := .enabled }))

/-- The window is drained: DISABLED. -/
def State.drainedWindow (s : State) (p w : Nat) : State := s.onWin p w fun x => { x with state := .disabled }

def execWindowDisable (p : PartId) (r : RingId) (s : State) : Res :=
  ringCmd s p r 0x43 false [] windowObject fun s e =>
    onNamedWindow s p e .enabled fun i _ =>
      let s := (s.invalidate p i).onWin p i fun w => { w with state := .draining }
      if s.windowBusy p i then .hold (.drain i) s else .reply (replyOk 0) (s.drainedWindow p i)

/-- WINDOW_DRAINED: the last access accepted through the window has ended (R171). -/
def execWindowDrained (p : PartId) (r : RingId) (s : State) : Res :=
  match (s.ring p r).wait with
  | some (.drain w) => if s.windowBusy p w then .next s else .next ((s.drainedWindow p w).endWait p r (replyOk 0))
  | _ => .next s

def execWindowDestroy (p : PartId) (r : RingId) (s : State) : Res :=
  ringCmd s p r 0x44 false [] windowObject fun s e =>
    onNamedWindow s p e .disabled fun i _ =>
      .reply (replyOk 0) (s.onBridge p fun b => { b with windows := tblErase b.windows i })

/-! ### WRITE_FENCE (R158, R202) -/

/-- Posted writes of the partition that arrived before item number n. -/
def State.postedBefore (s : State) (p n : Nat) : List Nat :=
  ((s.bridge p).items.filter fun it => it.read.isNone && it.atomic.isNone && decide (it.id < n)).map (·.id)

/-- The fence's completion: at level 2 the failures since the last one (R202). -/
def State.fenceReply (s : State) (p : Nat) : Reply :=
  let l := (s.bridge p).fenceSeqs
  if (s.part p).level < 2 then {}
  else { res0 := l.length, res1 := some ((l.headD 0).toNat * 2 ^ 32 + (l.getLastD 0).toNat) }

def State.clearFence (s : State) (p : Nat) : State := s.onBridge p fun b => { b with fenceSeqs := [] }

def execWriteFence (p : PartId) (r : RingId) (s : State) : Res :=
  ringCmd s p r 0x45 false [] (fun e => [objectCheck e 0 0]) fun s _ =>
    let g := s.ring p r
    let mark := tblGet s.nextId g.announced ((g.fetched.map (·.index)).headD 0)
    match s.postedBefore p mark with
    | [] => .reply (s.fenceReply p) (s.clearFence p)
    | ids => .hold (.fence ids) s

/-- WRITE_FENCE_HOLDS: every covered write has been acknowledged or journalled. -/
def execWriteFenceHolds (p : PartId) (r : RingId) (s : State) : Res :=
  match (s.ring p r).wait with
  | some (.fence ids) =>
    if ids.any fun i => (s.item p i).isSome then .next s
    else .next ((s.clearFence p).endWait p r (s.fenceReply p))
  | _ => .next s

end Sys2Proof.Machine
end

