-- ==== Sys2Proof/Machine/Dispatch.lean ====
section
/-! DEFINITION. The dispatch: one arm for each command, a direct call of its meaning. -/

namespace Sys2Proof.Machine

def exec (i : Instr) (s : State) : Host.Outcome State Fault Refusal :=
  match i with
  | .hostWrite p off data firstBE lastBE => Sys2Proof.Machine.execHostWrite p off data firstBE lastBE s
  | .hostRead p off dwords firstBE lastBE tag => Sys2Proof.Machine.execHostRead p off dwords firstBE lastBE tag s
  | .zeroLengthRead p off tag => Sys2Proof.Machine.execZeroLengthRead p off tag s
  | .atomicOp p bar off kind bytes operand compare tag => Sys2Proof.Machine.execAtomicOp p bar off kind bytes operand compare tag s
  | .poisonedWrite p => Sys2Proof.Machine.execPoisonedWrite p s
  | .dmaReadCompletion id result => Sys2Proof.Machine.execDmaReadCompletion id result s
  | .linkReset x => Sys2Proof.Machine.execLinkReset x s
  | .partitionReady p => Sys2Proof.Machine.execPartitionReady p s
  | .functionLevelReset p => Sys2Proof.Machine.execFunctionLevelReset p s
  | .linkDegraded l speed width => Sys2Proof.Machine.execLinkDegraded l speed width s
  | .d3hotEntry p w => Sys2Proof.Machine.execD3hotEntry p w s
  | .d0Return w => Sys2Proof.Machine.execD0Return w s
  | .pmeResend p => Sys2Proof.Machine.execPmeResend p s
  | .pmeTurnOff l => Sys2Proof.Machine.execPmeTurnOff l s
  | .aspmL1Entry l => Sys2Proof.Machine.execAspmL1Entry l s
  | .busMasterEnableSet p reg value be => Sys2Proof.Machine.execBusMasterEnableSet p reg value be s
  | .msixUnmask p off write tag => Sys2Proof.Machine.execMsixUnmask p off write tag s
  | .registerWrite who acc => Sys2Proof.Machine.execRegisterWrite who acc s
  | .sqTailDoorbell p r v => Sys2Proof.Machine.execSqTailDoorbell p r v s
  | .cqHeadDoorbell p r v => Sys2Proof.Machine.execCqHeadDoorbell p r v s
  | .sqFetchRetry p r => Sys2Proof.Machine.execSqFetchRetry p r s
  | .adminRingEnable p v => Sys2Proof.Machine.execAdminRingEnable p v s
  | .heartbeat p => Sys2Proof.Machine.execHeartbeat p s
  | .heartbeatLapse p => Sys2Proof.Machine.execHeartbeatLapse p s
  | .openSession p r => Sys2Proof.Machine.execOpenSession p r s
  | .closeSession p r => Sys2Proof.Machine.execCloseSession p r s
  | .handback p r => Sys2Proof.Machine.execHandback p r s
  | .ringCreate p r => Sys2Proof.Machine.execRingCreate p r s
  | .ringDelete p r => Sys2Proof.Machine.execRingDelete p r s
  | .admissionQuery p r => Sys2Proof.Machine.execAdmissionQuery p r s
  | .streamCreate p r => Sys2Proof.Machine.execStreamCreate p r s
  | .streamStart p r => Sys2Proof.Machine.execStreamStart p r s
  | .streamFeed p r => Sys2Proof.Machine.execStreamFeed p r s
  | .streamFeedSpace p r => Sys2Proof.Machine.execStreamFeedSpace p r s
  | .streamStop p r => Sys2Proof.Machine.execStreamStop p r s
  | .streamDestroy p r => Sys2Proof.Machine.execStreamDestroy p r s
  | .streamQuery p r => Sys2Proof.Machine.execStreamQuery p r s
  | .dropQuery p r => Sys2Proof.Machine.execDropQuery p r s
  | .dropRestore p r => Sys2Proof.Machine.execDropRestore p r s
  | .dropRestoreEnd p r answers => Sys2Proof.Machine.execDropRestoreEnd p r answers s
  | .imageCreate p r => Sys2Proof.Machine.execImageCreate p r s
  | .imageWrite p r => Sys2Proof.Machine.execImageWrite p r s
  | .imageDestroy p r => Sys2Proof.Machine.execImageDestroy p r s
  | .layerSet p r => Sys2Proof.Machine.execLayerSet p r s
  | .surfaceSet p r => Sys2Proof.Machine.execSurfaceSet p r s
  | .surfaceQuery p r => Sys2Proof.Machine.execSurfaceQuery p r s
  | .canvasCreate p r => Sys2Proof.Machine.execCanvasCreate p r s
  | .canvasDestroy p r => Sys2Proof.Machine.execCanvasDestroy p r s
  | .commandReadEnd p r => Sys2Proof.Machine.execCommandReadEnd p r s
  | .windowCreate p r => Sys2Proof.Machine.execWindowCreate p r s
  | .windowSet p r => Sys2Proof.Machine.execWindowSet p r s
  | .windowEnable p r => Sys2Proof.Machine.execWindowEnable p r s
  | .windowDisable p r => Sys2Proof.Machine.execWindowDisable p r s
  | .windowDrained p r => Sys2Proof.Machine.execWindowDrained p r s
  | .windowDestroy p r => Sys2Proof.Machine.execWindowDestroy p r s
  | .writeFence p r => Sys2Proof.Machine.execWriteFence p r s
  | .writeFenceHolds p r => Sys2Proof.Machine.execWriteFenceHolds p r s
  | .calWrite p r => Sys2Proof.Machine.execCalWrite p r s
  | .calDiscard p r => Sys2Proof.Machine.execCalDiscard p r s
  | .calCommit p r => Sys2Proof.Machine.execCalCommit p r s
  | .gateListCreate p r => Sys2Proof.Machine.execGateListCreate p r s
  | .gateListWrite p r => Sys2Proof.Machine.execGateListWrite p r s
  | .gateListStart p r => Sys2Proof.Machine.execGateListStart p r s
  | .gateListStop p r => Sys2Proof.Machine.execGateListStop p r s
  | .gateListDestroy p r => Sys2Proof.Machine.execGateListDestroy p r s
  | .shaperCreate p r => Sys2Proof.Machine.execShaperCreate p r s
  | .shaperSet p r => Sys2Proof.Machine.execShaperSet p r s
  | .shaperDestroy p r => Sys2Proof.Machine.execShaperDestroy p r s
  | .guardWrite p r => Sys2Proof.Machine.execGuardWrite p r s
  | .guardSwap p r => Sys2Proof.Machine.execGuardSwap p r s
  | .guardQuery p r => Sys2Proof.Machine.execGuardQuery p r s
  | .timebaseTick => Sys2Proof.Machine.execTimebaseTick s
  | .ptpMessage m => Sys2Proof.Machine.execPtpMessage m s
  | .ppsEdge stampNs => Sys2Proof.Machine.execPpsEdge stampNs s
  | .referenceLoss => Sys2Proof.Machine.execReferenceLoss s
  | .srcWrite who v => Sys2Proof.Machine.execSrcWrite who v s
  | .tbRateWrite who v => Sys2Proof.Machine.execTbRateWrite who v s
  | .stepGo who v => Sys2Proof.Machine.execStepGo who v s
  | .stepApply => Sys2Proof.Machine.execStepApply s
  | .ppsOut => Sys2Proof.Machine.execPpsOut s
  | .tbTimeLoRead who => Sys2Proof.Machine.execTbTimeLoRead who s
  | .pathDelayRemeasure g turnaroundNs => Sys2Proof.Machine.execPathDelayRemeasure g turnaroundNs s
  | .segmentReset seg => Sys2Proof.Machine.execSegmentReset seg s
  | .segmentEnumeration seg findings => Sys2Proof.Machine.execSegmentEnumeration seg findings s
  | .negotiation g answers => Sys2Proof.Machine.execNegotiation g answers s
  | .negotiationFailWait g answer => Sys2Proof.Machine.execNegotiationFailWait g answer s
  | .dropRenewal g answers => Sys2Proof.Machine.execDropRenewal g answers s
  | .colantResponse seg answer => Sys2Proof.Machine.execColantResponse seg answer s
  | .colantTimeout seg => Sys2Proof.Machine.execColantTimeout seg s
  | .attnAsserted seg => Sys2Proof.Machine.execAttnAsserted seg s
  | .pollRound seg => Sys2Proof.Machine.execPollRound seg s
  | .statReceived seg => Sys2Proof.Machine.execStatReceived seg s
  | .strayAttention seg => Sys2Proof.Machine.execStrayAttention seg s
  | .stuckAttn seg => Sys2Proof.Machine.execStuckAttn seg s
  | .noAnswerReset seg => Sys2Proof.Machine.execNoAnswerReset seg s
  | .cycleStart seg => Sys2Proof.Machine.execCycleStart seg s
  | .calendarSwap seg => Sys2Proof.Machine.execCalendarSwap seg s
  | .linkHoldWindow seg => Sys2Proof.Machine.execLinkHoldWindow seg s
  | .slotStart seg k => Sys2Proof.Machine.execSlotStart seg k s
  | .whistle seg k => Sys2Proof.Machine.execWhistle seg k s
  | .grant seg k => Sys2Proof.Machine.execGrant seg k s
  | .guestCommand seg words => Sys2Proof.Machine.execGuestCommand seg words s
  | .guestReadCompletion seg result => Sys2Proof.Machine.execGuestReadCompletion seg result s
  | .guestPostedEntry seg => Sys2Proof.Machine.execGuestPostedEntry seg s
  | .holdCeiling seg => Sys2Proof.Machine.execHoldCeiling seg s
  | .guestReturn seg => Sys2Proof.Machine.execGuestReturn seg s
  | .tenureEnd seg => Sys2Proof.Machine.execTenureEnd seg s
  | .sync seg => Sys2Proof.Machine.execSync seg s
  | .presentationInstant seg => Sys2Proof.Machine.execPresentationInstant seg s
  | .arbitrationPhase seg => Sys2Proof.Machine.execArbitrationPhase seg s
  | .wheelBucket p sh => Sys2Proof.Machine.execWheelBucket p sh s
  | .keepaliveOverdue g => Sys2Proof.Machine.execKeepaliveOverdue g s
  | .schArbFreeze who seg v => Sys2Proof.Machine.execSchArbFreeze who seg v s
  | .schArbClassWrite who seg v => Sys2Proof.Machine.execSchArbClassWrite who seg v s
  | .schArbLeashWrite who seg n v => Sys2Proof.Machine.execSchArbLeashWrite who seg n v s
  | .schArbTenureWrite who seg v => Sys2Proof.Machine.execSchArbTenureWrite who seg v s
  | .gateBaseReached k => Sys2Proof.Machine.execGateBaseReached k s
  | .gateEntryDue k => Sys2Proof.Machine.execGateEntryDue k s
  | .gateBaseLoRead p => Sys2Proof.Machine.execGateBaseLoRead p s
  | .gateNextLoRead p => Sys2Proof.Machine.execGateNextLoRead p s
  | .composeInstant g => Sys2Proof.Machine.execComposeInstant g s
  | .composePassEnd g => Sys2Proof.Machine.execComposePassEnd g s
  | .composeLate g => Sys2Proof.Machine.execComposeLate g s
  | .waferJobStart g k => Sys2Proof.Machine.execWaferJobStart g k s
  | .waferJobEnd lane => Sys2Proof.Machine.execWaferJobEnd lane s
  | .waferLate g k => Sys2Proof.Machine.execWaferLate g k s
  | .wafDropRefresh who v => Sys2Proof.Machine.execWafDropRefresh who v s
  | .pictureDecoded slot info => Sys2Proof.Machine.execPictureDecoded slot info s
  | .streamPauseEnd slot => Sys2Proof.Machine.execStreamPauseEnd slot s
  | .coreUpset n slot => Sys2Proof.Machine.execCoreUpset n slot s
  | .stale p => Sys2Proof.Machine.execStale p s
  | .prefetchExpiry p w => Sys2Proof.Machine.execPrefetchExpiry p w s
  | .claim p => Sys2Proof.Machine.execClaim p s
  | .release p => Sys2Proof.Machine.execRelease p s
  | .semaphoreExpiry p => Sys2Proof.Machine.execSemaphoreExpiry p s
  | .brgJrnAckWrite p v => Sys2Proof.Machine.execBrgJrnAckWrite p v s
  | .doorbell who v => Sys2Proof.Machine.execDoorbell who v s
  | .holdoffExpiry grp => Sys2Proof.Machine.execHoldoffExpiry grp s
  | .deliveryWindowClose => Sys2Proof.Machine.execDeliveryWindowClose s
  | .evcMaskWrite who v => Sys2Proof.Machine.execEvcMaskWrite who v s
  | .evcVectorWrite p v => Sys2Proof.Machine.execEvcVectorWrite p v s
  | .evcSrcAck p v => Sys2Proof.Machine.execEvcSrcAck p v s
  | .evcGrpHoldoffWrite who grp v => Sys2Proof.Machine.execEvcGrpHoldoffWrite who grp v s
  | .evcRouteWrite who v => Sys2Proof.Machine.execEvcRouteWrite who v s
  | .evcCoreClaim who c => Sys2Proof.Machine.execEvcCoreClaim who c s
  | .evcImaskWrite who c v => Sys2Proof.Machine.execEvcImaskWrite who c v s
  | .evcPcntWrite who c v => Sys2Proof.Machine.execEvcPcntWrite who c v s
  | .grdEntrySelWrite who b v => Sys2Proof.Machine.execGrdEntrySelWrite who b v s
  | .grdEntryLoad who b v => Sys2Proof.Machine.execGrdEntryLoad who b v s
  | .grdBankSwap who b v => Sys2Proof.Machine.execGrdBankSwap who b v s
  | .grdCapClear who b v => Sys2Proof.Machine.execGrdCapClear who b v s
  | .grdCapAddrLoRead who b => Sys2Proof.Machine.execGrdCapAddrLoRead who b s
  | .grdSegEnWrite who seg v => Sys2Proof.Machine.execGrdSegEnWrite who seg v s
  | .stickyClear who addr v => Sys2Proof.Machine.execStickyClear who addr v s
  | .fltFirstLoRead who => Sys2Proof.Machine.execFltFirstLoRead who s
  | .bucketStart cls => Sys2Proof.Machine.execBucketStart cls s
  | .coalesceIntervalEnd isFault cls index => Sys2Proof.Machine.execCoalesceIntervalEnd isFault cls index s
  | .segmentRestore who v => Sys2Proof.Machine.execSegmentRestore who v s
  | .coreRestore who v => Sys2Proof.Machine.execCoreRestore who v s
  | .fltLogCfgEn p v => Sys2Proof.Machine.execFltLogCfgEn p v s
  | .fltLogHeadWrite p v => Sys2Proof.Machine.execFltLogHeadWrite p v s
  | .powerFailWarning lineDv => Sys2Proof.Machine.execPowerFailWarning lineDv s
  | .mainsRestored => Sys2Proof.Machine.execMainsRestored s
  | .dcRegulationLoss => Sys2Proof.Machine.execDcRegulationLoss s
  | .mainsCycle lineDv => Sys2Proof.Machine.execMainsCycle lineDv s
  | .psuLimitChange quarterWatts => Sys2Proof.Machine.execPsuLimitChange quarterWatts s
  | .powerGrantPeriod requests draws => Sys2Proof.Machine.execPowerGrantPeriod requests draws s
  | .thermalWarning tenths => Sys2Proof.Machine.execThermalWarning tenths s
  | .thermalTrip tenths => Sys2Proof.Machine.execThermalTrip tenths s
  | .thermalRestart tenths => Sys2Proof.Machine.execThermalRestart tenths s
  | .fanFailure m failed => Sys2Proof.Machine.execFanFailure m failed s
  | .memoryError addr kind => Sys2Proof.Machine.execMemoryError addr kind s
  | .vendorCoreRestart c => Sys2Proof.Machine.execVendorCoreRestart c s
  | .vendorCoreRunning c => Sys2Proof.Machine.execVendorCoreRunning c s
  | .crcReport seg => Sys2Proof.Machine.execCrcReport seg s
  | .thumbnailDue g => Sys2Proof.Machine.execThumbnailDue g s
  | .captureResponse seg => Sys2Proof.Machine.execCaptureResponse seg s
  | .chunkResponse seg => Sys2Proof.Machine.execChunkResponse seg s
  | .thumbnailEncoded g bitstreamLens => Sys2Proof.Machine.execThumbnailEncoded g bitstreamLens s
  | .telemetryDue g => Sys2Proof.Machine.execTelemetryDue g s
  | .telemetryResponse seg => Sys2Proof.Machine.execTelemetryResponse seg s
  | .rtvRingCfgEn p v => Sys2Proof.Machine.execRtvRingCfgEn p v s
  | .rtvRingHeadWrite p v => Sys2Proof.Machine.execRtvRingHeadWrite p v s
  | .rtvDropCfgWrite p v => Sys2Proof.Machine.execRtvDropCfgWrite p v s
  | .coreStart c => Sys2Proof.Machine.execCoreStart c s
  | .ccTaskGo c v => Sys2Proof.Machine.execCcTaskGo c v s
  | .taskExit c cause => Sys2Proof.Machine.execTaskExit c cause s
  | .kick c v => Sys2Proof.Machine.execKick c v s
  | .watchdogHalf c => Sys2Proof.Machine.execWatchdogHalf c s
  | .watchdogExpiry c => Sys2Proof.Machine.execWatchdogExpiry c s
  | .customerRestart c => Sys2Proof.Machine.execCustomerRestart c s
  | .ccFbPublish c v => Sys2Proof.Machine.execCcFbPublish c v s
  | .ccTimer c n => Sys2Proof.Machine.execCcTimer c n s
  | .ccTmrLoWrite c n v => Sys2Proof.Machine.execCcTmrLoWrite c n v s
  | .ccTmrLoRead who c n => Sys2Proof.Machine.execCcTmrLoRead who c n s
  | .dcGood serviceModePinLow rtcNs => Sys2Proof.Machine.execDcGood serviceModePinLow rtcNs s
  | .startUpComplete => Sys2Proof.Machine.execStartUpComplete s
  | .bootCalendarInstall seg => Sys2Proof.Machine.execBootCalendarInstall seg s
  | .standbyPageCopy => Sys2Proof.Machine.execStandbyPageCopy s
  | .trialTimeout => Sys2Proof.Machine.execTrialTimeout s
  | .trialEnd => Sys2Proof.Machine.execTrialEnd s
  | .mapWrite m formatOk => Sys2Proof.Machine.execMapWrite m formatOk s
  | .mapRead => Sys2Proof.Machine.execMapRead s
  | .mapFactory => Sys2Proof.Machine.execMapFactory s
  | .mapCapture => Sys2Proof.Machine.execMapCapture s
  | .fwWrite img => Sys2Proof.Machine.execFwWrite img s
  | .fwActivate => Sys2Proof.Machine.execFwActivate s
  | .fwCommit fuse => Sys2Proof.Machine.execFwCommit fuse s
  | .ccWrite c img => Sys2Proof.Machine.execCcWrite c img s
  | .ccActivate c => Sys2Proof.Machine.execCcActivate c s
  | .calLoad g w => Sys2Proof.Machine.execCalLoad g w s
  | .calRevert g => Sys2Proof.Machine.execCalRevert g s
  | .pageWrite k page => Sys2Proof.Machine.execPageWrite k page s
  | .restartCold => Sys2Proof.Machine.execRestartCold s
  | .restartWarm => Sys2Proof.Machine.execRestartWarm s
  | .segReset seg => Sys2Proof.Machine.execSegReset seg s
  | .segAccess g acc => Sys2Proof.Machine.execSegAccess g acc s
  | .coreRun c run => Sys2Proof.Machine.execCoreRun c run s
  | .flt op => Sys2Proof.Machine.execFlt op s
  | .trace => Sys2Proof.Machine.execTrace s
  | .store => Sys2Proof.Machine.execStore s
  | .attnReleased seg => Sys2Proof.Machine.execAttnReleased seg s
  | .powerFailWarningClear => Sys2Proof.Machine.execPowerFailWarningClear s
  | .thermalWarningClear tenths => Sys2Proof.Machine.execThermalWarningClear tenths s
  | .dhcpAnswer port addr prefixLen gateway => Sys2Proof.Machine.execDhcpAnswer port addr prefixLen gateway s
  | .dhcpRequestTimer port => Sys2Proof.Machine.execDhcpRequestTimer port s
  | .leaseLost port => Sys2Proof.Machine.execLeaseLost port s
  | .arpIcmpEchoRequest port query payload => Sys2Proof.Machine.execArpIcmpEchoRequest port query payload s
  | .servicePortClient opening chainOk => Sys2Proof.Machine.execServicePortClient opening chainOk s

end Sys2Proof.Machine
end

