-- ==== Sys2Proof/Machine/Views.lean ====
section
/-! DEFINITION. What the unit shows without a command: the identity and fixed capabilities of its functions (R117, R120, R121, R125, R128, R131),
its indicators (R49), its fan speed (R34) and the cable presence of its host ports (R41). -/

namespace Sys2Proof.Machine

/-! ### Configuration space (R117, R120, R121, R125, R128, R131) -/

/-- The identity of a function (R120). -/
structure Identity where
  vendor : W16
  subsystemVendor : W16
  device : W16
  revision : Byte
  classCode : BitVec 24
  subsystem : W16
  headerType : Byte
  interruptPin : Byte
  deriving DecidableEq, Repr

/-- The identity that partition p's function presents; none where the port's mode leaves it absent (R116, R120). -/
def State.identity (s : State) (p : Nat) : Option Identity :=
  if s.map.hasPart p then
    some { vendor := 0x1F6E, subsystemVendor := 0x1F6E, device := 0x6432, revision := Config.siliconRev, classCode := 0x048000,
           subsystem := BitVec.ofNat 16 (0x6400 + p), headerType := if s.map.mode (p / 2) = 1 then 0x80 else 0x00, interruptPin := 0 }
  else none

/-- Size in bytes of BAR0, BAR2 and BAR4 (R121). -/
def State.barSize (s : State) (p : Nat) : Fin 3 → Nat
  | 0 => 2 ^ 16
  | 1 => s.bar2Size p
  | 2 => 2 ^ 13

/-- A BAR pair as configuration space reads it: the address bits above its size, 64-bit memory, not prefetchable (R121). -/
def State.barRead64 (s : State) (p : Nat) (n : Fin 3) : W64 :=
  BitVec.ofNat 64 ((tblGet 0 (s.part p).bars n).toNat / s.barSize p n * s.barSize p n + 4)

/-- The capabilities that no command changes: Max Payload Size in bytes, Max Read Request Size in bytes, outstanding requests, Completion Timeout
ranges A and B and its disabling, MSI-X table size field, table and Pending Bit Array (BIR, offset), No_Soft_Reset, PME support from D0 and
D3hot, L0s, ASPM L1 with its exit latency in µs (R117, R125, R128, R131). -/
structure Capabilities where
  maxPayload : Nat := 512
  maxReadRequest : Nat := 4096
  outstanding : Nat := 256
  timeoutRangeA : Bool := true
  timeoutRangeB : Bool := true
  timeoutDisable : Bool := true
  advancedErrors : Bool := true
  ecrc : Bool := true
  tableSize : BitVec 11 := 0x0FF
  table : Nat × Nat := (4, 0x0000)
  pendingBits : Nat × Nat := (4, 0x1000)
  noSoftReset : Bool := true
  pmeD0 : Bool := true
  pmeD3hot : Bool := true
  l0s : Bool := false
  aspmL1 : Bool := true
  l1Exit : Nat × Nat := (4, 8)
  deriving DecidableEq, Repr

/-- The unit asserts cable presence to the host on every port and supplies no reference clock (R41). -/
def cablePresent (_l : LinkId) : Bool := true
def suppliesRefClock (_l : LinkId) : Bool := false

/-! ### Indicators (R49) -/

/-- What an indicator shows: a colour, steady or flashing at a rate in Hz. -/
inductive Light where
  | off | green | amber | red
  | greenFlash (hz : Nat)
  | amberFlash (hz : Nat)
  deriving DecidableEq, Repr

/-- POWER. A power-fail warning shows before the phase; after a thermal trip, and between a restart or rollback and its DC_GOOD, the indicator is off, as
without DC power (log entry 102). -/
def State.powerLight (s : State) : Light :=
  match s.boot.phase with
  | .off | .tripped => .off
  | .starting => if s.plant.warn then .amber else .greenFlash 1
  | .service => if s.plant.warn then .amber else .amberFlash 1
  | .running => if s.plant.warn then .amber else .green

/-- ALARM: steady red while the relay is released. -/
def State.alarmLight (s : State) : Light := if s.relay then .off else .red

/-- TIME. A thermal warning shows before the timebase; acquiring, and free-running, once it has been locked shows as holdover (log
entry 102). -/
def State.timeLight (s : State) : Light :=
  if (s.faultRec 0x003).live then .amberFlash 1
  else
    match s.tb.state with
    | .locked => .green
    | .holdover => .amber
    | .freeRun | .acquiring => if s.tb.lockedEver then .amber else .off

/-- Fan modules failed or absent. -/
def Plant.fansFailed (x : Plant) : Nat := ((List.range 4).filter fun m => tblGet false x.fans m).length

/-- FAN. -/
def State.fanLight (s : State) : Light :=
  if s.plant.fansFailed = 0 then .green else if s.plant.fansFailed = 1 then .amber else .amberFlash 4

/-- The link that serves a port half: in the x8 modes both halves are one link's (R41, R116). -/
def State.halfLink (s : State) (half : LinkId) : Nat := if s.map.mode (half / 2) = 2 then half else half / 2 * 2

/-- H0–H3, one indicator for each port half. -/
def State.portLight (s : State) (half : LinkId) : Light :=
  let ps := s.map.partsOf (s.halfLink half)
  if !ps.any fun p => (s.part p).linkUp then .off
  else if ps.any fun p => (s.part p).degraded then .amber else .green

/-- A segment's indicator: no drop enumerated, a segment fault, RETIRED drops, or all in service (log entry 102). -/
def State.segLight (s : State) (i : SegId) : Light :=
  let found := s.drops.filter fun e => e.1 / 32 == i.val && e.2.found
  if found.isEmpty then .off
  else if (s.seg i).retired || (s.faultRec (0x040 + i)).live then .amber
  else if found.any fun e => e.2.state == .retired then .greenFlash 1
  else .green

/-- The fan speed follows the hottest measured temperature, which is the junction's (R34). -/
def Plant.fanSpeed (x : Plant) : Nat := Config.fanSpeed x.junction

end Sys2Proof.Machine
end

