-- ==== Sys2Proof/Safety.lean ====
section
/-! DEFINITION. What counts as a safe run, and the words the statements use: the tables' canonical form, what completing a ring command
leaves as it is, and the completion entry it writes. -/

namespace Sys2Proof

open Sys2Proof.Machine

/-- The step at s answers a next state. -/
def Safe (s : State) : Prop := ∃ t, step s = .next t

/-- The first k steps from s all answer a next state. -/
def SafeFor : Nat → State → Prop
  | 0, _ => True
  | k + 1, s => ∃ t, step s = .next t ∧ SafeFor k t

end Sys2Proof

namespace Sys2Proof.Machine

/-- No path delay of a drop that the unit addresses is older than 60 s (R65): what the sender of PATH_DELAY_REMEASURE keeps. -/
def State.delaysFresh (s : State) : Bool :=
  s.drops.all fun e => !e.2.found || e.2.state == .retired || e.2.negoFail.isSome || !(s.seg (e.1 / 32)).clk || !s.past e.2.pMeasTick (ticksOfS 60)

/-- Every table of the state lists its indices in strictly rising order. -/
def State.Rising (s : State) : Prop :=
  tblRising s.parts = true ∧ tblRising s.segs = true ∧ tblRising s.drops = true ∧ tblRising s.streams = true ∧
  tblRising s.cores = true ∧ tblRising s.canvases = true ∧ tblRising s.gates = true ∧ tblRising s.pairs = true ∧
  tblRising s.cc = true ∧ tblRising s.evc.sources = true ∧ tblRising s.evc.groups = true ∧ tblRising s.evc.cores = true

/-- The words of one link-hold window outside a Whistle period (R235): a KEEPALIVE to each of the drops in Colant-2 mode, and IDLE to its end. On a
mixed segment it is a Whistle period of its own with N = 67; where no drop is in Colant-2 mode it is IDLE at the base rate. Two ALIGN words go
before words at Colant-2 rate that follow words at Colant-1 rate (R78). -/
def holdWords (i : Nat) (mixed base2 rate2 : Bool) (drops : List Nat) : List Output :=
  let ks := drops.flatMap fun g => message [header opKeepalive (g % 32) 0] true
  let align := [alignWord, alignWord]
  if drops = [] then
    (if base2 && !rate2 then [.colant i 2 align] else [])
      ++ [.colant i (if base2 then 2 else 1) (List.replicate (if base2 then 72 else 36) idleWord)]
  else if mixed then
    [.colant i 1 (message [header opWhistle 0 0, 67] false), .colant i 2 (align ++ ks ++ List.replicate (64 - ks.length) idleWord),
     .colant i 1 [idleWord]]
  else
    let ws := if rate2 then ks else align ++ ks
    [.colant i 2 (ws ++ List.replicate (72 - ws.length) idleWord)]

/-- The state with ring r marked as the one partition p's interpreter served last (R154). -/
def State.atRing (s : State) (p r : Nat) : State := s.onPart p fun x => { x with lastRing := r }

/-- The state with command c put at the front of the queue. -/
def State.withFront (s : State) (c : Instr) : State := { s with pending := c :: s.pending }

/-- From m to t only what completing ring commands of partition p touches may change: its rings, the ring served last, its held
completions, its link's idle state, its own unit sources' group, the outputs and the reads of host memory. -/
def RingOnly (p : Nat) (m t : State) : Prop :=
  t = { m with parts := t.parts, evc := t.evc, out := t.out, dma := t.dma, nextId := t.nextId } ∧
  (∀ q, q ≠ p → t.part q = m.part q) ∧
  t.part p = { m.part p with
    rings := (t.part p).rings, lastRing := (t.part p).lastRing, held := (t.part p).held,
    inL1 := (t.part p).inL1, idleTick := (t.part p).idleTick } ∧
  (∀ n, groupOf n ≠ 88 + p → t.source n = m.source n) ∧
  (∀ g, g ≠ 88 + p → t.group g = m.group g) ∧ t.evc.routeSel = m.evc.routeSel

/-- The completion entry of R149 for the oldest command of ring r, whose entry is e and SQ index i. -/
def completionOf (g : Ring) (e : BitVec 512) (i : Nat) (x : Reply) (valid : Nat) : List Byte :=
  recordBytes ([entryTag e, packFields [(entryOpcode e, 24), (x.status, 16), (g.sqHead, 0)]]
    ++ qword x.res0 ++ qword (x.res1.getD valid) ++ [x.detail, packFields [(b2n g.phase, 31), (i, 0)]])

/-- From m to t the oldest command of ring r is answered with x: its completion entry leaves at the ring's CQ tail, after everything
m has sent, or is held after the others while the function may not write (R129, R135, R149). -/
def Answered (p r : Nat) (x : Reply) (valid : Nat) (m t : State) : Prop :=
  ∃ c rest, (m.ring p r).fetched = c :: rest ∧
    (let g := m.ring p r
     let a := g.cqAddr.toNat + 32 * g.cqTail
     let bytes := completionOf g c.entry c.index x valid
     if (m.part p).dmaOk then ∃ more, t.out = m.out ++ .memWrite p a bytes :: more
     else ∃ more, (t.part p).held = (m.part p).held ++ { ring := r, addr := a, bytes := bytes } :: more)

/-- The numbers of a command's reads of these ranges, from number n on: each range's requests are numbered in order, and its read has the number
of the first (R117, R498). -/
def State.readNumbers (s : State) (p : Nat) : Nat → List (Nat × Nat) → List Nat
  | _, [] => []
  | n, x :: l => n :: s.readNumbers p (n + (s.requestsFor p x.1 x.2).length) l

/-- At s the oldest entry e of partition p's ring r is at the interpreter's turn with opcode op, and it passes steps 1 and 2 of R151:
no reserved bit and no field of its layout is out of range, and the session and ring rules hold. The guard lets the unit's doorbells pass (R403);
what becomes of those that it refuses is stated apart. -/
def Ready (s : State) (p r op : Nat) (e : BitVec 512) (ring0 : Bool) (layout : List (Nat × Nat)) (checks : List (Bool × Nat)) : Prop :=
  s.turn p r op = some e ∧ badField layout checks e = none ∧ firstFail (sessionCheck s p r op ring0) = none ∧ s.Rising ∧
    s.bellsPass = true

/-- Command i, run at s, has the effect that leads to m, answers the oldest command of ring r with x, and changes nothing else. -/
def Completes (p r : Nat) (i : Instr) (x : Reply) (s m : State) : Prop :=
  ∃ t, exec i s = .next t ∧ RingOnly p m t ∧ Answered p r x s.now m t

/-- Command i, run at s, completes as Completes says, and leaves what P says of the partition's rings and reads as well. -/
def CompletesWith (p r : Nat) (i : Instr) (x : Reply) (s m : State) (P : State → Prop) : Prop :=
  ∃ t, exec i s = .next t ∧ RingOnly p m t ∧ Answered p r x s.now m t ∧ P t

/-- Command i, run at s, has the effect that leads to m, and its ring goes on waiting for w; nothing else changes (R153). -/
def Holds (p r : Nat) (i : Instr) (w : Wait) (s m : State) : Prop :=
  ∃ t, exec i s = .next t ∧ RingOnly p m t ∧ (t.ring p r).wait = some w

end Sys2Proof.Machine
end

