-- ==== Sys2Proof/Certificates/Slice0/Obligations.lean ====
section
/-! DEFINITION. The statements for the provers. A ring command's statement says, with Completes (Sys2Proof/Safety.lean), that the command
runs, which state its effect leads to, what its completion entry says and that nothing but ring state changes beside the effect. -/

open Sys2Proof Sys2Proof.Machine

/-! ### The block as a whole -/

/-- The command at the front of the queue runs on the state with the queue's rest. That the unit idles with none waiting is the model's choice (log
entry 3). -/
def Obligations.StepRunsTheFrontCommand : Prop :=
  (∀ (c : Instr) (s : State), step (s.withFront c) = exec c s) ∧ (∀ s : State, s.pending = [] → step s = .next s)

/-- Every command at every state answers a next state: nothing is refused and nothing faults. That a row which is not due, or a ring command which is not
at its turn, leaves the state as it is, is the model's choice (log entry 4). -/
def Obligations.EveryCommandAnswersANextState : Prop := ∀ (c : Instr) (s : State), ∃ t, exec c s = .next t

/-- At reset the unit's tables of partitions, segments, drops, streams, codec cores, canvases, gate lists, bank pairs and customer cores and the event
controller's of sources, groups and control cores are in canonical form. -/
def Obligations.ResetTablesRise : Prop := State.reset.Rising

/-- Every step keeps the canonical form of those tables: indices strictly rising, so that no partition, segment, drop, stream, codec core, canvas, gate
list, bank pair, customer core, event source, group or control core is listed twice. -/
def Obligations.EveryStepKeepsTablesRising : Prop := ∀ s t : State, s.Rising → step s = .next t → t.Rising

/-! ### Sessions and rings (R141–R164) -/

/-- OPEN_SESSION on ring 0 in CLOSED with levels that meet the unit's (R157): OPEN at the level, the next session number, the heartbeat timer at HB_MS,
shaper 0 with its reset RATE and BURST, drops in FALLBACK returning; the completion names the level and the number. CLOSE_SESSION with no restore
running (R159): CLOSED at level 0, rings 1–15 ABSENT, no window and no shaper of the partition left. HANDBACK in LAPSED at an AT of 0 or at least 2 ms
ahead (R163): the session is OPEN, the timer restarts, each drop in FALLBACK returns at its first presentation instant at or after AT; RESULT is the
latest of these instants. -/
def Obligations.SessionsOpenCloseAndHandBack : Prop :=
  (∀ (p : PartId) (r : RingId) (s : State) (e : BitVec 512),
     Ready s p r 0x01 e true openLayout (openChecks e) → (s.part p).session = .closed → entryField e 0x10 0 8 ≤ 2 →
     1 ≤ entryField e 0x11 0 8 →
     let level := min 2 (entryField e 0x11 0 8)
     let hb := entryField e 0x14 0 32
     let m := ((s.atRing p r).composeFirst p).openSession p level hb (entryField e 0x12 0 8 == 1)
     Completes p r (.openSession p r) (replyOk (level + (nextSession (s.part p).sessNum).toNat * 256)) s m ∧
     (m.part p).session = .opened ∧ (m.part p).level = level ∧ (m.part p).sessNum = nextSession (s.part p).sessNum ∧
     (m.part p).hbMs = hb ∧ (m.part p).hbTick = s.tick ∧ (m.part p).shapers = tblPut (s.part p).shapers 0 { rate := 1000, burst := 1024 }) ∧
  (∀ (p : PartId) (r : RingId) (s : State) (e : BitVec 512),
     Ready s p r 0x02 e true [] [objectCheck e 0 0] → (s.part p).restoring = false →
     let m := (s.atRing p r).closeNow p
     CompletesWith p r (.closeSession p r) (replyOk 0) s m (fun t => ∀ k, k ≠ 0 → (t.ring p k).state = .absent) ∧
     (m.part p).session = .closed ∧ (m.part p).level = 0 ∧ (m.part p).shapers = [] ∧ (m.bridge p).windows = []) ∧
  (∀ (p : PartId) (r : RingId) (s : State) (e : BitVec 512),
     Ready s p r 0x03 e true [(bitPos 0x10 0, 64)] [objectCheck e 0 0] → (s.part p).session = .lapsed →
     (entryField e 0x10 0 64 = 0 ∨ s.now + 2000000 ≤ entryField e 0x10 0 64) →
     let t := if entryField e 0x10 0 64 = 0 then s.now + 2000000 else entryField e 0x10 0 64
     let m := ((((s.atRing p r).returnDrops p t).restartHeartbeat p).onPart p fun x => { x with session := .opened }).setLive
       (0x010 + 2 * p) false
     Completes p r (.handback p r) (replyOk (s.latestReturn p t)) s m ∧ (m.part p).session = .opened ∧ (m.part p).hbTick = s.tick)

/-- RING_CREATE of an ABSENT ring leaves it ACTIVE and empty with the entry's addresses and sizes; RING_DELETE of a ring none of whose commands is
fetched and whose completion entries are all written leaves it ABSENT (R141, R147); requests of its fetches that are on the link stay outstanding
there, with nothing waiting for them. That a held completion entry counts as one not yet written is the model's choice (log entry 100). -/
def Obligations.RingsAreCreatedAndDeleted : Prop :=
  (∀ (p : PartId) (r : RingId) (s : State) (e : BitVec 512),
    Ready s p r 0x04 e true ringLayout (ringChecks e) → (s.ring p (entryObject e)).state = .absent →
    CompletesWith p r (.ringCreate p r) (replyOk 0) s (s.atRing p r) fun t => t.ring p (entryObject e) =
      { state := .active, sqAddr := BitVec.ofNat 64 (entryField e 0x10 0 64), cqAddr := BitVec.ofNat 64 (entryField e 0x18 0 64),
        sqLog2 := entryField e 0x20 0 4, cqLog2 := entryField e 0x21 0 4 }) ∧
  (∀ (p : PartId) (r : RingId) (s : State) (e : BitVec 512),
    Ready s p r 0x05 e true [] [objectCheck e 1 15] → (s.ring p (entryObject e)).state ≠ .absent →
    (s.ring p (entryObject e)).fetched = [] → s.heldOn p (entryObject e) = 0 → tblRising (s.part p).rings = true →
    CompletesWith p r (.ringDelete p r) (replyOk 0) s ((s.atRing p r).dropReads p fun j => j == entryObject e) fun t =>
      (t.ring p (entryObject e)).state = .absent ∧ ∀ d ∈ t.dma, ∀ a n, d.purpose = .fetch p (entryObject e) a n → d.dropped = true)

/-! ### Streams (R165–R168, R268–R279) -/

/-- STREAM_CREATE of an unused index, where memory, a placement and admission are given (R151, R269–R271): the stream exists, IDLE, in a unit slot, on
the cores found, with its error window empty and its two sources at reset (R402); RES0 is its allocation, RES1 its slot and cores. STREAM_START of an
IDLE stream runs it and signals its status source; that the slot is the lowest free one (log entry 27), and that a stream which failed with its core is
placed anew at START (log entry 129), are the model's choices; STREAM_STOP of a RUNNING one empties and idles it and aborts the feeds that wait for its space; STREAM_DESTROY of an
IDLE or FAILED one ends it and answers its allocation (R165, R168, R289). -/
def Obligations.StreamsAreCreatedStartedAndEnded : Prop :=
  (∀ (p : PartId) (r : RingId) (s : State) (e : BitVec 512) (slot : Nat) (l : List Nat),
     Ready s p r 0x10 e false streamLayout (streamChecks e) →
     let u := s.atRing p r
     let x := { newStream p e with coreList := l, firstCore := l.headD 0, cores := l.length, firstUid := s.nextId }
     let m := u.makeStream slot x
     s.slotOf p (entryObject e) = none → s.freeSlot = some slot → u.fits x.alloc = true → u.indexHeld p (entryObject e) = false →
     u.place x.q x.lowDelay = some l → firstFail (m.admitStream p) = none →
     Completes p r (.streamCreate p r)
       { res0 := x.alloc, res1 := some (packFields [(slot, 0), (l.headD 0, 8), (l.length - 1, 12)]) } s m ∧
     m.stream slot = some x ∧ m.source (2048 + 2 * slot) = {} ∧ m.source (2049 + 2 * slot) = {} ∧ x.state = .idle) ∧
  (∀ (p : PartId) (r : RingId) (s : State) (e : BitVec 512) (slot : Nat) (x : Stream),
     s.slotOf p (entryObject e) = some slot → s.stream slot = some x →
     (Ready s p r 0x11 e false [] (streamObject e) → x.state = .idle →
       Completes p r (.streamStart p r) (replyOk 0) s ((((s.atRing p r).onStream slot (·.started s.now s.nextId)).recoverStream slot).signal (2048 + 2 * slot))) ∧
     (Ready s p r 0x13 e false [] (streamObject e) → x.state = .running ∨ x.state = .failed →
       let u := (s.atRing p r).composeFirst p
       Completes p r (.streamStop p r) (replyOk 0) s ((u.onStream slot (·.stopped)).abortFeeds slot) ∧
       ∀ y, u.stream slot = some y → ((u.onStream slot (·.stopped)).abortFeeds slot).stream slot = some y.stopped ∧ y.stopped.state = .idle ∧
         y.stopped.queue = [] ∧ y.stopped.avail = []) ∧
     (Ready s p r 0x14 e false [] (streamObject e) → x.state = .idle ∨ x.state = .failed →
       let m := ((s.atRing p r).composeFirst p).dropStream slot
       Completes p r (.streamDestroy p r) (replyOk x.alloc) s m ∧ m.stream slot = none))

/-- STREAM_FEED with inline descriptors that fit the free input space takes the space and reads each descriptor's bytes; one that does not fit waits on a
RUNNING stream until the space is free, and STREAM_FEED_SPACE then reads; one with a list reads the list, and with it COMMAND_READ_END goes on as with
inline descriptors (R166–R168, R276). COMMAND_READ_END goes on with the feed or the image write whose reads have all ended: the feed's access unit
enters its stream's queue, or the image takes its new pixels (R276, R301); CanvasesAndGateListsAreCreated has the other two opcodes that read. One read
for each descriptor is the model's choice (log entry 48). -/
def Obligations.FeedsAndCommandReads : Prop :=
  ((∀ (p : PartId) (r : RingId) (s : State) (e : BitVec 512) (slot : Nat) (x : Stream),
     Ready s p r 0x12 e false (feedLayout e) (feedChecks s p e) → feedIndirect e = false →
     s.slotOf p (entryObject e) = some slot → s.stream slot = some x → x.state = .idle ∨ x.state = .running →
     let n := descBytes (feedDescs e)
     let u := (s.atRing p r).onRing p r fun g => { g with descs := feedDescs e }
     (n ≤ x.inBuf - x.inUsed → (s.part p).dmaOk = true →
       let v := u.onStream slot fun x => { x with inUsed := x.inUsed + n }
       Holds p r (.streamFeed p r) (.reads (s.readNumbers p s.nextId (feedDescs e)) [] false) s v ∧
       (v.stream slot).map (·.inUsed) = some (x.inUsed + n)) ∧
     (x.inBuf - x.inUsed < n → n ≤ x.inBuf → x.state = .running → Holds p r (.streamFeed p r) (.feedSpace slot n) s u)) ∧
   (∀ (p : PartId) (r : RingId) (s : State) (e : BitVec 512) (slot : Nat) (x : Stream),
     Ready s p r 0x12 e false (feedLayout e) (feedChecks s p e) → feedIndirect e = true →
     s.slotOf p (entryObject e) = some slot → s.stream slot = some x → x.state = .idle ∨ x.state = .running → (s.part p).dmaOk = true →
     Holds p r (.streamFeed p r)
       (.reads (s.readNumbers p s.nextId [(entryField e 0x20 0 64, 16 * entryField e 0x18 0 8)]) [] false) s (s.atRing p r)) ∧
   (∀ (p : PartId) (r : RingId) (s : State) (slot n : Nat) (x : Stream),
     s.Rising → (s.ring p r).wait = some (.feedSpace slot n) → s.stream slot = some x → n ≤ x.inBuf - x.inUsed →
     (s.part p).dmaOk = true →
     Holds p r (.streamFeedSpace p r) (.reads (s.readNumbers p s.nextId (s.ring p r).descs) [] false) s
       (s.onStream slot fun x => { x with inUsed := x.inUsed + n }))) ∧
  (∀ (p : PartId) (r : RingId) (s : State) (got : List (Nat × List Byte)) (c : Fetched) (rest : List Fetched),
     s.Rising → (s.ring p r).wait = some (.reads [] got false) → (s.ring p r).fetched = c :: rest → s.interprets p = true →
     (∀ slot x l, entryOpcode c.entry = 0x12 → s.slotOf p (entryObject c.entry) = some slot → s.stream slot = some x →
       (s.ring p r).descs = [] → listDescs (gotBytes got) (feedCount c.entry) = some l → x.state ≠ .failed → (s.part p).dmaOk = true →
       let n := descBytes l
       (n ≤ x.inBuf - x.inUsed →
         Holds p r (.commandReadEnd p r) (.reads (s.readNumbers p s.nextId l) [] false) s
           (s.onStream slot fun x => { x with inUsed := x.inUsed + n })) ∧
       (x.inBuf - x.inUsed < n → n ≤ x.inBuf → x.state = .running → Holds p r (.commandReadEnd p r) (.feedSpace slot n) s s)) ∧
     (∀ slot x, entryOpcode c.entry = 0x12 → s.slotOf p (entryObject c.entry) = some slot → s.stream slot = some x →
       (s.ring p r).descs ≠ [] →
       let n := descBytes (s.ring p r).descs
       let y := x.feed c.entry (s.ring p r).validNs s.now n (gotBytes got) false
       let m := s.onStream slot fun _ => y
       exec (.commandReadEnd p r) s = .next (m.endWait p r (replyOk n)) ∧ m.stream slot = some y) ∧
     (∀ i, entryOpcode c.entry = 0x29 → (s.composeFirst p).image p (entryObject c.entry) = some i →
       let e := c.entry
       let new := (dwordsOf (gotBytes got)).map fun d => BitVec.ofNat 32 d
       let pix := putRect (i.pending.getD i.visible) i.width (entryField e 0x1C 0 16) (entryField e 0x1E 0 16) (entryField e 0x20 0 16) new
       let m := (s.composeFirst p).onImage p (entryObject e) fun i => { i with pending := some pix, completed := true }
       exec (.commandReadEnd p r) s = .next (m.endWait p r (replyOk (gotBytes got).length)) ∧
       m.image p (entryObject e) = some { i with pending := some pix, completed := true }))

/-! ### Queries -/

/-- ADMISSION_QUERY, STREAM_QUERY, SURFACE_QUERY and GUARD_QUERY write their record at the address given before they complete OK; with CLEAR set the
counters (the capture) of what was asked return to 0 (R290, R326, R376, R436). A SURFACE_QUERY of a drop that is being restored completes RETIRED
(R504, log entry 121). Each query record has 64 bytes (R290, R326, R376, R436). -/
def Obligations.QueriesWriteRecordsOf64Bytes : Prop :=
  (∀ (p : PartId) (r : RingId) (s : State) (e : BitVec 512),
     let u := s.atRing p r
     let a := entryField e 0x10 0 64
     let clear := entryField e 0x18 0 1 = 1
     (Ready s p r 0x06 e false addrLayout [objectCheck e 0 0, recordCheck e] →
       Completes p r (.admissionQuery p r) (replyOk 0) s (u.writeRecord p a (u.admissionRecord p))) ∧
     (∀ slot x, Ready s p r 0x15 e false [(bitPos 0x10 0, 64), (bitPos 0x18 0, 1)] [objectCheck e 0 255, recordCheck e] →
       s.slotOf p (entryObject e) = some slot → s.stream slot = some x →
       Completes p r (.streamQuery p r) (replyOk 0) s
         (if clear then (u.writeRecord p a (x.record slot)).onStream slot (·.clearCounters) else u.writeRecord p a (x.record slot))) ∧
     (Ready s p r 0x32 e false [(bitPos 0x10 0, 64), (bitPos 0x18 0, 1)] [objectCheck e 0 2047, recordCheck e] →
       s.owns p (entryObject e) = true →
       if (s.drop (entryObject e)).restoring then Completes p r (.surfaceQuery p r) replyRetired s u
       else Completes p r (.surfaceQuery p r) (replyOk 0) s
         (if clear then (u.writeRecord p a (u.surfaceRecord (entryObject e))).onDrop (entryObject e) fun d =>
             { d with sat := {}, composeLate := 0 }
          else u.writeRecord p a (u.surfaceRecord (entryObject e)))) ∧
     (Ready s p r 0x6A e false [(bitPos 0x10 0, 64), (bitPos 0x18 0, 1)] [objectCheck e 0 0, recordCheck e] →
       Completes p r (.guardQuery p r) (replyOk 0) s
         (if clear then (u.writeRecord p a (u.guardRecord p)).clearCapture p else u.writeRecord p a (u.guardRecord p)))) ∧
  (∀ (s : State) (p g slot : Nat) (x : Stream),
     (s.admissionRecord p).length = 64 ∧ (x.record slot).length = 64 ∧ (s.surfaceRecord g).length = 64 ∧ (s.guardRecord p).length = 64)

/-- DROP_QUERY of an owned drop clears its latched bits; for a drop that is not ABSENT the answer carries state code, status, modes, size and delay
(R503). DROP_RESTORE of an owned RETIRED drop holds its ring while the restore sequence runs; DROP_RESTORE_END completes it with the drop's new state
code, and with no exchange where the segment has been retired meanwhile (R456, R504). That it takes place in one step, once housekeeping has the wires
for the exchange and the 3 ms after a failed negotiation are over (R113, R243), and leaves the state as it is before, are the model's choices (log
entries 4 and 137). -/
def Obligations.DropsAreQueriedAndRestored : Prop :=
  (∀ (p : PartId) (r : RingId) (s : State) (e : BitVec 512) (x : Descriptor),
     Ready s p r 0x20 e false [] (dropObject e) → s.owns p (entryObject e) = true →
     let g := entryObject e
     let d := s.drop g
     let st := s.dropState g
     st ≠ .absent → d.desc = some x →
     Completes p r (.dropQuery p r)
       { res0 := packFields [(d.latched.toNat + d.lastStat.toNat * 2 ^ 13, 0), (x.caps.toNat, 16), (d.mode, 32), (st.code, 48)],
         res1 := some (packFields [(x.width.toNat, 0), (x.height.toNat, 16), (d.delay.getD 0, 32), (x.keepalive.toNat, 48)]) } s
       ((s.atRing p r).onDrop g fun d => { d with latched := 0 })) ∧
  ((∀ (p : PartId) (r : RingId) (s : State) (e : BitVec 512),
     let g := entryObject e
     Ready s p r 0x21 e false [] (dropObject e) → s.owns p g = true → (s.drop g).state = .retired → (s.seg (g / 32)).retired = false →
     (s.drop g).restoring = false →
     Holds p r (.dropRestore p r) (.restore g) s
       ((((s.atRing p r).clearWindow 4 g).markUnknown g).onDrop g fun d => { d with restoring := true })) ∧
   (∀ (p : PartId) (r : RingId) (s : State) (g : Nat) (x : Discovery),
     (s.ring p r).wait = some (.restore g) →
     let done := fun (u : State) =>
       let m := u.restored g x
       (m.endWait p r (replyOk (m.dropState g).code)).resumeClose p
     ((s.seg (g / 32)).retired = true → exec (.dropRestoreEnd p r x) s = .next (done s)) ∧
     ((s.seg (g / 32)).retired = false → s.quietOver g = true → ∀ u, s.beginExchange g (s.discoverCost g x) = some u →
       exec (.dropRestoreEnd p r x) s = .next (done u)) ∧
     ((s.seg (g / 32)).retired = false → s.quietOver g = false ∨ s.beginExchange g (s.discoverCost g x) = none →
       exec (.dropRestoreEnd p r x) s = .next s)))

/-! ### Images, layers, surfaces, canvases (R292–R304) -/

/-- IMAGE_CREATE of an unused index with pool left allocates an all-zero image; IMAGE_WRITE reads its lines, each by a read of its own, which is the
model's choice (log entry 48); IMAGE_DESTROY ends the image, blanks the pages bound to it and keeps its memory while passes begun with it read it
(R300–R302). -/
def Obligations.ImagesAreCreatedWrittenAndDestroyed : Prop :=
  ∀ (p : PartId) (r : RingId) (s : State) (e : BitVec 512),
    let k := entryObject e
    let u := s.atRing p r
    (Ready s p r 0x28 e false imageCreateLayout (imageCreateChecks e) → s.image p k = none →
      let w := entryField e 0x14 0 16
      let h := entryField e 0x16 0 16
      u.fits (imageAlloc w h) = true →
      Completes p r (.imageCreate p r) (replyOk (imageAlloc w h)) s (u.newId.2.onPart p fun x =>
        { x with images := tblPut x.images k {
            uid := s.nextId, format := entryField e 0x10 0 8, colour := entryField e 0x11 0 8, width := w, height := h,
            visible := List.replicate (w * h) 0, pending := none, completed := false } })) ∧
    (Ready s p r 0x29 e false imageWriteLayout (imageWriteChecks s p e) → (s.image p k).isSome → (s.part p).dmaOk = true →
      let lines := (List.range (entryField e 0x22 0 16)).map fun n =>
        (entryField e 0x10 0 64 + n * entryField e 0x18 0 32, 4 * entryField e 0x20 0 16)
      Holds p r (.imageWrite p r) (.reads (s.readNumbers p s.nextId lines) [] false) s u) ∧
    (∀ x, Ready s p r 0x2A e false [] [objectCheck e 0 1023] → (s.image p k).isSome → (u.composeFirst p).image p k = some x →
      let c := u.composeFirst p
      let h := c.holdGone p { bytes := imageAlloc x.width x.height, stream := none, readers := c.imageReaders x.uid }
      Completes p r (.imageDestroy p r) (replyOk 0) s ((h.orphanPages p .image k).onPart p fun y => { y with images := tblErase y.images k }))

/-- LAYER_SET on a drop's surface or on a canvas binds or empties one page of one layer where the composition still fits; SURFACE_SET sets the items
MASK names, on a canvas with BRIGHT on every member; a compose instant in the same tick and the gate list entries that are due come first (R242,
R293–R296). -/
def Obligations.LayersAndSurfacesAreSet : Prop :=
  ∀ (p : PartId) (r : RingId) (s : State) (e : BitVec 512),
    let k := entryObject e
    let u := (s.atRing p r).composeFirst p
    (∀ c, u.canvasOf p k = some c →
      (Ready s p r 0x30 e false layerLayout (layerChecks e) → entryField e 0x13 0 1 = 1 →
        let m := (u.onCanvas k fun c =>
          { c with surface := c.surface.setPage (entryField e 0x10 0 8) (entryField e 0x11 0 8) (layerPage e) }).recharge c.drops
        u.sourceOwned p (layerPage e) = true → firstFail (m.admitCompose p ((c.members.map (·.1)).headD 0 / 32)) = none →
        Completes p r (.layerSet p r) (replyOk 0) s m) ∧
      (Ready s p r 0x31 e false surfaceLayout [targetCheck e true] → entryField e 0x15 0 1 = 1 →
        Completes p r (.surfaceSet p r) (replyOk 0) s (c.drops.foldl (fun s g => (s.settleGates g).onSurf g (·.applyBright e))
          ((u.settleCanvas k c).onCanvas k fun c => { c with surface := c.surface.apply e })))) ∧
    (s.owns p k = true → (s.dropState k = .active ∨ s.dropState k = .fallback) →
    (Ready s p r 0x30 e false layerLayout (layerChecks e) → entryField e 0x13 0 1 = 0 →
      let m := (u.onSurf k fun f => f.setPage (entryField e 0x10 0 8) (entryField e 0x11 0 8) (layerPage e)).recharge [k]
      u.sourceOwned p (layerPage e) = true → firstFail (m.admitCompose p (k / 32)) = none →
      Completes p r (.layerSet p r) (replyOk 0) s m) ∧
    (Ready s p r 0x31 e false surfaceLayout [targetCheck e false] → entryField e 0x15 0 1 = 0 →
      Completes p r (.surfaceSet p r) (replyOk 0) s ((u.settleGates k).onSurf k fun f => (f.apply e).applyBright e)))

/-- CANVAS_CREATE and GATE_LIST_CREATE read their table first and wait for it (R498); CANVAS_DESTROY frees the members; and COMMAND_READ_END of a canvas
whose member table is one owned, present, free drop inside it creates the canvas (R303, R304). COMMAND_READ_END of a CANVAS_CREATE whose member table
is legal, whose members are owned, present, in no canvas, and whose composition is admitted creates the canvas and joins its members; of a
GATE_LIST_CREATE whose group holds owned drops it creates an IDLE list (R303, R502). -/
def Obligations.CanvasesAndGateListsAreCreated : Prop :=
  (∀ (p : PartId) (r : RingId) (s : State),
     (∀ e, s.Rising → s.bellsPass = true → s.turn p r 0x33 = some e → canvasReadable e = true → (s.part p).dmaOk = true →
       Holds p r (.canvasCreate p r) (.reads [s.nextId] [] false) s (s.atRing p r)) ∧
     (∀ e, s.Rising → s.bellsPass = true → s.turn p r 0x58 = some e → entryField e 0x18 0 3 = 0 → (s.part p).dmaOk = true →
       Holds p r (.gateListCreate p r) (.reads [s.nextId] [] false) s (s.atRing p r)) ∧
     (∀ e c, Ready s p r 0x34 e false [] [objectCheck e 0 63] → s.canvasOf p (entryObject e) = some c →
       let u := (s.atRing p r).composeFirst p
       let t := c.members.foldl (fun s m => s.onDrop m.1 fun d => { d with canvas := none }) u
       Completes p r (.canvasDestroy p r) (replyOk 0) s { t with canvases := tblErase t.canvases (entryObject e) })) ∧
  (∀ (p : PartId) (r : RingId) (s : State) (got : List (Nat × List Byte)) (c : Fetched) (rest : List Fetched),
     s.Rising → s.bellsPass = true → (s.ring p r).wait = some (.reads [] got false) → (s.ring p r).fetched = c :: rest →
     (s.part p).session ≠ .closed → s.boot.coreDown = [] →
     let e := c.entry
     let k := entryObject e
     (entryOpcode e = 0x33 → s.canvasOf p k = none → tblFind s.canvases k = none → canvasReadable e = true →
       let w := entryField e 0x10 0 16
       let h := entryField e 0x12 0 16
       let l := (memberTable (gotBytes got) (entryField e 0x14 0 16)).1
       (memberTable (gotBytes got) (entryField e 0x14 0 16)).2 = true → s.membersBad w h l = false →
       badField canvasLayout (canvasChecks e) e = none →
       (∀ m ∈ l, s.owns p m.1 = true ∧ (s.dropState m.1 = .active ∨ s.dropState m.1 = .fallback) ∧ (s.drop m.1).canvas = none) →
       let u := s.composeFirst p
       let m : State := { u with canvases := tblPut u.canvases k { part := p, width := w, height := h, members := l } }
       let m := (l.foldl (fun s x => s.onDrop x.1 fun d => { d with canvas := some k }) m).recharge (l.map (·.1))
       firstFail (m.admitCompose p ((l.map (·.1)).headD 0 / 32)) = none →
       Completes p r (.commandReadEnd p r) (replyOk 0) s m) ∧
     (entryOpcode e = 0x58 → s.gate k = none →
       let group := groupMap (gotBytes got)
       let cycle := entryField e 0x10 0 64
       badField gateCreateLayout (gateObject e) e = none → 1000000 ≤ cycle → cycle ≤ 604800000000000 → entryField e 0x18 0 3 = 0 →
       group ≠ [] → (∀ g ∈ group, s.owns p g = true) →
       Completes p r (.commandReadEnd p r) (replyOk 0) s { s with gates := tblPut s.gates k { part := p, cycle := cycle, group := group } }))

/-! ### Windows and fences (R170, R171, R181, R182, R202) -/

/-- A window command: created DISABLED at an index that no access of a destroyed window holds, set, enabled where it is set and overlaps no other,
disabled at once where nothing accepted through it is in progress and DRAINING until then otherwise, and destroyed (R170, R171, R181, R182). A host window and another host window of the partition that is not
DISABLED never share a BAR2 byte by WINDOW_ENABLE: an enabling that would is refused as a conflict with the other window (R182). -/
def Obligations.WindowsAreSetAndNeverOverlap : Prop :=
  (∀ (p : PartId) (r : RingId) (s : State) (e : BitVec 512),
     let k := entryObject e
     let u := s.atRing p r
     (Ready s p r 0x40 e false [(bitPos 0x10 0, 1)] (windowObject e) → s.win p k = none → s.windowBusy p k = false →
       Completes p r (.windowCreate p r) (replyOk 0) s (u.onBridge p fun b =>
         { b with windows := tblPut b.windows k { guest := entryField e 0x10 0 1 == 1 } })) ∧
     (∀ w, Ready s p r 0x41 e false windowLayout (windowChecks s p e) → s.win p k = some w → w.state = .disabled →
       (w.guest = true ∨ (s.owns p (winDrop e) = true ∧ (s.dropState (winDrop e) = .active ∨ s.dropState (winDrop e) = .fallback))) →
       Completes p r (.windowSet p r) (replyOk 0) s (u.onWin p k fun w =>
         { w with isSet := true, haddr := BitVec.ofNat 64 (entryField e 0x10 0 64), sizeLog2 := winSize e, cbase := winCbase e,
                  swap := BitVec.ofNat 2 (entryField e 0x1C 27 2), prefetch := winPrefetch e, force := winForce e, hold := winHold e,
                  drop := winDrop e % 32, seg := winDrop e / 32, failCnt := 0, pfSuspended := false })) ∧
     (∀ w, Ready s p r 0x42 e false [] (windowObject e) → s.win p k = some w → w.state = .disabled → w.isSet = true →
       ((s.bridge p).windows.find? fun x => x.1 != k && x.2.state != .disabled && x.2.overlaps w) = none →
       Completes p r (.windowEnable p r) (replyOk 0) s (u.onWin p k fun w => { w with state := .enabled })) ∧
     (∀ w, Ready s p r 0x43 e false [] (windowObject e) → s.win p k = some w → w.state = .enabled →
       let m := (u.invalidate p k).onWin p k fun w => { w with state := .draining }
       (m.windowBusy p k = false → Completes p r (.windowDisable p r) (replyOk 0) s (m.drainedWindow p k) ∧
         ((m.drainedWindow p k).win p k).map (·.state) = some .disabled) ∧
       (m.windowBusy p k = true → Holds p r (.windowDisable p r) (.drain k) s m ∧ (m.win p k).map (·.state) = some .draining)) ∧
     (∀ w, Ready s p r 0x44 e false [] (windowObject e) → s.win p k = some w → w.state = .disabled →
       Completes p r (.windowDestroy p r) (replyOk 0) s (u.onBridge p fun b => { b with windows := tblErase b.windows k }))) ∧
  (∀ (p : PartId) (r : RingId) (s : State) (e : BitVec 512) (w v : Window) (j : Nat),
     Ready s p r 0x42 e false [] (windowObject e) → s.win p (entryObject e) = some w → w.state = .disabled → w.isSet = true →
     ((s.bridge p).windows.find? fun x => x.1 != entryObject e && x.2.state != .disabled && x.2.overlaps w) = some (j, v) →
     exec (.windowEnable p r) s =
       .next (((s.atRing p r).complete p r { status := 1, detail := 0x0500 + v.state.code, res0 := j } s.now).settleRings p))

/-- WRITE_FENCE covers the posted writes that arrived before its doorbell: with none it completes at once, at level 2 with the number of failures since
the last fence and the first and last of their SEQs, below level 2 with zeros and its validation time; otherwise it waits for them (R158, R202). WINDOW_DRAINED completes the waiting WINDOW_DISABLE
once nothing accepted through the window is in progress, and leaves it DISABLED; until then nothing changes (R171). WRITE_FENCE_HOLDS does the same
for a fence once every covered write has ended (R202). -/
def Obligations.FencesAndDrainsWait : Prop :=
  (∀ (p : PartId) (r : RingId) (s : State) (e : BitVec 512),
     Ready s p r 0x45 e false [] [objectCheck e 0 0] →
     let mark := tblGet s.nextId (s.ring p r).announced (((s.ring p r).fetched.map (·.index)).headD 0)
     let l := (s.bridge p).fenceSeqs
     (s.postedBefore p mark = [] →
       Completes p r (.writeFence p r)
         (if (s.part p).level < 2 then {} else { res0 := l.length, res1 := some ((l.headD 0).toNat * 2 ^ 32 + (l.getLastD 0).toNat) }) s
         ((s.atRing p r).onBridge p fun b => { b with fenceSeqs := [] })) ∧
     (s.postedBefore p mark ≠ [] → Holds p r (.writeFence p r) (.fence (s.postedBefore p mark)) s (s.atRing p r))) ∧
  (∀ (p : PartId) (r : RingId) (s : State),
     (∀ w, (s.ring p r).wait = some (.drain w) →
       exec (.windowDrained p r) s = .next (if s.windowBusy p w then s
         else (s.onWin p w fun x => { x with state := .disabled }).endWait p r (replyOk 0))) ∧
     (∀ ids, (s.ring p r).wait = some (.fence ids) →
       exec (.writeFenceHolds p r) s = .next (if ids.any fun i => (s.item p i).isSome then s
         else (s.onBridge p fun b => { b with fenceSeqs := [] }).endWait p r (s.fenceReply p))))

/-! ### Calendars, gate lists, shapers, guard entries -/

/-- CAL_WRITE of a slot by an index nobody else holds, on an owned drop (a guest master entry names any), with an existing shaper for an arbitrated
slot, stages the entry, an idle one as zero; CAL_DISCARD of STAGED changes returns to CLEAN (R172, R228). Each finds the changes whose boundary has
been reached in effect (R175).
CAL_COMMIT of STAGED changes that pass the words check, the Whistle derivation and admission: PENDING for the swap boundary, which RES0 names (R173,
R229). -/
def Obligations.CalendarChangesAreStagedAndCommitted : Prop :=
  (∀ (p : PartId) (r : RingId) (s : State) (e : BitVec 512),
     let i := entryObject e
     let u := (s.atRing p r).settleCal i
     (Ready s p r 0x50 e false calLayout (calChecks s p e) →
       let k := entryField e 0x10 0 16
       let x := entrySlot k (calEntry e)
       (x.kind ≠ 4 → s.owns p (i * 32 + x.drop) = true) → (x.kind = 3 → (s.shaper p x.shaper).isSome) → u.heldByOther p i k = false →
       (s.seg i).retired = false → s.dropState (i * 32 + x.drop) ≠ .retired → (u.staged p i).state ≠ .pending →
       Completes p r (.calWrite p r) (replyOk 0) s
         (u.setStaged p i { state := .staged, changes := tblPut (u.staged p i).changes k (if x.kind = 0 then 0 else calEntry e), due := 0 })) ∧
     (Ready s p r 0x51 e false [] [objectCheck e 0 63] → (u.staged p i).state = .staged →
       Completes p r (.calDiscard p r) (replyOk 0) s (u.discardCal p i) ∧ (tblRising (u.seg i).staged = true → (u.discardCal p i).staged p i = {}))) ∧
  (∀ (p : PartId) (r : RingId) (s : State) (e : BitVec 512),
     Ready s p r 0x52 e false [] [objectCheck e 0 63] →
     let i := entryObject e
     let u := (s.atRing p r).settleCal i
     let due := u.swapInstant i
     let c := u.commitCal p i due
     (s.seg i).retired = false →
     u.namesRetired i (u.staged p i).changes = false →
     (u.staged p i).state = .staged →
     firstFail (c.wordsSteps i ++ c.admitCalendar p i (slotsOf ((c.seg i).calendarAt (c.seg i).lastDue).1)) = none →
     Completes p r (.calCommit p r) (replyOk due) s c ∧ (tblRising (u.seg i).staged = true → (c.staged p i).state = .pending ∧ (c.staged p i).due = due))

/-- GATE_LIST_WRITE, START, STOP and DESTROY of a list the partition holds: an IDLE list takes one or two entries, a startable one is ARMED at its base,
with ROLL at level 2 a base rolled forward, an ARMED or RUNNING one returns to IDLE, an IDLE one ends (R174, R238–R240, R502); that a compose instant
in the same tick comes before START, STOP and DESTROY follows R241 and R296 and is read as log entry 112 says. A list runs (R174, R239, R262): an ARMED list whose base has been reached is
RUNNING; a RUNNING list whose next entry is due at base + repetition × CYCLE + OFFSET goes on to the next entry, after the last to the first of the
next repetition; a read of the base or of the next due time answers its lower half and latches the upper. -/
def Obligations.GateListsAreCommandedAndRun : Prop :=
  (∀ (p : PartId) (r : RingId) (s : State) (e : BitVec 512) (g : GateList),
     let k := entryObject e
     let u := s.atRing p r
     s.gateOf p k = some g →
     let first := entryField e 0x10 0 8
     (Ready s p r 0x59 e false (gateWriteLayout e) (gateWriteChecks s p e) → g.state = .idle →
       Completes p r (.gateListWrite p r) (replyOk 0) s (u.onGate k fun g =>
         let t := tblPut g.entries first (gateEntry e 0x20)
         { g with entries := if entryField e 0x11 0 8 = 2 then tblPut t (first + 1) (gateEntry e 0x30) else t })) ∧
     (Ready s p r 0x5A e false [(bitPos 0x10 0, 64), (bitPos 0x18 0, 1)] (gateObject e) → g.state = .idle → g.startable = true →
       (s.now + 2000000 ≤ entryField e 0x10 0 64 ∨ entryField e 0x18 0 1 = 1) → (entryField e 0x18 0 1 = 0 ∨ 2 ≤ (s.part p).level) →
       let base := gateBase (entryField e 0x10 0 64) g.cycle s.now
       Completes p r (.gateListStart p r) (replyOk base) s
         ((u.composeFirst p).onGate k fun g => { g with state := .armed, base := base, rep := 0, next := 0, applied := [] })) ∧
     (Ready s p r 0x5B e false [] (gateObject e) → g.state = .armed ∨ g.state = .running →
       Completes p r (.gateListStop p r) (replyOk 0) s ((u.composeFirst p).onGate k fun g => { g with state := .idle })) ∧
     (Ready s p r 0x5C e false [] (gateObject e) → g.state = .idle →
       let t := u.composeFirst p
       Completes p r (.gateListDestroy p r) (replyOk 0) s { t with gates := tblErase t.gates k })) ∧
  (∀ (i : GateId) (p : PartId) (s : State) (g : GateList), s.Rising → s.gate i = some g →
     (g.state = .armed → g.base ≤ s.now →
       ∃ t, exec (.gateBaseReached i) s = .next t ∧ t.gate i = some { g with state := .running } ∧ (∀ j, j ≠ i.val → t.gate j = s.gate j) ∧
         t = { s with gates := t.gates }) ∧
     (∀ e, g.state = .running → tblFind g.entries g.next = some e → g.base + g.rep * g.cycle + e.offset ≤ s.now →
       ∃ t, exec (.gateEntryDue i) s = .next t ∧
         t.gate i = some (if g.next + 1 < g.count then { g with next := g.next + 1 } else { g with next := 0, rep := g.rep + 1 }) ∧
         (∀ j, j ≠ i.val → t.gate j = s.gate j) ∧ t = { s with gates := t.gates }) ∧
     (s.hostOpen p = true → s.linkHeld p true = false → s.gateOf p (s.part p).gateSel.toNat = some g → tblRising (s.part p).gateBaseHi = true → tblRising (s.part p).gateNextHi = true →
       (∃ t, exec (.gateBaseLoRead p) s = .next t ∧ t.out = s.out ++ [.regData (.host p) (BitVec.ofNat 32 g.base)] ∧
         tblGet 0 (t.part p).gateBaseHi p = BitVec.ofNat 32 (g.base / 2 ^ 32) ∧ t.gates = s.gates ∧ ∀ q, q ≠ p.val → t.part q = s.part q) ∧
       (∀ e, g.state ≠ .idle → tblFind g.entries g.next = some e →
         let due := g.base + g.rep * g.cycle + e.offset
         ∃ t, exec (.gateNextLoRead p) s = .next t ∧ t.out = s.out ++ [.regData (.host p) (BitVec.ofNat 32 due)] ∧
           tblGet 0 (t.part p).gateNextHi p = BitVec.ofNat 32 (due / 2 ^ 32) ∧ t.gates = s.gates ∧ ∀ q, q ≠ p.val → t.part q = s.part q)))

/-- A rolled base is the first of BASE, BASE + CYCLE, BASE + 2 × CYCLE, … that lies at least 2 ms after the validation (R240). -/
def Obligations.RolledGateBaseIsTheFirstInTime : Prop :=
  ∀ base cycle v : Nat, 0 < cycle →
    let b := gateBase base cycle v
    v + 2000000 ≤ b ∧ (∃ n, b = base + n * cycle) ∧ (∀ n, v + 2000000 ≤ base + n * cycle → b ≤ base + n * cycle)

/-- SHAPER_CREATE of an unused number starts with credit 0; SHAPER_SET keeps credit up to the new BURST; SHAPER_DESTROY ends one that no entry names once
the calendars whose boundary has come are in effect (R175, R252, R256, R499). -/
def Obligations.ShapersAreCreatedSetAndDestroyed : Prop :=
  ∀ (p : PartId) (r : RingId) (s : State) (e : BitVec 512),
    let k := entryObject e
    let u := s.atRing p r
    (Ready s p r 0x60 e false shaperLayout (shaperChecks 1 e) → s.shaper p k = none →
      Completes p r (.shaperCreate p r) (replyOk 0) s (u.onPart p fun x =>
        { x with shapers := tblPut x.shapers k { rate := entryField e 0x10 0 32, burst := entryField e 0x14 0 16, credit := 0 } })) ∧
    (Ready s p r 0x61 e false shaperLayout (shaperChecks 0 e) → (s.shaper p k).isSome →
      Completes p r (.shaperSet p r) (replyOk 0) s
        (u.onShaper p k fun x => x.retune (entryField e 0x10 0 32) (entryField e 0x14 0 16) s.now)) ∧
    (let v := u.segs.foldl (fun v x => v.settleCal x.1) u
     Ready s p r 0x62 e false [] [objectCheck e 1 31] → (s.shaper p k).isSome → v.shaperNamed p k = none →
      Completes p r (.shaperDestroy p r) (replyOk 0) s (v.onPart p fun x => { x with shapers := tblErase x.shapers k }))

/-- GUARD_WRITE of a VALID region on the partition's own drops that no other VALID entry of the inactive bank meets loads it there (R429, R430); that with
VALID 0 it clears the entry whatever its other fields say is read from R429 (log entry 10). GUARD_SWAP makes the inactive bank active at its validation time, the new inactive bank is a copy of it, and RESULT0 is the new
epoch (R431). -/
def Obligations.GuardEntriesAreWrittenAndSwapped : Prop :=
  ∀ (p : PartId) (r : RingId) (s : State) (e : BitVec 512),
    let k := entryObject e
    let u := s.atRing p r
    (Ready s p r 0x68 e false (guardLayout e) (guardChecks e) →
      (∀ g, regionOf (guardEntry e) = some g → s.regionOwned p g = true ∧ bankOverlap (s.pair p).inactive k g = none) →
      Completes p r (.guardWrite p r) (replyOk 0) s (u.onPair p fun b => b.load k (guardEntry e))) ∧
    (Ready s p r 0x69 e false [] [objectCheck e 0 0] →
      Completes p r (.guardSwap p r) (replyOk ((u.swapPair p true).pair p).epoch.toNat) s (u.swapPair p true) ∧
      ((u.swapPair p true).pair p).activeB = !(s.pair p).activeB ∧ ((u.swapPair p true).pair p).active = (s.pair p).inactive ∧
      ((u.swapPair p true).pair p).inactive = (s.pair p).inactive ∧ ((u.swapPair p true).pair p).epoch = (s.pair p).epoch + 1)

/-- Loading a region that no other VALID entry of the inactive bank meets keeps the bank's VALID entries apart (R429). -/
def Obligations.GuardLoadKeepsEntriesApart : Prop :=
  ∀ (b : BankPair) (k : Nat) (x : BitVec 128) (g : GuardRegion),
    tblRising b.inactive = true →
    (∀ i j u v, (i, u) ∈ regionsOf b.inactive → (j, v) ∈ regionsOf b.inactive → i ≠ j → u.meets v = false) →
    regionOf x = some g → bankOverlap b.inactive k g = none →
    (b.load k x).active = b.active ∧
    (∀ i j u v, (i, u) ∈ regionsOf (b.load k x).inactive → (j, v) ∈ regionsOf (b.load k x).inactive → i ≠ j → u.meets v = false)

/-! ### Timebase (R54–R69) -/

/-- A tick adds 10 ns and the signed RATE in units of 2^-32 ns to unit time, counts the local clock and grows every shaper's credit by its rate up to its
burst; a Delay_Req that is due leaves; an initial step that waits is applied with it (R54, R57, R61, R253). An armed step whose second has come changes
unit time by its amount, and what drops hold for presentation instants moves with them; PPS OUT pulses once for each whole second while OUT_EN is 1
(R62, R63). -/
def Obligations.UnitTimeAdvancesAndSteps : Prop :=
  (∀ s : State,
     let tb := s.tb.advance.logSecond s.now
     let u : State := { s with tb := tb, parts := tblMap (fun _ x => x.accrue) s.parts }
     let v := u.sendDelayReq
     tb.acc = s.tb.acc + 10 * 4294967296 + s.tb.rate.signExtend 96 ∧ tb.tick = s.tb.tick + 1 ∧ v.tb.acc = tb.acc ∧ v.tb.tick = tb.tick ∧
     (s.tb.initStep = none → exec .timebaseTick s = .next v) ∧
     (∀ ns, s.tb.initStep = some ns →
       exec .timebaseTick s = .next ((v.onTb fun t => { t with initStep := none }).stepTime ns) ∧
       ((v.onTb fun t => { t with initStep := none }).stepTime ns).tb.acc = tb.acc + BitVec.ofInt 96 (ns * 4294967296))) ∧
  (∀ s : State,
     (∀ ns due, s.tb.stepArmed = some (ns, due) → due ≤ s.now →
       let t := (s.onTb fun x => { x with stepArmed := none }).stepTime ns
       exec .stepApply s = .next t ∧ t.tb.acc = s.tb.acc + BitVec.ofInt 96 (ns * 4294967296) ∧ t.tb.stepArmed = none ∧
         t.drops = tblMap (fun g d => d.stepped (s.steppedT (g / 32) ns)) s.drops ∧
         (s.bellsPass = true → t.out = s.out ∧ ∀ p, t.part p = { s.part p with memGone := (t.part p).memGone })) ∧
     (∀ ns due, s.tb.stepArmed = some (ns, due) → s.now < due → exec .stepApply s = .next s) ∧
     (s.now % 1000000000 < 20 → s.tb.ppsOutSecond < s.now / 1000000000 → s.tb.ppsOutEn = true →
       exec .ppsOut s = .next { s with
         tb := { s.tb with ppsOutSecond := s.now / 1000000000 }, out := s.out ++ [.ppsPulse (s.now / 1000000000)] }))

/-- A partition with TB_WR that takes requests, and CC0, CC1 and the service port: TB_RATE is written only in SRC 0x3, limited to ±429,497; SRC 0x3 leads to free-run; STEP_GO
arms the step for the next whole second; a partition without TB_WR writes nothing (R55, R59, R62, R67, R69, R122). A write of another SRC moves the
state: 0x3 to free-run, else to Acquiring where the reference is present (R59). A read of TB_TIME_LO answers bits [31:0] of unit time in ns and
latches [63:32] for that requester only (R56). That STEP_EN of the same write allows STEP_GO (log entry 13), and that the step has the amount TB_STEP
held then (log entry 123), are the model's choices. -/
def Obligations.TimebaseRegistersActForTheirWriter : Prop :=
  (∀ (p : PartId) (v : W32) (s : State), s.hostOpen p = true → s.linkHeld p false = false →
     (tblGet false s.map.tbWr p = true →
       (s.tb.src = 3 → exec (.tbRateWrite (.host p) v) s =
         .next { s with tb := { s.tb with rate := BitVec.ofInt 32 (clampInt (-429497) 429497 v.toInt) } }) ∧
       (s.tb.src ≠ 3 → exec (.tbRateWrite (.host p) v) s = .next s) ∧
       (s.tb.src = v.extractLsb' 0 2 → v.getLsbD 5 = false →
         exec (.srcWrite (.host p) v) s = .next { s with tb := { s.tb with stepEn := v.getLsbD 4 } }) ∧
       (s.tb.src = v.extractLsb' 0 2 → v.getLsbD 5 = true → v.getLsbD 4 = true →
         exec (.stepGo (.host p) v) s = .next { s with tb := { s.tb with
           stepEn := true, stepArmed := some ((s.tb.stepHi ++ s.tb.stepLo).toInt, (s.now / 1000000000 + 1) * 1000000000) } })) ∧
     (tblGet false s.map.tbWr p = false →
       exec (.tbRateWrite (.host p) v) s = .next s ∧ exec (.srcWrite (.host p) v) s = .next s ∧ exec (.stepGo (.host p) v) s = .next s)) ∧
  (∀ (p : PartId) (v : W32) (s : State), s.hostOpen p = true → s.linkHeld p false = false → tblGet false s.map.tbWr p = true →
     s.tb.src ≠ v.extractLsb' 0 2 → v.getLsbD 5 = false →
     ∃ t, exec (.srcWrite (.host p) v) s = .next t ∧ t.tb.src = v.extractLsb' 0 2 ∧ t.tb.stepEn = v.getLsbD 4 ∧ t.tb.acc = s.tb.acc ∧
       (v.extractLsb' 0 2 = 3 → t.tb.state = .freeRun) ∧
       (v.extractLsb' 0 2 ≠ 3 → ({ s.tb with src := v.extractLsb' 0 2 } : Timebase).present = true → t.tb.state = .acquiring) ∧
       (s.bellsPass = true → v.extractLsb' 0 2 = 3 ∨ ({ s.tb with src := v.extractLsb' 0 2 } : Timebase).present = true →
         t.parts = s.parts ∧ t.out = s.out) ∧
       t.drops = s.drops ∧ t.streams = s.streams) ∧
  (∀ (p : PartId) (s : State), s.hostOpen p = true → s.linkHeld p true = false → tblRising s.tb.hiLatch = true →
     ∃ t, exec (.tbTimeLoRead (.host p)) s = .next t ∧ t.out = s.out ++ [.regData (.host p) (BitVec.ofNat 32 s.now)] ∧
       tblGet 0 t.tb.hiLatch p = BitVec.ofNat 32 (s.now / 2 ^ 32) ∧ (∀ k, k ≠ p.val → tblGet 0 t.tb.hiLatch k = tblGet 0 s.tb.hiLatch k) ∧
       t.tb.acc = s.tb.acc ∧ t.segs = s.segs ∧ t.drops = s.drops) ∧
  (∀ (who : Requester) (v : W32) (s : State), (who = .service ∨ ∃ c : CtlCore, c.val < 2 ∧ who = .core c) → (s.pair 10).active = [] →
     (s.tb.src = 3 → exec (.tbRateWrite who v) s =
       .next { s with tb := { s.tb with rate := BitVec.ofInt 32 (clampInt (-429497) 429497 v.toInt) } }) ∧
     (s.tb.src ≠ 3 → exec (.tbRateWrite who v) s = .next s) ∧
     (s.tb.src = v.extractLsb' 0 2 → v.getLsbD 5 = false →
       exec (.srcWrite who v) s = .next { s with tb := { s.tb with stepEn := v.getLsbD 4 } }) ∧
     (s.tb.src = v.extractLsb' 0 2 → v.getLsbD 5 = true → v.getLsbD 4 = true →
       exec (.stepGo who v) s = .next { s with tb := { s.tb with
         stepEn := true, stepArmed := some ((s.tb.stepHi ++ s.tb.stepLo).toInt, (s.now / 1000000000 + 1) * 1000000000) } }) ∧
     (tblRising s.tb.hiLatch = true →
       ∃ t, exec (.tbTimeLoRead who) s = .next t ∧ t.out = s.out ++ [.regData who (BitVec.ofNat 32 s.now)] ∧
         tblGet 0 t.tb.hiLatch (latchOf who) = BitVec.ofNat 32 (s.now / 2 ^ 32) ∧
         (∀ k, k ≠ latchOf who → tblGet 0 t.tb.hiLatch k = tblGet 0 s.tb.hiLatch k) ∧ t.tb.acc = s.tb.acc))

/-- References (R57–R59): a one-step Sync of the selected master in the domain, where PTP reaches the port and at most 16 a second, gives its transit; a
Delay_Resp gives the round trip, and the two give an offset; an edge more than 1 µs from a whole second of PTP time only counts as rejected; with edges
3 s old and no fresh master in SRC 0x1 or 0x2 a locked timebase goes to holdover, which raises its fault. An edge in SRC 0x2 while locked is a
measurement: its distance from the nearest whole second, less the input delay, is TB_OFFSET (R55, R58). A drop's path delay is measured again in a
control slot of its rate (R65): what is on record is the delay of this measurement, taken now, and no other drop's record changes. How the PTP offset
stands at an edge between two measurements (log entry 16), and that a delay takes the time of a word unrounded (log entry 34), are
the model's choices. -/
def Obligations.ReferencesAndDelaysAreMeasured : Prop :=
  ((∀ (s : State) (d : Byte) (m origin rx : Nat), s.ptpCarried = true → d.toNat = s.tb.domainUsed → s.tb.master = some m →
     (∀ k, s.tb.lastSyncTick = some k → k + 6250000 ≤ s.tb.tick) →
     let u := s.onTb fun t => { t with lastSyncTick := some t.tick, twoStepWait := none, transit := some ((rx : Int) - origin), syncUsed := false }
     exec (.ptpMessage (.sync d m false origin rx)) s = .next u.syncOffset ∧ u.syncOffset.tb.transit = some ((rx : Int) - origin)) ∧
   (∀ (s : State) (d : Byte) (m tx rx : Nat) (o : Int), s.ptpCarried = true → d.toNat = s.tb.domainUsed → s.tb.master = some m →
     s.tb.transit = some o → s.tb.syncUsed = true →
     exec (.ptpMessage (.delayResp d m tx rx)) s = .next (s.onTb fun t => { t with roundTrip := some (o + ((rx : Int) - tx)) })) ∧
   (∀ (s : State) (stamp : Nat) (o : Int), s.tb.src = 1 → s.ptpOffset = some o →
     let x := (stamp : Int) - s.tb.ppsInDelay.toNat - o
     1000 < (x - nearestSecond x).natAbs →
     exec (.ppsEdge stamp) s = .next { s with tb := { s.tb with ppsReject := satInc s.tb.ppsReject } }) ∧
   (∀ s : State, tblRising s.flt.faults = true → s.tb.src = 1 ∨ s.tb.src = 2 → s.tb.state = .locked → s.tb.fresh = [] →
     (∀ k, s.tb.ppsTick = some k → k + 300000000 ≤ s.tb.tick) →
     ∃ t, exec .referenceLoss s = .next t ∧ t.tb.state = .holdover ∧ t.tb.ppsPresent = false ∧ t.tb.ptpPresent = false ∧
       (t.faultRec 0x006).live = true ∧ (t.faultRec 0x006).sticky = true)) ∧
  (∀ (s : State) (stamp : Nat), s.tb.src = 2 → s.tb.state = .locked → s.tb.badRun < 15 →
     let x := (stamp : Int) - s.tb.ppsInDelay.toNat
     ∃ t, exec (.ppsEdge stamp) s = .next t ∧ t.tb.offset = BitVec.ofInt 32 (clampInt (-2147483648) 2147483647 (x - nearestSecond x)) ∧
       t.tb.ppsPresent = true ∧ t.tb.ppsTick = some s.tb.tick ∧ t.tb.acc = s.tb.acc ∧ t.tb.state = .locked ∧
       t = { s with tb := t.tb, free := t.free }) ∧
  (∀ (g : DropId) (ns : Nat) (s : State), s.Rising → (s.pair 10).active = [] → (s.drop g).found = true → (s.drop g).state ≠ .retired →
     (s.seg (g / 32)).started = true → ((s.settleWhistle (g / 32)).measureGrant g).isSome = true →
     ∃ t, exec (.pathDelayRemeasure g ns) s = .next t ∧ (t.drop g).delay = some (oneWay (s.drop g).colant2 ns) ∧ (t.drop g).pMeasTick = s.tick ∧
       (∀ h, h ≠ g.val → t.drop h = s.drop h) ∧ t.tb = s.tb ∧ t.parts = s.parts)

/-- A presentation instant of a segment is its phase plus a whole number of cycles; instantFrom gives the first that is not before its argument (R221). -/
def Obligations.InstantsAreWholeCyclesFromThePhase : Prop :=
  ∀ (s : State) (i t : Nat), 0 < s.cycleUs i → s.phaseUs i < s.cycleUs i →
    let x := s.instantFrom i t
    t ≤ x ∧ x % (s.cycleUs i * 1000) = s.phaseUs i * 1000 ∧
    (∀ y, t ≤ y → y % (s.cycleUs i * 1000) = s.phaseUs i * 1000 → x ≤ y)

/-! ### Segments: reset, enumeration, negotiation, transactions, attention (R83–R115, R213, R214, R444, R458, R514) -/

/-- A reset that has been decided ends the command on the wires, stops CLK, puts the segment's drops on record in Colant-1 mode and asks for an
enumeration; a segment whose NO_ANSWER cause has lasted 1 s is reset (R115, R458). An enumeration of a segment whose CLK stands and has stood 50 µs
starts CLK and, with no retirement threshold set and bank pair 10 empty, reads each drop number that is not RETIRED: a number with a good descriptor within three attempts is on record with it, a silent one is
no drop, one whose three attempts are all bad is a conflict (R112). -/
def Obligations.SegmentsAreResetAndEnumerated : Prop :=
  (∀ (i : SegId) (s : State), s.Rising → (s.seg i).retired = false →
     ((s.seg i).resetDue = true →
       exec (.segmentReset i) s = .next (s.resetSegment i) ∧
       (let t := s.resetSegment i
        (t.seg i).clk = false ∧ (t.seg i).resetDue = false ∧ (t.seg i).enumerated = false ∧ (t.seg i).tx = none ∧
        (∀ g, g ∈ s.segDrops i → (s.drop g).state ≠ .retired → (t.drop g).colant2 = false ∧ (t.drop g).wafer = 0 ∧ (t.drop g).qdelay = 0))) ∧
     (∀ k, (s.seg i).noAnswerTick = some k → (s.seg i).causes.getLsbD 1 = true → k + 100000000 ≤ s.tick →
       exec (.noAnswerReset i) s = .next (s.onSeg i fun x => { x with noAnswerTick := none, resetDue := true }))) ∧
  (∀ (i : SegId) (l : List EnumFinding) (s : State), s.Rising → (s.seg i).retired = false → (s.seg i).clk = false →
     (∀ k, (s.seg i).clkStopTick = some k → k + 5000 ≤ s.tick) →
     s.boot.phase = .running ∨ s.boot.phase = .starting ∨ s.boot.phase = .service →
     s.flt.winSeg.thresh = 0 → s.flt.winDrop.thresh = 0 → (s.pair 10).active = [] →
     ∃ t, exec (.segmentEnumeration i l) s = .next t ∧ (t.seg i).clk = true ∧ (t.seg i).enumerated = true ∧
       (∃ more, t.out = s.out ++ .clkStart i :: more) ∧
       ∀ n, n < 32 → (s.drop (i.val * 32 + n)).state ≠ .retired →
         let g := i.val * 32 + n
         let a := ((l.find? fun f => f.number.val == n).map fun f => f.answers.attempts).getD []
         let r := (readResult (a.map (attemptOf n))).1
         (∀ ws, r = .found ws → (t.drop g).desc = some (descriptorOf ws) ∧ (t.drop g).found = true ∧ (t.seg i).conflict.getLsbD n = false) ∧
         (r = .empty → (t.drop g).found = false ∧ (t.seg i).conflict.getLsbD n = false) ∧
         (r = .conflict → (t.drop g).found = false ∧ (t.seg i).conflict.getLsbD n = true))

/-- A drop found in Colant-1 mode with LEVEL 0x2 is negotiated (R113): with the LEVEL write acknowledged and 16 MEASUREs passed it is in Colant-2 mode at
the Wafer version it acknowledges and its native depth; without that acknowledgement it stays in Colant-1 mode and is left alone for 3 ms; then
DD_MODE is read, and the answer is its depth on record. A renewal reads the drop again: one that answers with its descriptor is on record anew and
measured, one that does not is ABSENT (R514). What an unacknowledged LEVEL write leads to (log entry 8), the three descriptor reads of a renewal (log
entry 96), a DD_MODE write that ends otherwise than in ACK (log entry 151), and that each exchange is one step once housekeeping has the wires (log
entry 137), are the model's choices. -/
def Obligations.DropsAreNegotiatedAndRenewed : Prop :=
  ((∀ (g : DropId) (a : NegoAnswers) (s : State) (x : Descriptor), s.Rising → s.flt.winDrop.thresh = 0 → (s.pair 10).active = [] →
     (s.beginExchange g (s.negotiationCost g ((s.drop g).delay.getD 520))).isSome = true → (s.drop g).desc = some x →
     (s.drop g).state ≠ .retired → (s.drop g).colant2 = false → (s.drop g).negoFail = none → Descriptor.level x = 2 → (s.drop g).found = true →
     ∃ t, exec (.negotiation g a) s = .next t ∧ (t.drop g).desc = some x ∧
       (acked (g % 32) false a.level = false →
         (t.drop g).colant2 = false ∧ (t.drop g).wafer = 0 ∧ (t.drop g).negoFail = some s.tick) ∧
       (acked (g % 32) false a.level = true → 16 ≤ a.measures.length →
         (a.measures.take 16).all (fun m => (measureAnswer (g % 32) m).passes) = true →
         (t.drop g).colant2 = true ∧ (t.drop g).negoFail = none ∧ (t.drop g).depth = depthBits (field x.caps.toNat 7 6) ∧
         (t.drop g).wafer = waferTaken (s.waferWanted g) ((List.range (s.waferWanted g + 1)).map fun k =>
           (a.wafer.map (writeAnswer (g % 32) true)).getD k .silent == .ack))) ∧
   (∀ (g : DropId) (w : Option W16) (s : State) (k : Nat), s.Rising → (s.drop g).negoFail = some k → k + 300000 ≤ s.tick →
     (s.drop g).state ≠ .retired → (s.pair 10).active = [] →
     (let tlm := if (s.drop g).tlmLater.isSome then costW2 opRdb 0xFFFF20 46 [] false 520 else 0
      (s.beginExchange g (max (costW2 opRd 0xFFFF05 1 [] false 520) tlm)).isSome = true) →
     ∃ t, exec (.negotiationFailWait g w) s = .next t ∧
       (w.isSome = true → (t.drop g).negoFail = none ∧ (t.drop g).refreshTick = s.tick) ∧
       (∀ v, w = some v → (t.drop g).depth = depthBits (field v.toNat 11 10)))) ∧
  (∀ (g : DropId) (a : Discovery) (s : State), s.Rising → (s.drop g).renewDue = true → (s.drop g).found = true → (s.drop g).state ≠ .retired →
     (s.drop g).negoFail = none → s.flt.winDrop.thresh = 0 → (s.pair 10).active = [] → (s.beginExchange g (s.discoverCost g a)).isSome = true →
     ∃ t, exec (.dropRenewal g a) s = .next t ∧ (t.drop g).renewDue = false ∧
       let r := (readResult (a.attempts.map (attemptOf (g % 32)))).1
       (∀ ws, r = .found ws → (t.drop g).desc = some (descriptorOf ws) ∧ (t.drop g).delay = a.turnaroundNs.map (oneWay false)) ∧
       (r = .empty ∨ r = .conflict → (t.drop g).state = .absent ∧ (t.drop g).colant2 = false))

/-- Words that answer an outstanding transaction, or the passing of its predicted span, end it; words that are only BUSY, up to 256 in all, keep it, the
257th ends it, and words that begin outside the span where a header is accepted are none (R83, R84). -/
def Obligations.TransactionsEnd : Prop :=
  ∀ (i : SegId) (s : State) (x : Tx) (a : ColAnswer), (s.seg i).tx = some x →
    let n := (a.words.takeWhile (isBusy x.drop)).length
    (s.inSpan i x a.sinceNs = false → exec (.colantResponse i a) s = .next s) ∧
    (s.inSpan i x a.sinceNs = true →
      (256 < x.busy + n → exec (.colantResponse i a) s = .next (s.finishTx i x 257 .silent)) ∧
      (x.busy + n ≤ 256 → n = a.words.length →
        exec (.colantResponse i a) s = .next (s.onSeg i fun y => { y with tx := some { x with busy := x.busy + n } })) ∧
      (∀ w ws, x.busy + n ≤ 256 → a.words.drop n = w :: ws →
        exec (.colantResponse i a) s = .next (s.finishTx i x (x.busy + n) (judge x.op x.drop (x.lens (w :: ws)) x.colant2 (w :: ws))))) ∧
    (s.past x.startTick (s.responseSpan i x) = true →
      exec (.colantTimeout i) s = .next (s.finishTx i x x.busy .silent)) ∧
    (s.past x.startTick (s.responseSpan i x) = false → exec (.colantTimeout i) s = .next s)

/-- ATTN (R107, R214, R444): its assertion begins a round, its release ends rounds and the stray-attention condition; 1 ms without a STAT that shows ATTN
signals the stray-attention source, 1 s of that condition is cause 3 of the segment fault; every 100 ms each drop is polled. The oldest STAT received
is handled: one with no error bit and no lost link is latched into the drop's status, and ATTN 1 signals the drop's source; one that reports a lost
or reverted link puts the drop on record in Colant-1 mode and has it renewed (R213, R514). -/
def Obligations.AttentionAndStatus : Prop :=
  (∀ (i : SegId) (s : State), s.Rising →
     ((s.seg i).clk = true → (s.seg i).attn = false →
       ∃ t, exec (.attnAsserted i) s = .next t ∧ (t.seg i).attn = true ∧ (t.seg i).roundTick = some s.tick ∧ (t.seg i).zeroSince = some s.tick) ∧
     ((s.seg i).attn = true →
       ∃ t, exec (.attnReleased i) s = .next t ∧ (t.seg i).attn = false ∧ (t.seg i).roundTick = none ∧ (t.seg i).stray = none) ∧
     (∀ k, (s.seg i).zeroSince = some k → (s.seg i).stray = none → (s.seg i).attn = true → k + 100000 ≤ s.tick →
       exec (.strayAttention i) s = .next ((s.onSeg i fun x => { x with stray := some s.tick }).signalSeg i 1)) ∧
     (∀ k, (s.seg i).stray = some k → (s.seg i).attn = true → k + 100000000 ≤ s.tick →
       exec (.stuckAttn i) s = .next (s.segCause i 3)) ∧
     ((s.seg i).clk = true → (s.seg i).enumerated = true → (s.seg i).fullPollTick + 10000000 ≤ s.tick →
       exec (.pollRound i) s = .next (((s.pollable i).foldl (fun s g => s.queueHk i (pollItem (g % 32))) s).onSeg i fun x =>
         { x with fullPollTick := s.tick }))) ∧
  (∀ (i : SegId) (s : State) (n : Nat) (w : W16) (rest : List (Nat × W16)), s.Rising → (s.seg i).stats = (n, w) :: rest → n < 32 →
     let u := (s.onSeg i fun x => { x with stats := rest }).stat (i.val * 32 + n) w
     exec (.statReceived i) s = .next (if w.getLsbD 15 then u.breakStray i else u) ∧
     (w &&& 0x0F00 = 0 →
       (u.seg i).stats = rest ∧ (u.drop (i.val * 32 + n)).latched = (s.drop (i.val * 32 + n)).latched ||| w.extractLsb' 0 13 ∧
       (u.drop (i.val * 32 + n)).lastStat = w.extractLsb' 13 3 ∧ (∀ g, g ≠ i.val * 32 + n → u.drop g = s.drop g) ∧
       (s.bellsPass = true →
         (w.getLsbD 15 = true → (u.source (i.val * 32 + n)).pending = true ∨ (u.source (i.val * 32 + n)).fired = true) ∧ u.parts = s.parts)) ∧
     (w &&& 0x0C00 = 0 → (w.getLsbD 9 = true ∨ w.getLsbD 8 = true) → (s.drop (i.val * 32 + n)).discardLoss = false →
       (u.drop (i.val * 32 + n)).state ≠ .retired →
       (u.drop (i.val * 32 + n)).colant2 = false ∧ (u.drop (i.val * 32 + n)).renewDue = true))

/-! ### Cycles, slots, arbitration (R221–R263) -/

/-- A cycle starts at its nominal instant where CLK runs, the segment is enumerated and the wires are free: two ALIGN words at the base rate first,
RESUME where it is due, then link-hold window 0; its end is the next presentation instant, link-hold point 1 is next (R100, R222, R223, R234, R235).
In a running cycle outside tenures, transactions and Whistle periods: a due link-hold window with room at a boundary sends its words and counts its
point, and what waited for it goes on; a Whistle entry sends WHISTLE with its N at Colant-1 rate and two ALIGN words at Colant-2 rate and lasts to its
entry's end; a picture, control or Retriever slot opens its region, a picture slot that carries its traffic sends the picture's FRAMEs, and an idle
slot signals the segment's calendar source; at S the SYNC of the next SEQ is launched with the countdown to the cycle's end (R62, R64, R65, R95, R226,
R230, R235). That a SYNC whose time unit time has jumped over goes at the first offset the other rules leave it is the model's choice (log entry
144), and so is that a slot's FRAMEs up to the next window are listed in one step (log entry 153). -/
def Obligations.CyclesStartAndSendTheirWords : Prop :=
  (∀ (i : SegId) (s : State) (n : Nat), s.Rising → (s.seg i).whistleEnd = none → s.nextStart i = some n →
     (s.seg i).clk = true → (s.seg i).enumerated = true → (s.seg i).retired = false → (s.seg i).tx = none → (s.seg i).tenure = none →
     let c2 := s.base2 i
     let rate := if c2 then 2 else 1
     let resume := (s.seg i).resumeDue && !s.plant.halted
     ∃ t, exec (.cycleStart i) s = .next t ∧ (t.seg i).started = true ∧ (t.seg i).cycleStartNs = n ∧ (t.seg i).beginNs = s.now ∧
       (t.seg i).endNs = s.instantAfter i n ∧ (t.seg i).region = .openTime ∧ (t.seg i).linkHold = 1 ∧ t.tb = s.tb ∧ t.streams = s.streams ∧
       (t.seg i).frozen = ((s.seg i).frozen && !resume) ∧
       t.out = (((s.dropRun i).present i).loseUnsynced i).out ++ [.colant i rate [alignWord, alignWord]]
         ++ (if resume then [.colant i rate (broadcast opResume [])] else []) ++ holdWords i (s.mixed i) c2 c2 (s.c2Drops i) ∧
       (s.bellsPass = true → (((s.dropRun i).present i).loseUnsynced i).out = s.out)) ∧
  (∀ (i : SegId) (s : State), s.Rising → (s.seg i).whistleEnd = none → (s.seg i).clk = true → (s.seg i).started = true →
     (s.seg i).retired = false → (s.seg i).tx = none → (s.seg i).tenure = none →
     (s.holdDue i = true → s.holdRoom i = true → s.wordsOut i = false → s.atBoundary i = true →
       ∃ u : State, exec (.linkHoldWindow i) s = .next (((u.runFrames i).claimWires i).nextRtv i) ∧ (u.seg i).linkHold = (s.seg i).linkHold + 1 ∧
         u.out = s.out ++ holdWords i (s.mixed i) (s.base2 i) (s.seg i).rate2 (s.c2Drops i) ∧
         (∀ j, j ≠ i.val → u.seg j = s.seg j) ∧ (∀ g ∈ s.c2Drops i, (u.drop g).refreshTick = s.tick) ∧
         (∀ g, g ∉ s.c2Drops i → u.drop g = s.drop g)) ∧
     (∀ (k : CalIndex) e, (s.seg i).frozen = false → s.slotAt i k = some e → e.kind = 6 → e.start ≤ s.offsetNow i → s.offsetNow i < e.finish →
       ∃ t, exec (.whistle i k) s = .next t ∧ (t.seg i).whistleEnd = some ((s.seg i).cycleTick + ceilDiv (e.finish * 5) 6) ∧
         t.out = s.out ++ [.colant i 1 (message [header opWhistle 0 (e.len / 65536), BitVec.ofNat 16 e.len] false),
                           .colant i 2 [alignWord, alignWord]] ∧
         (∀ j, j ≠ i.val → t.seg j = s.seg j) ∧ t.drops = s.drops) ∧
     (∀ (k : CalIndex) e, s.slotAt i k = some e → e.kind = 1 ∨ e.kind = 2 ∨ e.kind = 3 ∨ e.kind = 5 → e.start ≤ s.offsetNow i →
       s.offsetNow i < e.finish → (s.seg i).region ≠ .slot k →
       let g := i.val * 32 + e.drop
       (s.slotIdle i e = true → exec (.slotStart i k) s =
         .next ((((s.dropRun i).onSeg i fun x => { x with region := .slot k }).signalSeg i 0).settleIdle i)) ∧
       (s.slotIdle i e = false → e.kind ≠ 3 →
         let u := (((s.releaseWires i).dropRun i).onSeg i fun x => { x with region := .slot k, rtvStep := 0 }).takeThird g
         (u.seg i).region = .slot k ∧ u.streams = s.streams ∧ u.out = s.out ∧
         ((s.seg i).frozen = true ∨ (s.seg i).arb.freeze = true ∨ (s.drop g).found = false ∨ (s.drop g).state = .retired ∨
           (s.drop g).negoFail ≠ none → exec (.slotStart i k) s = .next u) ∧
         ((s.seg i).frozen = false → (s.seg i).arb.freeze = false → (s.drop g).found = true → (s.drop g).state ≠ .retired →
           (s.drop g).negoFail = none →
           (e.kind = 1 → exec (.slotStart i k) s = .next (u.rawSlot i e)) ∧ (e.kind = 2 → exec (.slotStart i k) s = .next (u.waferSlot i e)) ∧
           (e.kind = 5 → exec (.slotStart i k) s = .next (u.nextRtv i)))) ∧
       (s.slotIdle i e = false → e.kind = 3 →
         let u := (((s.releaseHolder i).dropRun i).onSeg i fun x => { x with region := .slot k, rtvStep := 0 }).takeThird g
         exec (.slotStart i k) s = .next (u.claimWires i) ∧ (u.seg i).region = .slot k ∧ u.streams = s.streams)) ∧
     ((s.seg i).frozen = false → (s.seg i).syncNs = none → s.boot.phase ≠ .service →
       s.syncFree i = true ∨ (s.cycS i ≤ s.offsetNow i ∧ s.offsetNow i ≤ s.cycS i + 6) →
       let c2 := s.base2 i
       let n := s.countdown i c2
       ∃ t, exec (.sync i) s = .next t ∧ (t.seg i).seq = (s.seg i).seq + 1 ∧ (t.seg i).syncNs = some (s.seg i).endNs ∧ (t.seg i).syncC2 = c2 ∧
         t.out = s.out ++ (if c2 && !(s.seg i).rate2 then [.colant i 2 [alignWord, alignWord]] else [])
           ++ [.colant i (if c2 then 2 else 1)
                (broadcast opSync [BitVec.ofNat 16 (((s.seg i).seq + 1).toNat * 256 + n / 65536), BitVec.ofNat 16 n])] ∧
         (∀ g ∈ s.segDrops i, (t.drop g).refreshTick = s.tick) ∧
         (∀ g, g ∉ s.segDrops i → (∀ r, (s.seg i).run = some r → g ≠ i.val * 32 + r.drop) → t.drop g = s.drop g) ∧
         (∀ j, j ≠ i.val → t.seg j = s.seg j)))

/-- In a cycle's head every change due at its start takes effect together: the calendar is the one decided for it, no due change stays staged or waiting
(R173, R231, R233). At a presentation instant a drop in FALLBACK whose hand-back instant has come is ACTIVE again; drops of other segments stay
(R163). At the presentation instant T that a SYNC launched has counted to, every drop of the segment presents that SYNC's SEQ, and what its back buffer
holds where this is the picture for T and was not late, a drop handed back in time what its third buffer holds; otherwise it presents its front buffer
again (R14, R97, R163, R298, R299). -/
def Obligations.BoundariesSwapCalendarsAndPresent : Prop :=
  (∀ (i : SegId) (s : State), s.Rising → (s.seg i).started = true → s.offsetNow i ≤ 120 →
     (s.seg i).calDue (s.seg i).cycleStartNs = true →
     ∃ t, exec (.calendarSwap i) s = .next t ∧ (t.seg i).calendar = ((s.seg i).calendarAt (s.seg i).cycleStartNs).1 ∧
       (∀ e ∈ (t.seg i).staged, e.2.state = .pending → (s.seg i).cycleStartNs < e.2.due) ∧
       (∀ v ∈ (t.seg i).vendor, (s.seg i).cycleStartNs < v.due) ∧ (∀ j, j ≠ i.val → t.seg j = s.seg j) ∧ t = { s with segs := t.segs }) ∧
  (∀ (i : SegId) (s : State), s.Rising → (s.seg i).syncNs = none →
     ∃ t, exec (.presentationInstant i) s = .next t ∧
       (∀ g a, g ∈ s.segDrops i → (s.drop g).state = .fallback → (s.drop g).activeAt = some a → a ≤ s.now →
         (t.drop g).state = .active ∧ (t.drop g).activeAt = none) ∧
       (∀ g, g ∉ s.segDrops i → t.drop g = s.drop g) ∧ (s.bellsPass = true → t.parts = s.parts) ∧ t.segs = s.segs) ∧
  (∀ (i : SegId) (s : State) (T : Nat), s.Rising → (s.seg i).syncNs = some T → T ≤ s.now →
     ∃ t, exec (.presentationInstant i) s = .next t ∧ (t.seg i).syncNs = none ∧ (∀ j, j ≠ i.val → t.seg j = s.seg j) ∧
       (∀ g ∈ s.segDrops i,
         (t.drop g).presentedSeq = (s.seg i).seq ∧ (t.drop g).backFor = none ∧ (t.drop g).third = [] ∧
         ((s.drop g).backFor = some T → (s.drop g).lateFor ≠ some T →
           (t.drop g).front = if (s.drop g).handedBack then (s.drop g).third else (s.drop g).back) ∧
         ((s.drop g).backFor ≠ some T ∨ (s.drop g).lateFor = some T → (t.drop g).front = (s.drop g).front) ∧
         (∀ a, (s.drop g).state = .fallback → (s.drop g).activeAt = some a → a ≤ s.now → (t.drop g).state = .active)) ∧
       (∀ g, g ∉ s.segDrops i → t.drop g = s.drop g))

/-- The arbiter (R244–R255). Of the requests sampled the winner is one of the lowest group that requests: emergency, then forced by its Leash, then the
classes in order; within the group the first after the one that won in it last, in rising code and around. The winner's wait counter becomes 0, each
other request's counts up to its Leash limit, or 255 without one; an emergency request has none (R245, R251). An arbitration phase queues due
refreshes, limits each counter to its Leash (that a refresh is queued at an eighth of DD_KEEPALIVE is the model's choice, log entry 35), and a winner
chosen on free wires in a region takes them at once with its class's tenure, one chosen ahead is registered (R246, R247). A refresh that is K ÷ 2 old
becomes an emergency request; a shaper whose bucket is reached is placed again; vendor firmware's writes of the SCH registers set their fields. -/
def Obligations.ArbiterPhasesAndRegisters : Prop :=
  (∀ (a : Arb) (l : List Nat) (w : Nat) (b : Arb), l.Pairwise (· < ·) → tblRising a.wait = true → tblRising a.lastWin = true →
     a.pick l = some (w, b) →
     w ∈ l ∧ (∀ c ∈ l, a.groupOf w ≤ a.groupOf c) ∧ (codeEmg ∈ l → w = codeEmg) ∧
     (tblFind a.lastWin (a.groupOf w) = none → ∀ c ∈ l, a.groupOf c = a.groupOf w → w ≤ c) ∧
     (∀ k, tblFind a.lastWin (a.groupOf w) = some k → ∀ c ∈ l, a.groupOf c = a.groupOf w → (k < c → k < w ∧ w ≤ c) ∧ (w ≤ k → c ≤ k ∧ w ≤ c)) ∧
     tblGet 0 b.wait w = 0 ∧
     (∀ c ∈ l, c ≠ w → c ≠ codeEmg →
       tblGet 0 b.wait c = min (tblGet 0 a.wait c + 1) (if a.leashOf c = 0 then 255 else a.leashOf c)) ∧
     (∀ c, c ∉ l → tblGet 0 b.wait c = tblGet 0 a.wait c) ∧ tblFind b.lastWin (a.groupOf w) = some w ∧
     (∀ k, k ≠ a.groupOf w → tblFind b.lastWin k = tblFind a.lastWin k)) ∧
  (∀ (a : Arb) (l : List Nat), l ≠ [] → (a.pick l).isSome = true) ∧
  (∀ (a : Arb) (c : Nat), tblRising a.wait = true → c ∈ arbCodes →
     tblGet 0 a.clampWaits.wait c = if a.leashOf c = 0 then tblGet 0 a.wait c else min (tblGet 0 a.wait c) (a.leashOf c)) ∧
  ∀ (i : SegId) (s : State),
    ((s.seg i).whistleEnd = none → (s.seg i).started = true →
      let u := (((s.settleIdle i).queueRefreshes i).onArb i fun a => a.clampWaits).claimWires i
      exec (.arbitrationPhase i) s = .next (u.arbitrate i) ∧
      ((u.seg i).tx = none → (u.seg i).arb.holder = codeNone → u.wordsOut i = false → (u.seg i).arb.phaseTick ≠ some u.tick →
        (u.seg i).arb.next = none → u.holdDue i = false →
        let v := u.onArb i fun a => { a with phaseTick := some u.tick }
        ∀ r now w b, v.phaseRegion i = some (r, now) → (v.seg i).arb.pick (v.requests i r) = some (w, b) →
          (now = true → exec (.arbitrationPhase i) s = .next ((v.onArb i fun _ => b).takeWires i w (b.grantLimit w))) ∧
          (now = false → exec (.arbitrationPhase i) s =
            .next (v.onArb i fun _ => { b with next := some w, nextLimit := b.grantLimit w })))) ∧
    (∀ (g : DropId) x, (s.drop g).desc = some x → x.keepalive ≠ 0 → (s.drop g).found = true → (s.drop g).state ≠ .retired →
      (s.drop g).negoFail = none → (s.seg (g / 32)).clk = true → (s.drop g).refreshTick + x.keepalive.toNat * 100000 / 2 ≤ s.tick →
      ((s.seg (g / 32)).hk.any fun h => h.who == .keepalive && h.drop == g.val % 32 && h.emg) = false →
      exec (.keepaliveOverdue g) s = .next (s.onSeg (g / 32) fun x =>
        { x with hk := (x.hk.filter fun h => !(h.who == .keepalive && h.drop == g.val % 32)) ++ [keepaliveItem (g.val % 32) true] })) ∧
    (∀ (p : PartId) (sh : Fin 32) x b, s.shaper p sh = some x → x.bucket = some b → b ≤ s.now →
      exec (.wheelBucket p sh) s = .next (s.onShaper p sh fun x => { x with bucket := x.bucketFor s.now })) ∧
    (∀ (c : CtlCore) (v : W32), c.val < 2 → (s.pair 10).active = [] →
      exec (.schArbFreeze (.core c) i v) s = .next (s.onArb i fun a => { a with freeze := v.getLsbD 31 }) ∧
      exec (.schArbClassWrite (.core c) i v) s =
        .next (s.onArb i fun a => { a with cls := (v &&& 0xFFFF003F) ||| (a.cls &&& 0x0000FFC0) }) ∧
      exec (.schArbTenureWrite (.core c) i v) s = .next (s.onArb i fun a => { a with tenure := v }) ∧
      (∀ n : Fin 4, exec (.schArbLeashWrite (.core c) i n v) s =
        .next (s.onArb i fun a => { a with leash := tblSet 0 a.leash n v })))

/-! ### Guests (R104, R207–R212) -/

/-- A guest slot's start grants the slot's length less the GRANT's own words and those of a link-hold window that came first, counted from their end; the
tenure ends when its count is over, at once for the unit's purposes once the guest has sent RETURN (R104, R226). That a window which the region before
had no room for goes before the GRANT, and takes its words from the tenure, is the model's choice (R235, log entry 135). -/
def Obligations.TenuresAreGrantedReturnedAndEnded : Prop :=
  ∀ (i : SegId) (s : State), s.Rising →
    (∀ (k : CalIndex) e, (s.seg i).whistleEnd = none → (s.seg i).clk = true → (s.seg i).started = true → (s.seg i).retired = false →
      (s.seg i).tx = none → (s.seg i).tenure = none → (s.seg i).region ≠ .slot k → s.slotAt i k = some e → e.kind = 4 →
      e.start ≤ s.offsetNow i → s.offsetNow i < e.finish → s.slotIdle i e = false → (s.seg i).frozen = false →
      (s.seg i).arb.freeze = false → (s.drop (i.val * 32 + e.drop)).state ≠ .retired → (s.drop (i.val * 32 + e.drop)).negoFail = none →
      s.wordsOut i = false → (s.windowFirst i e && s.holdRoom i) = false →
      ∃ t, exec (.grant i k) s = .next t ∧ (t.seg i).region = .slot k ∧
        (let late := if e.start + 72 ≤ s.offsetNow i then (if e.rate == 1 then 72 else 36) else 0
         let n := e.len - late - (if e.rate == 1 then 3 else 2)
         (t.seg i).tenure = some {
           drop := e.drop, part := e.part, colant2 := e.rate == 1, words := n, returned := false, frozen := false, wait := none,
           startTick := s.tick + ceilDiv ((e.len - late - n) * (if e.rate == 1 then 25 else 50)) 30 })) ∧
    (∀ x, (s.seg i).tenure = some x → x.open s.tick = true → x.wait = none →
      exec (.guestReturn i) s = .next (s.onSeg i fun y => { y with tenure := y.tenure.map fun t => { t with returned := true } })) ∧
    (∀ x, (s.seg i).tenure = some x → x.startTick + x.ticks x.words ≤ s.tick →
      ∃ t, exec (.tenureEnd i) s = .next t ∧ (t.seg i).tenure = none ∧ (t.seg i).region = .openTime)

/-- A guest command in an open tenure (R76, R81, R86, R87): good words of the opcode's length, with a good CRC at Colant-2 rate, are acted on; a wrong
parity is answered NAK PARITY and counts in the segment's window, a wrong length NAK FORMAT, a wrong CRC NAK CRC; a RETURN header ends the guest's use,
by the model's choice whatever follows it (log entry 97).
What a waiting guest gets (R207–R210) once the last request of its read has ended: the data read for it, NAK HOST where the read is poisoned or times
out, NAK ACCESS where the host refuses it; NAK at its window's ceiling; what waits for the entry or the semaphore goes on; the oldest posted guest write leaves when its entry's turn comes, and a guest write that waits takes the free entry. -/
def Obligations.GuestCommandsAreJudgedAndAnswered : Prop :=
  (∀ (i : SegId) (s : State) (x : Tenure) (h : ColWord) (rest : List ColWord) (n : Nat),
     (s.seg i).tenure = some x → x.open s.tick = true → x.wait = none → goodWord h = true → h.c = true →
     (headOp h.data = opReturn → exec (.guestCommand i (h :: rest)) s = .next (s.returnTenure i)) ∧
     (headOp h.data ≠ opReturn → guestLen (headOp h.data) (headParam h.data) = some n →
      let fOk := (h :: rest).zipIdx.all fun y => y.1.f == (y.2 + 1 == (h :: rest).length)
      let data := rest.map (·.data)
      let all := (h :: rest).map (·.data)
      let crcOk := !x.colant2 || all.getLast?.getD 0 == crc16 all.dropLast
      let full := n + (if x.colant2 then 1 else 0)
      (rest.all goodWord = false → exec (.guestCommand i (h :: rest)) s = .next ((s.nakGuest i x 0x01).countError 3 i)) ∧
      (rest.all goodWord = true → (rest.length ≠ full ∨ fOk = false) → exec (.guestCommand i (h :: rest)) s = .next (s.nakGuest i x 0x05)) ∧
      (rest.all goodWord = true → rest.length = full → fOk = true → crcOk = false →
        exec (.guestCommand i (h :: rest)) s = .next (s.nakGuest i x 0x02)) ∧
      (rest.all goodWord = true → rest.length = full → fOk = true → crcOk = true →
        let len := if headOp h.data = opRdb ∨ headOp h.data = opWrb then headParam h.data + 1 else 1
        exec (.guestCommand i (h :: rest)) s = .next (s.guestAct i x (headOp h.data) (headDrop h.data)
          ((data.getD 0 0).toNat % 256 * 65536 + (data.getD 1 0).toNat) len ((data.drop 2).take len))))) ∧
  (∀ (i : SegId) (s : State) (x : Tenure) (c : GuestCmd),
     (s.seg i).tenure = some x →
     (∀ p d, s.guestRead i = some (p, d) → s.guestWaits i d.read = some (x, c) →
       let freed := fun (u : State) => (u.resumeRoom p).grantSem p
       (∀ y, s.endsWith d y = true →
         let e := s.endRequest d y
         let u := e.1.readFailed p y
         (e.2 = none → exec (.guestReadCompletion i y) s = .next u) ∧
         (∀ bytes, e.2 = some (.data bytes) → c.refused = false →
           exec (.guestReadCompletion i y) s = .next (freed (u.answerGuest i x opRdata 0 (c.words bytes)))) ∧
         (e.2 = some .unsupported ∨ e.2 = some .abort → exec (.guestReadCompletion i y) s = .next (freed (u.nakGuest i x 0x12))) ∧
         (e.2 = some .poisoned ∨ e.2 = some .timeout → exec (.guestReadCompletion i y) s = .next (freed (u.nakGuest i x 0x10)))) ∧
       (∀ y, s.endsWith d y = false → exec (.guestReadCompletion i y) s = .next s)) ∧
     (∀ id, x.wait = some (.read c id) → s.tick < c.arrival + c.hold * 10 → exec (.holdCeiling i) s = .next s) ∧
     ((x.wait = some (.posted c) ∨ x.wait = some (.room c) ∨ ∃ id, x.wait = some (.read c id)) → c.arrival + c.hold * 10 ≤ s.tick →
       exec (.holdCeiling i) s = .next (s.nakGuest i x 0x10)) ∧
     (x.wait = some (.semaphore c) → c.arrival + c.hold * 10 ≤ s.tick →
       exec (.holdCeiling i) s =
         .next ((s.onBridge x.part fun b => { b with semWaiting := b.semWaiting.filter (· != .guest i) }).nakGuest i x 0x04))) ∧
  (∀ (i : SegId) (s : State) (p : Nat) (g : GuestPost) (rest : List GuestPost),
     s.postOwner i = some p → (s.bridge p).guestPosted = g :: rest →
     let u := ((s.onBridge p fun b => { b with guestPosted := rest }).sendPost p g).grantSem p
     (u.waitingPost p = none → exec (.guestPostedEntry i) s = .next u) ∧
     (∀ k t c, u.waitingPost p = some (k, t, c) → (u.bridge p).postRoom = true →
       exec (.guestPostedEntry i) s = .next (u.acceptGuest k t c)))

/-! ### Host accesses and the bridge (R116–R140, R184–R220) -/

/-- A function that does not exist, has Memory Space Enable 0 or is in D3hot takes no request: reads, zero-length reads and AtomicOps are answered
Unsupported Request, writes are dropped (R116, R129, R135). A class whose credits the link withholds brings no request: nothing changes (R192, log
entry 143). An open function's access inside BAR2 is what the bridge makes of it while its buffers
have room; a zero-length read of a window with no earlier posted write to its segment completes at once; an AtomicOp outside BAR2, and a 128-bit CAS,
sets ATOMIC_UR and is unsupported (R127, R184, R190, R191). The bridge's commands (R185–R188): a request's words in order are cut into runs of
consecutive words that lie within one block of 64, and nowhere else; a DWord written through a window that the guard lets pass, to a drop that is
there, waits as one WRB of the DWord's two Colant words, in the order and with the bytes of the window's SWAP mode; a DWord read waits as one RDB of
the same words, and its completion then carries the DWord that was written; a word with one byte enabled is journalled as PARTIAL and not written; an
AtomicOp that finds the semaphore free takes it and reads its second word first (R210, R211). -/
def Obligations.HostRequestsAreTakenOrRefused : Prop :=
  (∀ (p : PartId) (s : State) (off : BitVec 34) (data : List W32) (fb lb : BitVec 4) (n tag bytes a b : Nat) (bar : BarId) (k : AtomicKind),
     (s.hostOpen p = false →
       (s.linkHeld p false = false → exec (.hostWrite p off data fb lb) s = .next (s.dropWrite p)) ∧
       (s.linkHeld p true = false →
         exec (.hostRead p off n fb lb tag) s = .next (s.emit (.cpl p tag .ur false [])) ∧
         exec (.zeroLengthRead p off tag) s = .next (s.emit (.cpl p tag .ur false [])) ∧
         exec (.atomicOp p bar off k bytes a b tag) s = .next (s.emit (.cpl p tag .ur false [])))) ∧
     (s.linkHeld p false = true → exec (.hostWrite p off data fb lb) s = .next s) ∧
     (s.linkHeld p true = true →
       exec (.hostRead p off n fb lb tag) s = .next s ∧ exec (.zeroLengthRead p off tag) s = .next s ∧
       exec (.atomicOp p bar off k bytes a b tag) s = .next s)) ∧
  (∀ (p : PartId) (s : State) (off : BitVec 34) (tag : Nat), s.hostOpen p = true → off.toNat < s.bar2Size p →
     s.linkHeld p false = false → s.linkHeld p true = false →
     (∀ data fb lb t, s.acceptWrite p (requestHalves off.toNat data.length data fb lb) = some t →
       exec (.hostWrite p off data fb lb) s = .next t) ∧
     (∀ n fb lb t, s.acceptRead p off.toNat n tag (requestHalves off.toNat n [] fb lb) = some t →
       exec (.hostRead p off n fb lb tag) s = .next t) ∧
     (∀ e, (s.bridge p).windowAt (off.toNat / 2) = some e → s.postedTo p e.2.seg = [] →
       exec (.zeroLengthRead p off tag) s = .next (s.emit (.cpl p tag .sc false [0, 0, 0, 0]))) ∧
     (∀ k n a b t, n = 4 ∨ n = 8 → s.acceptAtomic p off.toNat k n a b tag = some t →
       exec (.atomicOp p .bar2 off k n a b tag) s = .next t) ∧
     (∀ bar k n a b, bar ≠ .bar2 ∨ n = 16 →
       exec (.atomicOp p bar off k n a b tag) s = .next ((s.onPart p (·.setErr 2)).emit (.cpl p tag .ur false [])))) ∧
  (∀ l : List Part,
     (runsOfParts l).flatten = l ∧
     (∀ r ∈ runsOfParts l, r ≠ [] ∧ ∀ a x y b, r = a ++ x :: y :: b → y.word = x.word + 1 ∧ y.word / 64 = x.word / 64 ∧ y.fate = x.fate ∧
       y.window = x.window ∧ y.region = x.region ∧ y.fate ≠ .partialWord) ∧
     (∀ a r x y q b, runsOfParts l = a ++ (r ++ [x]) :: (y :: q) :: b →
       y.word ≠ x.word + 1 ∨ y.word / 64 ≠ x.word / 64 ∨ y.fate ≠ x.fate ∨ y.window ≠ x.window ∨ y.region ≠ x.region ∨ y.fate = .partialWord)) ∧
  (∀ (p : PartId) (s : State) (off : BitVec 34) (d : W32) (tag : Nat) (k : Nat) (w : Window), s.Rising → s.hostOpen p = true →
     off.toNat < s.bar2Size p → off.toNat % 4 = 0 → s.linkHeld p false = false → s.linkHeld p true = false →
     (s.bridge p).windowAt (off.toNat / 2) = some (k, w) → (s.bridge p).windowAt (off.toNat / 2 + 1) = some (k, w) → s.win p k = some w →
     w.haddr.toNat % 4 = 0 → w.cbase % 2 = 0 → w.swap ≠ 3 → s.dropState (w.seg * 32 + w.drop) = .active ∨ s.dropState (w.seg * 32 + w.drop) = .fallback →
     let a := w.cbase + (off.toNat - w.haddr.toNat) / 4 * 2
     let lo := d.extractLsb' 0 16
     let hi := d.extractLsb' 16 16
     let flip := fun x : W16 => (x.extractLsb' 0 8 ++ x.extractLsb' 8 8 : W16)
     let words : List W16 := if w.swap = 2 then [hi, lo] else if w.swap = 1 then [flip lo, flip hi] else [lo, hi]
     let halves := if w.swap = 2 then [some (off.toNat / 2 + 1), some (off.toNat / 2)] else [some (off.toNat / 2), some (off.toNat / 2 + 1)]
     let passes := fun kind => ((s.pair p).user 2 (colantAddr w.seg w.drop a) kind).2 = true ∧ ((s.pair p).user 2 (colantAddr w.seg w.drop (a + 1)) kind).2 = true
     let rdb : ColCmd := { op := .rdb, window := k, seg := w.seg, drop := w.drop, swap := w.swap, addr := a, len := 2, data := [], halves := halves, fill := false }
     let r : ReadReq := { off := off.toNat, dwords := 1, tag := tag, got := [], fails := [] }
     (passes .write → ∃ t, exec (.hostWrite p off [d] 15 0) s = .next t ∧ (t.bridge p).items.length = (s.bridge p).items.length + 1 ∧
       (t.bridge p).items.getLast? = some
         { id := s.nextId, arrival := s.tick, issued := false, retries := 0, read := none, atomic := none, epoch := (s.pair p).epoch, windows := [k],
           write := s.nextId,
           cmds := [{ op := .wrb, window := k, seg := w.seg, drop := w.drop, swap := w.swap, addr := a, len := 2, data := words, halves := [], fill := false }] }) ∧
     (exec (.hostWrite p off [d] 1 0) s = .next (s.journal p
       { seq := 0, cause := BitVec.ofNat 4 causePartial, nowin := false, dir := false, seg := w.seg, drop := w.drop, window := k, words := 0, nak := 0,
         addr := if w.swap = 2 then a + 1 else a, time := 0 })) ∧
     (passes .read → s.readsAhead w = false → ∃ u : State, exec (.hostRead p off 1 15 0 tag) s = .next (u.settleItem p s.nextId) ∧
       (s.item p s.nextId = none → exec (.hostRead p off 1 15 0 tag) s = .next u) ∧ (u.bridge p).items = (s.bridge p).items ++
       [{ id := s.nextId, arrival := s.tick, cmds := [rdb], issued := false, retries := 0, read := some r, atomic := none, epoch := (s.pair p).epoch,
          windows := [k], write := s.nextId }]) ∧
     ({ r with got := (halves.zip words).filterMap fun x => x.1.map fun h => (h, halfOf w.swap x.2) } : ReadReq).bytes = leBytes d.toNat 4 ∧
     let u := s.spoilReads p w.seg w.drop
     (∀ kind x y, passes .locked → (s.bridge p).semOwner = .none → (s.bridge p).semWaiting = [] →
       ∃ t, exec (.atomicOp p .bar2 off kind 4 x y tag) s = .next t ∧ (t.bridge p).semOwner = .atomic ∧
         (t.bridge p).items.getLast? = some
           { id := u.nextId, arrival := s.tick, issued := false, retries := 0, read := none, epoch := (u.pair p).epoch, windows := [k], write := u.nextId,
             atomic := some { kind := kind, n := 2, operand := x, compare := y, tag := tag, step := 2, window := k, seg := w.seg, drop := w.drop,
                              swap := w.swap, addr := a, got := [], fail := none },
             cmds := [{ op := .rdb, window := k, seg := w.seg, drop := w.drop, swap := w.swap, addr := a + 1, len := 1, data := [], halves := [],
                        fill := false }] }))

/-- A host write of a DWord that lies in no enabled window is no Colant command: it is journalled once as NO_WINDOW with its BAR2 offset, and nothing
goes to a segment (R184, R198, R200). In a session the entry has the next SEQ and is stored at that SEQ mod 256, unless 256 entries wait (that they
are counted by 32-bit arithmetic on NEXT − 1 − ACK is the model's choice, log entry 71): then it is counted as lost; without one the unit keeps it, up to 256. -/
def Obligations.WriteOutsideWindowsIsJournalled : Prop :=
  ∀ (p : PartId) (s : State) (off : BitVec 34) (d : W32), s.Rising → s.hostOpen p = true → off.toNat < s.bar2Size p → off.toNat % 4 = 0 →
    (s.bridge p).windowAt (off.toNat / 2) = none → (s.bridge p).windowAt (off.toNat / 2 + 1) = none → s.linkHeld p false = false →
    let b := s.bridge p
    let entry : W32 → JrnEntry := fun seq =>
      { seq := seq, cause := 5, nowin := true, dir := false, seg := 0, drop := 0, window := 0, words := 1, nak := 0, addr := off.toNat / 2,
        time := BitVec.ofNat 32 s.now }
    let waiting := (b.jrnNext - 1 - b.jrnAck).toNat
    ∃ t, exec (.hostWrite p off [d] 15 0) s = .next t ∧ (t.bridge p).items = b.items ∧ (t.bridge p).windows = b.windows ∧ t.segs = s.segs ∧
      t.drops = s.drops ∧
      ((s.part p).session ≠ .closed →
        (t.bridge p).jrnNext = nextSeq b.jrnNext ∧ (t.bridge p).fenceSeqs = b.fenceSeqs ++ [b.jrnNext] ∧
        (waiting < 256 → (t.bridge p).journal = tblPut b.journal (b.jrnNext.toNat % 256) (entry b.jrnNext) ∧ (t.bridge p).jrnLost = b.jrnLost) ∧
        (256 ≤ waiting → (t.bridge p).journal = b.journal ∧ (t.bridge p).jrnLost = satInc b.jrnLost)) ∧
      ((s.part p).session = .closed → (t.bridge p).journal = b.journal ∧ (t.bridge p).jrnNext = b.jrnNext ∧
        (b.kept.length < 256 → (t.bridge p).kept = b.kept ++ [entry 0] ∧ (t.bridge p).keptLost = b.keptLost) ∧
        (256 ≤ b.kept.length → (t.bridge p).kept = b.kept ∧ (t.bridge p).keptLost = b.keptLost + 1))

/-- A poisoned write is dropped, sets HST_ERR.POISON_RX (bit 3), is reported through AER and does nothing else (R133, R135). The request a DMA_READ_COMPLETION names ends, and with a read's last one the read: entries
fetched are queued behind those already fetched; a failed fetch is retried once after 10 µs and a second failure is the ring's ERROR; with the
Completion Timeout disabled there is none (R117, R135, R143, R146). -/
def Obligations.PoisonAndFetchReads : Prop :=
  (∀ (p : PartId) (s : State), s.Rising → s.linkHeld p false = false →
     ∃ t, exec (.poisonedWrite p) s = .next t ∧
       t.part p = { s.part p with hstErr := (s.part p).hstErr ||| 8, aer := { (s.part p).aer with poisoned := true } } ∧
       (∀ q, q ≠ p.val → t.part q = s.part q) ∧ t = { s with parts := t.parts }) ∧
  (∀ (first count : Nat) (d : DmaRead) (p : PartId) (r : RingId) (s : State),
     (s.dma.find? fun x => x.id == d.id && x.open) = some d → d.purpose = .fetch p r first count → s.Rising →
     tblRising (s.part p).rings = true → (s.ring p r).state = .active →
     (∀ b : List Byte, b.length = d.len →
       let e := s.endRequest d (.data b)
       (e.2 = none → exec (.dmaReadCompletion d.id (.data b)) s = .next e.1) ∧
       (∀ w, e.2 = some (.data w) → exec (.dmaReadCompletion d.id (.data b)) s = .next (e.1.fetchDone p r first count w))) ∧
     ((s.part p).dev.timeoutOff = false → (s.endRequest d .timeout).2.isSome = true →
       ((s.ring p r).retried = false →
         ∃ t, exec (.dmaReadCompletion d.id .timeout) s = .next t ∧ (t.ring p r).retryTick = some s.tick ∧
           (t.ring p r).state = .active ∧ (t.part p).hstErr = (s.part p).hstErr ||| 16) ∧
       ((s.ring p r).retried = true →
         ∃ t, exec (.dmaReadCompletion d.id .timeout) s = .next t ∧ (t.ring p r).state = .error)) ∧
     ((s.part p).dev.timeoutOff = true → exec (.dmaReadCompletion d.id .timeout) s = .next s)) ∧
  (∀ (d : DmaRead) (p : PartId) (r : RingId) (b w : List Byte) (s : State),
     (s.dma.find? fun x => x.id == d.id && x.open) = some d → d.purpose = .command p r → b.length = d.len →
     let e := s.endRequest d (.data b)
     e.2 = some (.data w) → exec (.dmaReadCompletion d.id (.data b)) s = .next (e.1.commandRead p r d.read (some w)))

/-- Link and power events of a partition (R118, R119, R128–R131): readiness after start-up on a link that nothing holds down; a write of the power
management control, answered with Configuration Request Retry Status until the partition is ready: PowerState 3 is D3hot and pauses the heartbeat, 0
is D0, D1 and D2 are ignored; the resend of a PME, the answer to PME_Turn_Off, L1 after 32 idle µs. -/
def Obligations.LinkAndPowerEvents : Prop :=
  ∀ (p : PartId) (s : State), s.Rising → s.map.hasPart p = true →
    (s.boot.phase = .running → (s.part p).ready = false → s.held p = false →
      ∃ t, exec (.partitionReady p) s = .next t ∧ (t.part p).ready = true ∧ (t.part p).linkUp = true ∧ (t.part p).l0Tick = some s.tick) ∧
    ((s.part p).ready = true → s.linkHeld p true = false →
      (∀ w : PmWrite, ∃ t, exec (.d3hotEntry p w) s = .next t ∧
        (t.part p).dstate = (if w.power = 3 then .d3hot else if w.power = 0 then .d0 else (s.part p).dstate) ∧ (t.part p).pmeEn = w.pmeEn ∧
        (w.power = 3 → (s.part p).dstate = .d0 → (t.part p).hbPaused = true)) ∧
      (∀ w : D0Write, w.part = p → ∃ t, exec (.d0Return w) s = .next t ∧ (t.part p).dstate = .d0 ∧ (t.part p).pmeEn = w.pmeEn ∧
        ((s.part p).dstate = .d3hot → (t.part p).hbPaused = false ∧ (t.part p).hbTick = s.tick))) ∧
    ((s.part p).ready = false → s.linkHeld p true = false →
      (∀ w : PmWrite, exec (.d3hotEntry p w) s = .next (s.emit (.cfgRetry p))) ∧
      (∀ w : D0Write, w.part = p → exec (.d0Return w) s = .next (s.emit (.cfgRetry p)))) ∧
    (∀ k, (s.part p).pmeTick = some k → (s.part p).dstate = .d3hot → (s.part p).pmeStatus = true →
      k + 10000000 ≤ s.tick →
      ∃ t, exec (.pmeResend p) s = .next t ∧ t.out = s.out ++ [.pme p] ∧ (t.part p).pmeSent = satInc (s.part p).pmeSent) ∧
    (∀ l : LinkId, exec (.pmeTurnOff l) s = .next (s.emit (.pmeToAck l))) ∧
    (∀ l : LinkId, s.map.partsOf l = [p.val] → (s.part p).linkUp = true → (s.part p).aspmEn = true →
      (s.part p).idleTick + 3200 ≤ s.tick → (∀ d ∈ s.dma, d.part ≠ p.val) → (s.bridge p).guestPosted = [] →
      exec (.aspmL1Entry l) s = .next (s.onPart p fun x => { x with inL1 := true }))

/-- Link events, degraded links and function level resets (R29, R41, R118, R119, R160): what takes a link down closes each of its partitions' sessions and
counts, by the model's choice also where it is down already (log entry 132), and PERST#, an absent clock and Link Disable hold its port halves down
until they end; the reset of a function closes its session and removes its objects, clears its configuration space's enables as PCI Express has it (log
entry 12), and other partitions keep theirs; a link that has trained is noted with its speed and width, and degraded where they are not the full ones.
Configuration writes and BAR4 (R121, R125, R129, R130, R135): the Command register's enables, BARs and controls take what is written, in the row and at
the bit places that the model chose (log entries 5, 103); what was held leaves when DMA may run again; a vector unmasked while pending is sent once, its
table is read back. -/
def Obligations.ResetsAndHeldWrites : Prop :=
  (∀ (p : PartId) (l : LinkId) (s : State), s.Rising → s.map.partsOf l = [p.val] → s.map.hasPart p = true →
     (∀ ev : LinkEvent,
       (linkFalls ev = true → ∃ t, exec (.linkReset { link := l, event := ev }) s = .next t ∧ (t.part p).session = .closed ∧
         (t.part p).ready = false ∧ (t.part p).linkUp = false ∧ (t.part p).downCnt = satInc (s.part p).downCnt ∧
         (∀ h, h ∈ s.halvesOf l → (t.part h).holds = (s.part h).holds.after ev) ∧
         (∀ q, q ≠ p.val → (t.part q).session = (s.part q).session)) ∧
       (linkFalls ev = false → ∃ t, exec (.linkReset { link := l, event := ev }) s = .next t ∧ t = { s with parts := t.parts } ∧
         (∀ h, h ∈ s.halvesOf l → t.part h = { s.part h with holds := (s.part h).holds.after ev }) ∧
         (∀ h, h ∉ s.halvesOf l → t.part h = s.part h))) ∧
     ((s.part p).ready = true → s.linkHeld p true = false → ∃ t, exec (.functionLevelReset p) s = .next t ∧ (t.part p).session = .closed ∧ (t.part p).rings = [] ∧
       (t.part p).shapers = [] ∧ (t.bridge p).windows = [] ∧ (t.part p).mse = false ∧ (t.part p).bme = false ∧
       (∀ q, q ≠ p.val → (t.part q).session = (s.part q).session ∧ (t.part q).rings = (s.part q).rings) ∧
       (s.bellsPass = true → ∀ q, q ≠ p.val → t.part q = s.part q)) ∧
     (∀ speed width, s.linksLive = true → s.held p = false →
       ∃ t, exec (.linkDegraded l speed width) s = .next t ∧ (t.part p).speed = speed ∧ (t.part p).width = width ∧
       ((t.part p).degraded = true ↔ speed.toNat < 5 ∨ width.toNat < s.fullWidth p))) ∧
  (∀ (p : PartId) (s : State), s.Rising → s.map.hasPart p = true → (s.part p).ready = true → s.linkHeld p true = false →
     (∀ (reg : CfgReg) (value : W32) (be : BitVec 4),
       let u := (s.onPart p fun x => { x with inL1 := false, idleTick := s.tick }).onPart p fun x => x.cfg (x.cfgMerged reg value be) reg
       exec (.busMasterEnableSet p reg value be) s = .next (if reg = .msixControl then u.sendPending p else u.resumeDma p)) ∧
     (∀ value : W32, ∃ t, exec (.busMasterEnableSet p .command value 15) s = .next t ∧
       (t.part p).mse = value.getLsbD 1 ∧ (t.part p).bme = value.getLsbD 2)) ∧
  (∀ (p : PartId) (s : State) (off : BitVec 13) (v : W32) (tag : Nat), s.Rising → s.linkHeld p false = false → s.linkHeld p true = false →
     (s.hostOpen p = true →
       exec (.msixUnmask p off (some v) tag) s = .next ((s.onPart p (·.bar4Write off.toNat v)).sendPending p) ∧
       exec (.msixUnmask p off none tag) s = .next (s.emit (.cpl p tag .sc false (leBytes ((s.part p).bar4 (off.toNat / 4 * 4)) 4))) ∧
       (∀ (k : Fin 256) x, off.toNat = 16 * k.val + 12 → (s.part p).dmaOk = true → (s.part p).funcMask = false →
         (s.part p).vectors = [(k.val, x)] → x.pending = true → v.getLsbD 0 = false →
         ∃ t, exec (.msixUnmask p off (some v) tag) s = .next t ∧ t.out = s.out ++ [.msix p k] ∧
           (t.part p).vectors = [(k.val, { x with mask := false, pending := false })])) ∧
     (s.hostOpen p = false →
       exec (.msixUnmask p off (some v) tag) s = .next (s.dropWrite p) ∧
       exec (.msixUnmask p off none tag) s = .next (s.emit (.cpl p tag .ur false []))))

/-- Doorbells, ring 0 and the heartbeat (R142–R146, R161, R177): a tail inside a ring is taken and fetching goes on; a head releases the
completions before it; a doorbell of a ring that does not exist, a tail that is at least the SQ size and a head that would release a completion not yet
written change nothing but the ring's bit in HST_DB_ERR (R145; that a head equal to the present one releases nothing is the model's choice, log entry
133); a failed fetch is tried again after 10 µs; EN with legal sizes makes ring 0 ACTIVE; any
heartbeat write restarts the timer, which lapses the session when it runs out. -/
def Obligations.DoorbellsRingZeroAndHeartbeat : Prop :=
  ∀ (p : PartId) (r : RingId) (v : W32) (s : State), s.Rising → s.hostOpen p = true → s.linkHeld p false = false →
    ((s.ring p r).state ≠ .absent → field v.toNat 11 0 < (s.ring p r).size →
      ∃ m t : State, exec (.sqTailDoorbell p r v) s = .next t ∧ t = m.fetch p r ∧ (m.ring p r).sqTail = field v.toNat 11 0 ∧
        (m.part p).dbErr = (s.part p).dbErr) ∧
    ((s.ring p r).state = .absent ∨ (s.ring p r).size ≤ field v.toNat 11 0 →
      exec (.sqTailDoorbell p r v) s = .next (s.onPart p fun x => { x with dbErr := x.dbErr ||| BitVec.ofNat 32 (2 ^ r.val) })) ∧
    (let g := s.ring p r
     let h := field v.toNat 11 0
     let n := (h + g.cqSize - g.cqHead) % g.cqSize
     g.state = .absent ∨ g.cqSize ≤ h ∨ s.written p r < n →
      exec (.cqHeadDoorbell p r v) s = .next (s.onPart p fun x => { x with dbErr := x.dbErr ||| BitVec.ofNat 32 (2 ^ (16 + r.val)) })) ∧
    (let g := s.ring p r
     let h := field v.toNat 11 0
     let n := (h + g.cqSize - g.cqHead) % g.cqSize
     g.state ≠ .absent → h < g.cqSize → n ≤ s.written p r →
      exec (.cqHeadDoorbell p r v) s = .next ((s.onRing p r fun g => { g with cqHead := h, unreleased := g.unreleased - n }).fetch p r)) ∧
    (∀ k, (s.ring p r).retryTick = some k → k + 1000 ≤ s.tick →
      exec (.sqFetchRetry p r) s = .next ((s.onRing p r fun g => { g with retryTick := none, retried := true }).fetch p r)) ∧
    ((s.part p).admEn = false → v.getLsbD 31 = true → logsOk (field v.toNat 3 0) (field v.toNat 11 8) = true →
      ∃ t, exec (.adminRingEnable p v) s = .next t ∧ (t.ring p 0).state = .active ∧ (t.ring p 0).sqAddr = (s.part p).admSq ∧
        (t.ring p 0).cqAddr = (s.part p).admCq ∧ (t.ring p 0).sqLog2 = field v.toNat 3 0 ∧ (t.part p).admEn = true) ∧
    ((s.part p).session ≠ .closed → exec (.heartbeat p) s = .next (s.onPart p fun x => { x with hbTick := s.tick })) ∧
    (s.heartbeatDue p = true → s.boot.coreDown = [] →
      ∃ t, exec (.heartbeatLapse p) s = .next t ∧ (t.part p).session = .lapsed ∧ (t.faultRec (0x010 + 2 * p.val)).sticky = true ∧
        (∀ g, s.owns p g = true → (s.drop g).state = .active → (t.drop g).state = .fallback ∧
          (t.drop g).fallbackFrom = some (s.now + 1000000)))

/-- The bridge's own events (R196, R204, R210, R218): the free semaphore is claimed for 1 ms and released, its expiry releases it and sets EXPIRED; a
read-ahead buffer 100 µs old is invalidated; a stale item fails and its write or request counts once, with nothing stale nothing
fails; an acknowledgement inside ACK … NEXT − 1, by the model's choice in 32-bit arithmetic (log entry 71), is taken, another ignored. -/
def Obligations.BridgeEventsHappen : Prop :=
  ∀ (p : PartId) (s : State), s.Rising → s.hostOpen p = true → s.linkHeld p false = false →
    ((s.bridge p).semOwner = .none → (s.bridge p).semWaiting = [] →
      exec (.claim p) s = .next (s.onBridge p fun b => { b with semOwner := .host, semExpiry := some (s.tick + 100000) })) ∧
    ((s.bridge p).semOwner ≠ .none → exec (.claim p) s = .next s) ∧
    ((s.bridge p).semOwner = .host → (s.bridge p).semWaiting = [] →
      ∃ t, exec (.release p) s = .next t ∧ (t.bridge p).semOwner = .none ∧ (t.bridge p).semExpiry = none) ∧
    (∀ k, (s.bridge p).semExpiry = some k → k ≤ s.tick → (s.bridge p).semWaiting = [] →
      ∃ t, exec (.semaphoreExpiry p) s = .next t ∧ (t.bridge p).semOwner = .none ∧ (t.bridge p).semExpired = true) ∧
    (∀ (w : Fin 256) a x, s.win p w = some x → x.ahead = some a → a.tick + 10000 ≤ s.tick →
      exec (.prefetchExpiry p w) s = .next (s.invalidate p w) ∧ (s.invalidate p w).win p w = some { x with
        ahead := none, discard := x.discard || (a.destructive && !a.words.isEmpty) }) ∧
    (s.staleItem p = none → exec (.stale p) s = .next s) ∧
    (∀ it, s.staleItem p = some it → (s.bridge p).items = [it] → it.cmds.length = 1 →
      exec (.stale p) s = .next (((s.failHead p it.id causeStale 0).countStale p it).failStale 1 p) ∧
      (it.staleSeen = false → ((((s.failHead p it.id causeStale 0).countStale p it).failStale 1 p).bridge p).staleCnt = satInc (s.bridge p).staleCnt)) ∧
    (∀ v : W32, ∃ t, exec (.brgJrnAckWrite p v) s = .next t ∧ (t.bridge p).jrnAck =
      (if (v - (s.bridge p).jrnAck).toNat ≤ ((s.bridge p).jrnNext - 1 - (s.bridge p).jrnAck).toNat then v else (s.bridge p).jrnAck))

/-! ### Event controller (R399–R421) -/

/-- Arrivals and delivery (R400, R403, R406–R416): a doorbell is an arrival of the private or shared source it names; a reserved source never signals; one of a masked shared source counts it,
saturating at 255, and sets its PENDING; a hold-off timer that has run out commits the group's pending unmasked sources; a window that is over closes,
and sends one MSI-X for a vector that may be sent. -/
def Obligations.ArrivalsCommitsAndDeliveries : Prop :=
  ∀ (s : State) (c0 : CtlCore), s.Rising → c0.val < 2 → (s.pair 10).active = [] →
    (∀ (v : W32), let n := field v.toNat 11 0
      exec (.doorbell (.core c0) v) s =
        .next (if v.getLsbD 31 then s.strike (.priv (field v.toNat 29 28) n) else if n < 3072 then s.strike (.shared n) else s)) ∧
    (∀ (v : W32), v.getLsbD 31 = false → reservedSource (field v.toNat 11 0) = true → exec (.doorbell (.core c0) v) s = .next s) ∧
    (∀ (v : W32), v.getLsbD 31 = false → field v.toNat 11 0 < 3072 → reservedSource (field v.toNat 11 0) = false → (s.source (field v.toNat 11 0)).mask = true →
      let n := field v.toNat 11 0
      let x := s.source n
      ∃ t, exec (.doorbell (.core c0) v) s = .next t ∧
        t.source n = { x with count := (if x.count = 255 then 255 else x.count + 1), saturated := x.saturated || x.count == 255, pending := true } ∧
        (∀ k, k ≠ n → t.source k = s.source k) ∧ t = { s with evc := t.evc }) ∧
    (∀ (grp : GroupId) k n, (s.group grp).expiry = some k → k ≤ s.tick → groupOf n = grp.val → (s.source n).pending = true →
      (s.source n).mask = false → (s.source n).window = none →
      ∃ t, exec (.holdoffExpiry grp) s = .next t ∧ (t.group grp).expiry = none ∧ (t.source n).pending = false ∧ (t.source n).fired = true ∧
        (t.source n).window = some (s.tick + 12, s.target n) ∧ t = { s with evc := t.evc }) ∧
    (∃ t, exec .deliveryWindowClose s = .next t ∧
      ∀ n k x, (s.source n).window = some (k, x) → k ≤ s.tick → (s.source n).pending = false → (t.source n).window = none) ∧
    (∀ (p v n k : Nat) (x : Source), s.evc.sources = [(n, x)] → x.window = some (k, .vector p v) → k ≤ s.tick → x.pending = false →
      s.evc.cores = [] → (s.part p).dstate = .d0 → (s.part p).bme = true → (s.part p).funcMask = false →
      (tblGet {} (s.part p).vectors v).mask = false →
      ∃ t, exec .deliveryWindowClose s = .next t ∧ t.out = s.out ++ [.msix p v] ∧ (t.source n).window = none)

/-- The controller's registers (R402, R405–R407, R411, R412, R414, R420, R421): a partition writes VECTOR and MASK of a source of its own, leaves arrivals
it has handled, sets its unit group's hold-off; that a write of EVC_VECTOR or EVC_MASK
carries the source's whole EVC_SRC_CFG is the model's choice (log entry 58); vendor firmware routes sources, masks a core's interrupt, claims the lowest delivered source, private
ones first. -/
def Obligations.EventRegistersAreWritten : Prop :=
  ∀ (s : State) (c0 c : CtlCore) (p : PartId) (v : W32), s.Rising → c0.val < 2 → (s.pair 10).active = [] → s.hostOpen p = true →
    s.linkHeld p false = false →
    (let n := (s.part p).evcSel.toNat
     s.sourceOwner n = some p.val →
      (let r := s.route n
       let u := if r.tkind then s else s.setSource n { s.source n with route := some { r with vector := field v.toNat 7 0 } }
       exec (.evcVectorWrite p v) s = .next (u.maskWrite n (v.getLsbD 30)) ∧
       exec (.evcMaskWrite (.host p) v) s = .next (u.maskWrite n (v.getLsbD 30))) ∧
      exec (.evcSrcAck p v) s = .next (s.setSource n { s.source n with
        count := (s.source n).count - BitVec.ofNat 8 (min (field v.toNat 7 0) (s.source n).count.toNat), saturated := false }) ∧
      (∀ grp : GroupId, groupOf n = 88 + p.val → grp.val = 88 + p.val →
        exec (.evcGrpHoldoffWrite (.host p) grp v) s = .next (s.setGroup grp { s.group grp with holdoff := v.extractLsb' 0 16 }))) ∧
    (s.evc.routeSel.toNat < 3072 →
      let n := s.evc.routeSel.toNat
      let r : Route := { tkind := v.getLsbD 30, core := field v.toNat 29 28, part := (s.sourceOwner n).getD (field v.toNat 10 8),
                         vector := field v.toNat 7 0 }
      exec (.evcRouteWrite (.core c0) v) s = .next ((s.setSource n { s.source n with route := some r }).maskWrite n (v.getLsbD 31))) ∧
    exec (.evcImaskWrite (.core c0) c v) s = .next (s.onEvcCore c fun e => ({ e with imask := v.getLsbD 0 } : EvcCore).settle) ∧
    (let k := (s.evcCore c).claim
     exec (.evcCoreClaim (.core c0) c) s = .next ((s.onEvcCore c fun _ => k.2.settle).emit (.regData (.core c0) k.1))) ∧
    (∀ n rest, (s.evcCore c).priv = [] → (s.evcCore c).delivered = n :: rest →
      ∃ t, exec (.evcCoreClaim (.core c0) c) s = .next t ∧ t.out = s.out ++ [.regData (.core c0) (BitVec.ofNat 32 (2 ^ 31 + n))] ∧
        (t.evcCore c).delivered = rest) ∧
    (let k := (s.evcCore c).cntSel.toNat
     exec (.evcPcntWrite (.core c0) c v) s = .next (s.onEvcCore c fun e =>
      { e with priv := tblSet {} e.priv k { tblGet {} e.priv k with
          count := (tblGet {} e.priv k).count - BitVec.ofNat 8 (min (field v.toNat 7 0) (tblGet {} e.priv k).count.toNat), saturated := false } }))

/-! ### Guard registers (R429, R434, R436, R440–R443) -/

/-- Vendor firmware's accesses to a bank pair's registers: the selected entry is copied into the buffer; a load puts it into the inactive bank, or with
VALID 0 clears the entry there; a load with a load error changes no bank, and signals private source 17 of the pair's customer core; a swap exchanges
the banks, a clear frees the capture and its fault's live bit, a read of CAP_ADDR_LO answers the lower half and latches the upper one for its requester, EN with protected ranges that overlap
stays 0 with LOAD_ERR. -/
def Obligations.GuardRegistersAct : Prop :=
  ∀ (s : State) (c0 : CtlCore) (b : PairId) (v : W32), s.Rising → tblRising s.flt.faults = true → c0.val < 2 → (s.pair 10).active = [] →
    exec (.grdEntrySelWrite (.core c0) b v) s = .next (s.onPair b fun p =>
      { p with view := v.getLsbD 15, index := v.extractLsb' 0 9,
               buffer := bankEntry (if v.getLsbD 15 then p.active else p.inactive) (v.extractLsb' 0 9).toNat }) ∧
    (let k := (s.pair b).index.toNat
     let w := (s.pair b).buffer
     let load := fun p : BankPair => p.setInactive (if p.buffer.getLsbD 5 then tblPut p.inactive k p.buffer else tblErase p.inactive k)
     (v.getLsbD 0 = true → w.getLsbD 5 = false → exec (.grdEntryLoad (.core c0) b v) s = .next (s.onPair b load)) ∧
     (∀ g, v.getLsbD 0 = true → regionOf w = some g → s.loadError b k w g = none →
       exec (.grdEntryLoad (.core c0) b v) s = .next (s.onPair b load) ∧ bankEntry ((s.onPair b load).pair b).inactive k = w) ∧
     (∀ g e, v.getLsbD 0 = true → regionOf w = some g → s.loadError b k w g = some e →
       let u := s.onPair b fun p => { p with err := true, errCode := BitVec.ofNat 3 e.1, errOther := BitVec.ofNat 9 e.2 }
       exec (.grdEntryLoad (.core c0) b v) s = .next (if b.val = 8 ∨ b.val = 9 then u.signalPriv (b.val - 6) 17 else u)) ∧
     (v.getLsbD 0 = false → exec (.grdEntryLoad (.core c0) b v) s = .next s)) ∧
    (v.getLsbD 31 = true → exec (.grdBankSwap (.core c0) b v) s = .next (s.onPair b fun p => p.swap (v.getLsbD 30))) ∧
    (v.getLsbD 31 = true → ∃ t, exec (.grdCapClear (.core c0) b v) s = .next t ∧ (t.pair b).cap.valid = false ∧ (t.pair b).cap.count = 0 ∧
      (b.val < 8 → (t.faultRec (0x011 + 2 * b.val)).live = false) ∧ (b.val = 10 → (t.faultRec 0x00A).live = false)) ∧
    (tblRising (s.pair b).addrHi = true → ∃ t, exec (.grdCapAddrLoRead (.core c0) b) s = .next t ∧
      t.out = s.out ++ [.regData (.core c0) ((s.pair b).cap.addr.extractLsb' 0 32)] ∧ (t.pair b).cap = (s.pair b).cap ∧
      tblGet 0 (t.pair b).addrHi (latchOf (.core c0)) = (s.pair b).cap.addr.extractLsb' 32 32 ∧
      (∀ k, k ≠ latchOf (.core c0) → tblGet 0 (t.pair b).addrHi k = tblGet 0 (s.pair b).addrHi k)) ∧
    (∀ i : SegId, exec (.grdSegEnWrite (.core c0) i v) s = .next (s.onSeg i fun x => { x with filter := x.filter.writeEn (v.getLsbD 31) }))

/-- A violation of a pair that holds no capture is captured whole, sets its fault and its live bit; with a capture held only VIOL_CNT counts (R440, R441).
Doorbell writes of the hardware blocks that bank pair 10 refuses (R403, R423, R426): no source counts and no core's sources change; the first is captured,
with the block's code and EVC_DOORBELL's address, and is the unit guard fault; each later one counts in the capture alone; a watchdog's half whose
doorbell is refused has still passed. Which block's code a source has is the model's choice (log entry 141). -/
def Obligations.ViolationsAreCapturedOnce : Prop :=
  (∀ (s : State) (p : PartId) (split level : Bool) (k : AccKind) (space req addr : Nat), s.Rising → tblRising s.flt.faults = true →
     ((s.pair p).cap.valid = false →
       let t := s.violation p split level k space req addr
       (t.pair p).cap = {
         valid := true, partialAcc := split, level := level, kind := BitVec.ofNat 2 k.code, space := BitVec.ofNat 2 space,
         req := BitVec.ofNat 8 req, count := 1, addr := BitVec.ofNat 64 addr, time := BitVec.ofNat 32 s.now, epoch := (s.pair p).epoch } ∧
       (t.faultRec (0x011 + 2 * p.val)).live = true ∧ (t.faultRec (0x011 + 2 * p.val)).sticky = true) ∧
     ((s.pair p).cap.valid = true →
       s.violation p split level k space req addr = s.onPair p fun b => { b with cap := { b.cap with count := satInc b.cap.count } })) ∧
  (∀ s : State, s.Rising → tblRising s.flt.faults = true → s.bellsPass = false →
     (∀ b : Bell,
       (s.bell b).evc = s.evc ∧ (s.bell b).segs = s.segs ∧ (s.bell b).drops = s.drops ∧ (s.bell b).streams = s.streams ∧
       ((s.pair 10).cap.valid = false →
         ((s.bell b).pair 10).cap.valid = true ∧ ((s.bell b).pair 10).cap.addr = 0x10010000 ∧ ((s.bell b).pair 10).cap.space = 1 ∧
         ((s.bell b).pair 10).cap.kind = 1 ∧ ((s.bell b).pair 10).cap.req = BitVec.ofNat 8 b.code ∧
         ((s.bell b).faultRec 0x00A).live = true ∧ ((s.bell b).faultRec 0x00A).sticky = true) ∧
       ((s.pair 10).cap.valid = true →
         s.bell b = s.onPair 10 fun x => { x with cap := { x.cap with count := satInc x.cap.count } })) ∧
     (∀ c : CustCore, (s.cust c).state = .running → (s.cust c).wdogHalf = false → (s.cust c).wdogTick + s.wdogMs c * 100000 / 2 ≤ s.tick →
       ∃ t, exec (.watchdogHalf c) s = .next t ∧ (t.cust c).wdogHalf = true ∧ t.evc = s.evc ∧ (t.pair 10).cap.valid = true))

/-! ### Faults and logs (R444–R466) -/

/-- Clears, reads and restores (R446, R451, R457, R460, R465, R466): a partition clears its HEARTBEAT fault where it is not live; FLT_FIRST_LO answers the
first time's lower half and latches its upper one for the requester; a change of a class's error window takes effect at its bucket start; a coalescing interval without a repeat ends, one with repeats gives
one record of their COUNT and another interval; a retired segment's or core's restore brings it back; the log ring is enabled from an empty state
and its HEAD frees records, into which those that wait are written, and after them the GAP record where records were lost. -/
def Obligations.FaultRegistersAndIntervals : Prop :=
  ∀ (s : State) (c0 : CtlCore) (p : PartId), s.Rising → tblRising s.flt.faults = true → c0.val < 2 → (s.pair 10).active = [] →
    s.hostOpen p = true → s.linkHeld p false = false →
    (∀ v : W32, v.getLsbD 0 = true → v.getLsbD 1 = false → (s.faultRec (0x010 + 2 * p.val)).live = false →
      (s.faultRec (0x010 + 2 * p.val)).sticky = true →
      exec (.stickyClear (.host p) 0x6000 v) s =
        .next (s.setFault (0x010 + 2 * p.val) { s.faultRec (0x010 + 2 * p.val) with sticky := false, rep := 0 })) ∧
    (∀ v : W32, (s.faultRec (0x010 + 2 * p.val)).live = true → v.getLsbD 1 = false → exec (.stickyClear (.host p) 0x6000 v) s = .next s) ∧
    (tblRising s.flt.firstHi = true → ∃ t, exec (.fltFirstLoRead (.core c0)) s = .next t ∧
      t.out = s.out ++ [.regData (.core c0) ((s.faultRec s.flt.sel.toNat).firstTime.extractLsb' 0 32)] ∧ t.flt.faults = s.flt.faults ∧
      tblGet 0 t.flt.firstHi (latchOf (.core c0)) = (s.faultRec s.flt.sel.toNat).firstTime.extractLsb' 32 32) ∧
    (∀ cls n thresh ms, 2 ≤ cls → cls ≤ 5 → (s.flt.winCfg cls).next = some (n, thresh, ms) → n ≤ s.now →
      ∃ t, exec (.bucketStart cls) s = .next t ∧ t.flt.winCfg cls = { thresh := thresh, bucketMs := ms, next := none } ∧
        (∀ k, 2 ≤ k → k ≤ 5 → k ≠ cls → t.flt.winCfg k = s.flt.winCfg k) ∧ t.flt.bucketStartNs = tblSet 0 s.flt.bucketStartNs cls n ∧
        t.flt.windows = s.flt.windows ∧ t = { s with flt := t.flt }) ∧
    (∀ (isFault : Bool) (cls i : Nat) c, let k := if isFault then 0 else cls
      tblFind s.flt.coalesce (coalesceKey k i) = some c → c.until_ ≤ s.tick →
      (c.count = 0 → exec (.coalesceIntervalEnd isFault cls i) s = .next (s.onFlt fun f => { f with coalesce := tblErase f.coalesce (coalesceKey k i) })) ∧
      (c.count ≠ 0 →
        let l : LogRec := { type := if k = 0 then 2 else 3, cls := k, index := i, threshHit := false, time := s.now, count := c.count,
                            detail := if k = 0 then c.detail else 0, window := if k = 0 then 0 else min (s.windowCount k i) 65535, part := 0 }
        let more := c.until_ + s.flt.interval
        exec (.coalesceIntervalEnd isFault cls i) s =
          .next ((s.decideRec l (if k = 0 then s.faultParts i else s.errorParts k i)).onFlt fun f =>
            { f with coalesce := if more ≤ s.tick then tblErase f.coalesce (coalesceKey k i)
                                 else tblPut f.coalesce (coalesceKey k i) { until_ := more, count := 0, detail := 0 } }))) ∧
    (∀ i : SegId, (s.seg i).retired = true →
      ∃ t, exec (.segmentRestore (.core c0) (0x80001000#32 + BitVec.ofNat 32 i.val)) s = .next t ∧ (t.seg i).retired = false ∧ (t.seg i).resetDue = true) ∧
    (∀ n : CodecCore, (s.core n).retired = true →
      ∃ t, exec (.coreRestore (.core c0) (0x80002000#32 + BitVec.ofNat 32 n.val)) s = .next t ∧ (t.core n).retired = false ∧
        (t.faultRec (0x020 + n.val)).live = false) ∧
    (∀ v : W32, (s.part p).logRing.en = false → v.getLsbD 31 = true → 6 ≤ field v.toNat 3 0 → field v.toNat 3 0 ≤ 14 →
      exec (.fltLogCfgEn p v) s = .next (s.onPart p fun x => { x with logRing := { (s.part p).logRing with
        en := true, log2 := field v.toNat 3 0, head := 0, tail := 0, rseq := 1, lostSince := 0, waiting := [] } })) ∧
    (∀ v : W32, (((s.part p).logRing).releases (field v.toNat 13 0)).isSome →
      exec (.fltLogHeadWrite p v) s =
        .next ((s.onPart p fun x => { x with logRing := { (s.part p).logRing with head := field v.toNat 13 0 } }).flushLog p))

/-- A fault occurs (R445, R447): the first time its sticky bit sets with the time and detail of that moment; while it is set only its repeat counter
counts, which holds at 0xFFFF. -/
def Obligations.FaultsStickWithTheirFirstRecord : Prop :=
  ∀ (s : State) (i : Nat) (d : W32), tblRising s.flt.faults = true →
    let x := s.faultRec i
    (x.sticky = false → ((s.stick i d).faultRec i) = { x with sticky := true, firstTime := BitVec.ofNat 64 s.now, firstDetail := d }) ∧
    (x.sticky = true → s.stick i d = s.setFault i { x with rep := satInc x.rep }) ∧
    (∀ j, j ≠ i → (s.stick i d).faultRec j = s.faultRec j)

/-! ### Plant (R32–R45, R372–R374, R481) -/

/-- Mains and supply of a powered unit (R31, R38, R39, R372, R373): a power-fail warning empties the pool, is fault 0x000 and stops output, on a segment
with a response outstanding once that is over, until the mains have stood 100 ms at 80 V; its end clears the live bit; each cycle's reading counts 60 s; a supply below 240 W is fault 0x00C; loss of DC turns the
unit off. Temperature, fans, memory and vendor cores of a powered unit (R13, R34, R35, R481): 100 °C is a warning and fault 0x003 until it falls, 115
°C trips the unit with fault 0x004 and it may start again below 95 °C; a failed fan is fault 0x005 with the map of failed modules; a corrected memory
error is counted, another is fault 0x007; a vendor core's failure is fault 0x00B and ends the sessions it serves, and its return lets commands go on.
That the 100 ms count from a cycle's report, and that DC_GOOD follows a thermal restart, is the model's choice (log entries 36, 89). -/
def Obligations.SupplyTemperatureAndFailures : Prop :=
  (∀ (s : State), s.Rising → tblRising s.flt.faults = true → s.powered = true →
     (∀ dv, s.plant.warn = false →
       ∃ t, exec (.powerFailWarning dv) s = .next t ∧ t.plant.warn = true ∧ t.plant.halted = true ∧ t.plant.pool = 0 ∧
         (t.faultRec 0x000).live = true ∧ (t.faultRec 0x000).sticky = true ∧
         (∀ i : SegId, (s.seg i).clk = true →
           ((s.seg i).tx = none → (t.seg i).frozen = true) ∧ ((s.seg i).tx ≠ none → (t.seg i).freezeDue = true))) ∧
     (s.plant.warn = true → ∃ t, exec .powerFailWarningClear s = .next t ∧ t.plant.warn = false ∧ (t.faultRec 0x000).live = false) ∧
     (∀ dv, ∃ t, exec (.mainsCycle dv) s = .next t ∧ t.plant.lineDv = dv ∧ t.plant.lineReadings.head? = some (s.tick, dv) ∧
       (∀ r ∈ t.plant.lineReadings, s.tick ≤ r.1 + 6000000000) ∧ (dv < 800 → t.plant.restoreTick = none) ∧
       (800 ≤ dv → t.plant.restoreTick = some (s.plant.restoreTick.getD s.tick))) ∧
     (∀ k, s.plant.halted = true → s.plant.restoreTick = some k → k + 10000000 ≤ s.tick →
       ∃ t, exec .mainsRestored s = .next t ∧ t.plant.halted = false ∧ t.plant.lineReadings = [] ∧ (∀ i : SegId, (t.seg i).resumeDue = true)) ∧
     (∀ w, w < 960 → 960 ≤ s.plant.psuLimit.toNat →
       ∃ t, exec (.psuLimitChange w) s = .next t ∧ t.plant.psuLimit = BitVec.ofNat 16 w ∧ (t.faultRec 0x00C).live = true ∧ (t.faultRec 0x00C).sticky = true) ∧
     (∃ t, exec .dcRegulationLoss s = .next t ∧ t.boot.phase = .off ∧ t.boot.warm = false)) ∧
  (∀ (s : State), s.Rising → tblRising s.flt.faults = true → s.powered = true →
     (∀ x : Int, 1000 ≤ x → (s.faultRec 0x003).live = false →
       ∃ t, exec (.thermalWarning x) s = .next t ∧ t.plant.junction = x ∧ (t.faultRec 0x003).live = true ∧ (t.faultRec 0x003).sticky = true) ∧
     (∀ x : Int, x < 1000 → exec (.thermalWarningClear x) s = .next ((s.onPlant fun y => { y with junction := x }).setLive 0x003 false)) ∧
     (∀ x : Int, 1150 ≤ x →
       ∃ t r, exec (.thermalTrip x) s = .next t ∧ t.boot.phase = .tripped ∧ t.flt.store.head? = some r ∧ r.cls = 0 ∧ r.index = 4) ∧
     (∀ (u : State) (x : Int), u.boot.phase = .tripped → x < 950 →
       exec (.thermalRestart x) u = .next ((u.onPlant fun y => { y with junction := x }).onBoot fun b => { b with phase := .off })) ∧
     (∀ (m : Fin 4) (failed : Bool), tblRising s.plant.fans = true → tblGet false s.plant.fans m ≠ failed →
       ∃ t, exec (.fanFailure m failed) s = .next t ∧ t.plant.fans = tblSet false s.plant.fans m failed ∧
         (t.faultRec 0x005).live = (t.plant.fanMap != 0) ∧ (failed = true → (t.faultRec 0x005).sticky = true) ∧
         (failed = false → (t.faultRec 0x005).sticky = (s.faultRec 0x005).sticky)) ∧
     (∀ a, exec (.memoryError a .corrected) s = .next (s.onFlt fun f => { f with ecc := satInc f.ecc })) ∧
     (∀ a sent, ∃ t, exec (.memoryError a (.uncorrectable sent)) s = .next t ∧ (t.faultRec 0x007).sticky = true ∧
       (∀ k q adr l, sent = some k → s.out[k]? = some (.memWrite q adr l) → t.out[k]? = some (Output.memWrite q adr l).poison)) ∧
     (∀ c : Fin 2, tblFind s.boot.coreDown c = none → s.inTrial = false →
       ∃ t, exec (.vendorCoreRestart c) s = .next t ∧ tblFind t.boot.coreDown c = some s.tick ∧ (t.faultRec 0x00B).sticky = true ∧
         (∀ p : PartId, interpreterOf p = c.val → (t.part p).session = .closed)) ∧
     (∀ (c : Fin 2) k, tblRising s.boot.coreDown = true → tblFind s.boot.coreDown c = some k →
       ∃ t, exec (.vendorCoreRunning c) s = .next t ∧ tblFind t.boot.coreDown c = none))

/-- Power grants (R374): no class gets more than it asks for, and where the reservations fit the pool the grants together fit it. -/
def Obligations.PowerGrantsFitThePool : Prop :=
  (∀ (pool : Nat) (resv requests : List Nat), resv.length = 6 → requests.length = 6 →
    (grantsOf pool resv requests).length = 6 ∧
    (∀ k, (grantsOf pool resv requests).getD k 0 ≤ requests.getD k 0) ∧
    (∀ k, min (requests.getD k 0) (resv.getD k 0) ≤ (grantsOf pool resv requests).getD k 0) ∧
    (sumNat resv ≤ pool → sumNat (grantsOf pool resv requests) ≤ pool)) ∧
  (∀ (s : State) (requests draws : List Nat), s.powered = true → s.plant.grantTick = none →
    let g := grantsOf s.plant.pool.toNat (s.reservations s.passes) requests
    ∃ t, exec (.powerGrantPeriod requests draws) s = .next t ∧ t.plant.grantTick = some s.tick ∧
      t.plant.grants = (g.zipIdx.filter fun e => e.1 != 0).map fun e => (e.2, e.1))

/-- The network ports (R45, R487): a DHCP answer to a port that asks gives it its address; a request with the port's own MAC address goes out every 10 s;
after 30 s without an answer the service port takes its factory static setting; a lost lease leaves the timing port without an address and begins
requests again; ARP and echo are answered where there is an address; one client whose certificate verifies has the service session. -/
def Obligations.NetworkPortsFollowDhcp : Prop :=
  ∀ (s : State), s.powered = true →
    (∀ a n g k, s.plant.timing.requestTick = some k →
      exec (.dhcpAnswer .timing a n g) s = .next { s with plant := { s.plant with timing := { addr := some (a, n, g), leased := true } } }) ∧
    (∀ k l, s.plant.service.requestTick = some k → s.plant.service.addr = none → s.plant.service.lastRequest = some l → l + 1000000000 ≤ s.tick →
      k + 3000000000 ≤ s.tick →
      exec (.dhcpRequestTimer .service) s = .next { s with
        plant := { s.plant with service := { s.plant.service with lastRequest := some s.tick, addr := some factoryAddr } },
        out := s.out ++ [.dhcpRequest .service (macOf .service)] }) ∧
    (∀ k l, s.plant.timing.requestTick = some k → s.plant.timing.lastRequest = some l → l + 1000000000 ≤ s.tick →
      exec (.dhcpRequestTimer .timing) s = .next { s with
        plant := { s.plant with timing := { s.plant.timing with lastRequest := some s.tick } },
        out := s.out ++ [.dhcpRequest .timing (macOf .timing)] }) ∧
    (s.plant.timing.leased = true →
      exec (.leaseLost .timing) s = .next { s with
        plant := { s.plant with timing := { addr := none, leased := false, requestTick := some s.tick, lastRequest := some s.tick } },
        out := s.out ++ [.dhcpRequest .timing (macOf .timing)] }) ∧
    (∀ q n, s.plant.timing.addr.isSome →
      exec (.arpIcmpEchoRequest .timing q n) s = .next { s with out := s.out ++ [.net .timing q n (macOf .timing)] }) ∧
    (∀ q n, s.plant.timing.addr = none → exec (.arpIcmpEchoRequest .timing q n) s = .next s) ∧
    (s.plant.svcClient = false → s.plant.service.addr.isSome →
      exec (.servicePortClient true true) s = .next { s with plant := { s.plant with svcClient := true } } ∧
      exec (.servicePortClient true false) s = .next s) ∧
    exec (.servicePortClient false false) s = .next { s with plant := { s.plant with svcClient := false } }

/-! ### Composition and Wafer jobs (R296–R299, R353, R354) -/

/-- At a drop's compose instant a calibration set that waits takes effect, and where a picture slot carries the drop one pass for the instant's T begins
(R296, R325) and is the drop's newest. The oldest pass, once its back buffer is free and no
pass that began no later ends sooner, ends with its codes in the back buffer, marked for its T: the fallback content where the cycle from T − c shows it,
with the partition's own picture kept beside it (R163, R297, R299). A pass that is late, by whichever command it is found, is discarded and counted, for the drop and for the engine, and
COMPOSE LATE is a fault (R298). That a later pass does not hold back one already begun is the model's choice (log entry 110). -/
def Obligations.PassesAreComposed : Prop :=
  ∀ (g : DropId) (s : State), s.Rising → tblRising s.flt.faults = true →
    let c := s.cycleNs (g / 32)
    (s.instantDue g = true → s.composed g = true → (s.drop g).canvas = none →
      ∃ t x, exec (.composeInstant g) s = .next t ∧ (t.drop g).passes = (s.drop g).passes ++ [x] ∧ x.tNs = s.composeT (g / 32) ∧
        x.kNs = s.composeK (g / 32) ∧
        x.cal = ({ s.drop g with calNow := (s.drop g).calNext.getD (s.drop g).calNow } : Drop).calSet ∧
        (t.drop g).lastT = some (s.composeT (g / 32)) ∧ (t.drop g).lastK = s.composeK (g / 32) ∧
        (∀ h, h ≠ g.val → t.drop h = s.drop h) ∧ t.segs = s.segs ∧ t.tb = s.tb) ∧
    (s.instantDue g = true → s.composed g = false →
      ∃ t, exec (.composeInstant g) s = .next t ∧ (t.drop g).passes = (s.drop g).passes ∧
        (t.drop g).calNow = (s.drop g).calNext.getD (s.drop g).calNow ∧ (t.drop g).calNext = none ∧
        (∀ h, h ≠ g.val → t.drop h = s.drop h) ∧ t.segs = s.segs ∧ t.tb = s.tb) ∧
    (s.instantDue g = false → exec (.composeInstant g) s = .next s) ∧
    (∀ x rest, (s.drop g).passes = x :: rest → s.passLate g x = true → exec (.composePassEnd g) s = exec (.composeLate g) s) ∧
    (∀ x rest, (s.drop g).passes = x :: rest → s.passLate g x = false → s.backFree g x = true → s.passServed g x = true →
      (s.drop g).activeAt = none →
      let fb := (s.drop g).showsFallback (x.tNs - c)
      ∃ t, exec (.composePassEnd g) s = .next t ∧ (t.drop g).passes = rest ∧ (t.drop g).backFor = some x.tNs ∧
        (t.drop g).back = (if fb then (x.fallbackCodes (s.panel g)).1 else (x.ownCodes (s.panel g)).1) ∧
        (t.drop g).third = (if fb then (x.ownCodes (s.panel g)).1 else []) ∧
        (∀ h, h ≠ g.val → t.drop h = s.drop h) ∧ t.segs = s.segs ∧ t.tb = s.tb) ∧
    (∀ x rest d, (s.drop g).passes = x :: rest → s.passEnd g x.tNs = some d → ((x.tNs - c : Nat) : Int) * 12 + d ≤ (s.now : Int) * 12 →
      ∃ t, exec (.composeLate g) s = .next t ∧ (t.drop g).passes = rest ∧ (t.drop g).lateFor = some x.tNs ∧
        (t.drop g).composeLate = satInc (s.drop g).composeLate ∧ t.cmp.late = satInc s.cmp.late ∧ (t.faultRec 0x008).sticky = true ∧
        (∀ h, h ≠ g.val → t.drop h = s.drop h))

/-- Wafer jobs (R353, R354, R334, R358, R367): the first of the released jobs whose windows are open starts on the lowest free lane and leaves frames for its slot's budget; at its end
the lane is free and the frames are the slot's; a job that has not completed by its slot's START counts as late, its tiles are UNKNOWN, WAFER LATE is
a fault; FORCE marks the selected drop. What WAFER_LATE marks and the literal 4.27 µs of a lane's window are the model's choices (log entries 56, 85). -/
def Obligations.WaferJobsRunOnLanes : Prop :=
  ∀ (g : DropId) (i : CalIndex) (s : State), s.Rising → tblRising s.flt.faults = true → tblRising s.waf.running = true →
    (∀ lane e, s.freeLane = some lane → s.slotAt (g / 32) i = some e → s.waf.released.contains (g.val, i.val) = true → s.jobOpen g i = true →
      s.jobFirst g i = true →
      ∃ t o, exec (.waferJobStart g i) s = .next t ∧ tblFind t.waf.running lane = some { drop := g, index := i, out := some o } ∧ o.index = i ∧
        o.budget = e.budget ∧ o.sent = false ∧ t.waf.released = s.waf.released.filter (fun x => x != (g.val, i.val)) ∧
        (∀ k, k ≠ lane → tblFind t.waf.running k = tblFind s.waf.running k) ∧ (∀ h, h ≠ g.val → t.drop h = s.drop h)) ∧
    (∀ (lane : LaneId) j o, tblFind s.waf.running lane = some j → j.out = some o →
      ∃ t, exec (.waferJobEnd lane) s = .next t ∧ tblFind t.waf.running lane = none ∧ o ∈ (t.drop j.drop).waf.outs ∧
        (∀ x ∈ (t.drop j.drop).waf.outs, x.index = o.index → x = o) ∧ (∀ h, h ≠ j.drop → t.drop h = s.drop h)) ∧
    (∀ e, s.waf.released.contains (g.val, i.val) = true → s.slotAt (g / 32) i = some e → (s.seg (g / 32)).started = true → e.start ≤ s.offsetNow (g / 32) →
      ∃ t, exec (.waferLate g i) s = .next t ∧ t.waf.late = satInc s.waf.late ∧ t.waf.released = s.waf.released.filter (fun x => x != (g.val, i.val)) ∧
        (∀ n ∈ s.slotTiles g e, n ∈ (t.drop g).waf.unknown) ∧ (t.faultRec 0x009).sticky = true ∧ (∀ h, h ≠ g.val → t.drop h = s.drop h)) ∧
    (∀ (c : CtlCore) (v : W32), c.val < 2 → (s.pair 10).active = [] →
      exec (.wafDropRefresh (.core c) v) s = .next (if v.getLsbD 31 then s.onWaf s.waf.sel.toNat fun w => { w with force := true } else s))

/-! ### Decoder (R274, R277–R288) -/

/-- A picture of a frame without errors, whose turn on its core has come, leaves the input buffer and counts; where the standard outputs it at once its
frame becomes the latest available, with the picture's dimensions (R276, R283). Before a random access point an access unit is skipped (R277); a
stream whose headers break its created parameters, in a unit that would be skipped too, fails with their reason (R267, R288); out of turn nothing is decoded (R273). A pause ends once a
buffer is free. An upset counts for its core and its picture is decoded again; past the retry count the stream fails, at the window's threshold the
core is retired (R274). How strictly the order on a core is kept, and when the buffers of a stream are full, is the model's choice (log entries 107,
108). -/
def Obligations.PicturesAreDecoded : Prop :=
  ∀ (slot : StreamSlot) (s : State) (x : Stream) (i : PictureInfo), s.Rising → s.stream slot = some x → x.state = .running →
    (x.queue = [] ∨ x.paused = true ∨ s.outranked slot x i.pictureTicks i.field.isSome = true → exec (.pictureDecoded slot i) s = .next s) ∧
    (∀ u rest, x.queue = u :: rest → x.paused = false → s.outranked slot x i.pictureTicks i.field.isSome = false → u.readFailed = false → u.discontinuity = false →
      u.endOfStream = false → x.fieldOpen = none →
      (x.needRap = false ∨ i.randomAccess = true → i.leadingSkipped = false → i.errors = [] → (∀ n ∈ i.setsUsed, n ∉ x.badSets) → x.failure i = none → i.field = none →
        i.hidden = [] → i.existing = none → x.lowDelay = false →
        ∃ t y, exec (.pictureDecoded slot i) s = .next t ∧ t.stream slot = some y ∧ y.state = .running ∧ y.queue = rest ∧ y.inUsed = x.inUsed - u.bytes ∧
          y.decoded = satInc x.decoded ∧ y.concealed = x.concealed ∧ y.errRun = 0 ∧ y.frames = x.frames + 1 ∧ y.pictures = x.pictures + 1 ∧
          (i.forOutput = true → i.outputs = [x.frames] → (∀ f ∈ x.heldForEos, f.n ≠ x.frames) → bitOf x.flags 1 = false →
            y.lastAvailPts = u.pts ∧ y.lastAvailTime = s.now ∧ y.lastW = i.width ∧ y.lastH = i.height ∧ y.lastDepth = i.depth) ∧
          t.drops = (s.composeFirst x.part).drops ∧ t.parts = (s.composeFirst x.part).parts) ∧
      (x.needRap = true → i.randomAccess = false → x.failure i = none → unitErrorCount i = 0 →
        ∃ t y, exec (.pictureDecoded slot i) s = .next t ∧ t.stream slot = some y ∧ y.queue = rest ∧ y.skipped = satInc x.skipped ∧ y.decoded = x.decoded ∧
          y.needRap = true) ∧
      (∀ k, x.failure i = some k →
        ∃ t y, exec (.pictureDecoded slot i) s = .next t ∧ t.stream slot = some y ∧ y.state = .failed ∧ y.failReason = k)) ∧
    (x.paused = true → ∃ t y, exec (.streamPauseEnd slot) s = .next t ∧ t.stream slot = some y ∧ y.paused = t.streamFull slot y ∧
      y.avail.Sublist x.avail ∧ (y.paused = false → y.readyNs = s.now) ∧ (∀ k, k ≠ slot.val → t.stream k = s.stream k)) ∧
    (∀ n : CodecCore, x.pictureOn n < x.queue.length → n.val ∈ x.coreList →
      let j := x.pictureOn n
      let tries := ((x.queue.drop j).head?.map (·.retries)).getD 0
      let hit := s.flt.winCore.thresh ≠ 0 ∧ (s.addError 2 n).windowCount 2 n = s.flt.winCore.thresh
      (¬hit → s.flt.retryCore ≤ tries →
        ∃ t y, exec (.coreUpset n slot) s = .next t ∧ (t.core n).upsets = satInc (s.core n).upsets ∧ t.stream slot = some y ∧ y.state = .failed ∧
          y.failReason = 6) ∧
      (¬hit → tries < s.flt.retryCore →
        ∃ t y, exec (.coreUpset n slot) s = .next t ∧ (t.core n).upsets = satInc (s.core n).upsets ∧ (t.core n).retries = satInc (s.core n).retries ∧
          t.stream slot = some y ∧ y.state = .running ∧ y.queue.map (·.retries) = (x.queue.map (·.retries)).set j (tries + 1) ∧
          y.queue.map (·.data) = x.queue.map (·.data)) ∧
      (hit → ∃ t, exec (.coreUpset n slot) s = .next t ∧ (t.core n).retired = true ∧ (t.core n).upsets = satInc (s.core n).upsets))

/-! ### The Retriever (R378–R398) -/

/-- CRC reports and thumbnails (R387–R391), each the oldest of its kind among the answers that wait: an answer that is not VALID is stale; one whose CRCs are those expected is the drop's last good SEQ; each
differing region is a mismatch, counted, with its tiles UNKNOWN; a capture is due when its interval has passed, is VALID with its SEQ, its chunks are
kept, the last one sends the thumbnail to the encoder, and a chunk of another capture starts it again unless captures have been stopped; the encoder
takes its oldest thumbnail, once a bitstream is short enough or QP has reached its end, into the lowest free slot, which the record's place then holds,
and it is lost where no slot is free. Telemetry and the Retriever's registers (R393–R398): a due read that the guard lets pass is queued and the next
falls due TLM_INT s later, at most 3,600 s; one that it refuses is captured and not sent; values none of which saturates are reported, 8 a record; RING_CFG enables the record ring empty with a legal size, else only its size is set; HEAD frees records and their thumbnail
slots; DROP_CFG of an owned drop sets what is due at once. That the row of an encoded thumbnail lists the lengths of the bitstreams made is
the model's choice (log entry 9), and so is the guard's code for a telemetry read (log entry 141). -/
def Obligations.RetrieverAnswersAndRegisters : Prop :=
  (∀ (i : SegId) (s : State) (a : RtvIn) (pre rest : List RtvIn), s.Rising → (s.seg i).rtvIn = pre ++ a :: rest →
     (∀ r ∈ pre, r.who ≠ a.who ∧ (a.who.chunk.isSome = true → r.who.chunk = none)) →
     let g := i.val * 32 + a.drop
     let d := s.drop g
     let u := s.onSeg i fun x => { x with rtvIn := pre ++ rest }
     (∀ p, a.who = .rtvCrc → s.owner g = some p → a.valid = false →
       exec (.crcReport i) s = .next ((u.onPart p fun x => { x with rtv := { x.rtv with stale := satInc x.rtv.stale } }).nextRtv i)) ∧
     (∀ e, a.who = .rtvCrc → a.valid = true → d.expected.find? (fun e => e.1 == a.seq) = some e →
       let got := reportedCrcs (a.words.drop 1)
       let bad := (List.range e.2.length).filter fun n => e.2.getD n 0 != got.getD n 0
       (bad = [] → exec (.crcReport i) s = .next ((u.onDrop g fun d => { d with lastSeq := a.seq }).nextRtv i)) ∧
       (bad ≠ [] → s.flt.winDrop.thresh = 0 →
         exec (.crcReport i) s = .next ((u.rtvMismatch g a.seq e.2 got bad).nextRtv i) ∧
         ((u.rtvMismatch g a.seq e.2 got bad).drop g).mismatch = satInc d.mismatch ∧
         (∀ n ∈ bad, ∀ k ∈ (s.panel g).regionTiles n, k ∈ ((u.rtvMismatch g a.seq e.2 got bad).drop g).waf.unknown))) ∧
     (a.who = .rtvCapture → a.valid = true →
       exec (.captureResponse i) s = .next ((u.onDrop g fun d =>
         { d with thumb := { due := false, seq := some a.seq, chunks := [],
                             next := if d.thumbInt = 0 then none else some (s.tick + 100000000 * min 3600 d.thumbInt) } }).nextRtv i)) ∧
     (a.who = .rtvCapture → a.valid = false → exec (.captureResponse i) s = .next (u.nextRtv i)) ∧
     (∀ c, a.who = .rtvChunk c →
       (a.valid = true → d.thumb.seq = some a.seq → (a.words.headD 0).toNat % 16 = c → a.words.length = 1 + d.chunkWords → d.thumb.chunks = [] →
         exec (.chunkResponse i) s = .next ((u.onDrop g fun d => { d with thumb := { d.thumb with chunks := [(c, a.words.drop 1)] } }).nextRtv i)) ∧
       (a.valid = true → d.thumb.seq = some a.seq → (a.words.headD 0).toNat % 16 = c → a.words.length = 1 + d.chunkWords → d.thumb.chunks.length = 8 →
         (∀ e ∈ d.thumb.chunks, e.1 < c) → ∃ t, exec (.chunkResponse i) s = .next t ∧
           t.encoder = s.encoder ++ [{ drop := g, seq := a.seq, words := thumbWords (d.thumb.chunks ++ [(c, a.words.drop 1)]) }]) ∧
       (d.thumb.seq ≠ some a.seq →
         exec (.chunkResponse i) s = .next ((u.onDrop g fun d =>
           { d with thumb := { d.thumb with due := d.thumbInt != 0, next := none, seq := none, chunks := [] } }).nextRtv i))) ∧
     (∀ (h : DropId) k, (s.drop h).thumb.next = some k → k ≤ s.tick →
       exec (.thumbnailDue h) s = .next (s.onDrop h fun d => { d with thumb := { d.thumb with due := true, next := none } })) ∧
     (∀ (h : DropId) j rest lens p, s.encoder = j :: rest → j.drop = h.val → s.owner h = some p → encodeAt (min 51 (s.part p).rtv.qp) lens = none →
       exec (.thumbnailEncoded h lens) s = .next s) ∧
     (∀ (h : DropId) j rest lens p e, s.encoder = j :: rest → j.drop = h.val → s.owner h = some p → encodeAt (min 51 (s.part p).rtv.qp) lens = some e →
       ∃ t, exec (.thumbnailEncoded h lens) s = .next t ∧ t.encoder = rest ∧ (t.drop h).thumb.chunks = (s.drop h).thumb.chunks ∧
         (∀ k, k ≠ h.val → t.drop k = s.drop k) ∧
         ((s.part p).rtv.freeSlot = none → (t.part p).rtv.thumbLost = satInc (s.part p).rtv.thumbLost ∧ t.out = s.out) ∧
         (∀ k, p < 8 → (s.part p).rtv.freeSlot = some k → (s.part p).rtvRoom = true → (s.part p).rtvRing.lostSince = 0 →
           let ring := (s.part p).rtvRing
           (t.part p).rtv.usedSlots = (s.part p).rtv.usedSlots ++ [(k, ring.tail % ring.size)] ∧
           (t.part p).rtvRing = { ring with tail := (ring.tail + 1) % ring.size, rseq := nextSeq ring.rseq } ∧
           ∃ bytes last, bytes.length = e.2 ∧ t.out = (s.writeRecord p ((s.part p).rtv.thumbAddr.toNat + k * 16384) bytes).out ++ last))) ∧
  ((∀ (g : DropId) (s : State) (k : Nat), (s.drop g).tlmDue = some k → k ≤ s.tick → (s.drop g).found = true → (s.drop g).state ≠ .retired → (s.drop g).tlmInt ≠ 0 →
     3 ≤ (s.drop g).tlmStatic.length →
     let n := (s.drop g).tlmStatic.length / 3
     let passes := (List.range n).all fun w => s.blockOk .read 2 (colantAddr (g / 32) (g % 32) (0xFFFF50 + w))
     (s.Rising → passes = false → ∃ t, exec (.telemetryDue g) s = .next t ∧ (t.drop g).tlmDue = some (s.tick + 100000000 * min 3600 (s.drop g).tlmInt) ∧
       (t.pair 10).cap.valid = true ∧ t.segs = s.segs) ∧
     (passes = true → exec (.telemetryDue g) s = .next ((s.onDrop g fun d => { d with tlmDue := some (s.tick + 100000000 * min 3600 d.tlmInt) }).queueHk (g / 32)
       { who := .telemetry, drop := g % 32, op := opRdb, addr := 0xFFFF50, len := n, data := [], emg := false, epoch := (s.pair 10).epoch }))) ∧
   (∀ (i : SegId) (s : State) (a : RtvIn) (pre rest : List RtvIn) (p : Nat), s.Rising → (s.seg i).rtvIn = pre ++ a :: rest →
     (∀ r ∈ pre, r.who ≠ .telemetry) → a.who = .telemetry → s.owner (i.val * 32 + a.drop) = some p → a.words.length ≤ 8 →
     let st := (s.drop (i.val * 32 + a.drop)).tlmStatic
     let vs := a.words.zipIdx.map fun w => tlmValue (st.getD (3 * w.2) 0) (st.getD (3 * w.2 + 1) 0) (st.getD (3 * w.2 + 2) 0) w.1
     vs.all (fun v => !v.sat) = true →
     exec (.telemetryResponse i) s =
       .next (((s.onSeg i fun x => { x with rtvIn := pre ++ rest }).report p 2 (i.val * 32 + a.drop) (tlmBody 0 vs)).nextRtv i)) ∧
   (∀ (p : PartId) (v : W32) (s : State), s.hostOpen p = true → s.linkHeld p false = false →
     let ring := (s.part p).rtvRing
     (ring.en = false → v.getLsbD 31 = true → 6 ≤ field v.toNat 3 0 → field v.toNat 3 0 ≤ 14 →
       exec (.rtvRingCfgEn p v) s = .next (s.onPart p fun x =>
         { x with rtvRing := { ring with en := true, log2 := field v.toNat 3 0, head := 0, tail := 0, rseq := 1, lostSince := 0 },
                  rtv := { x.rtv with usedSlots := [] } })) ∧
     (ring.en = false → (v.getLsbD 31 = false ∨ field v.toNat 3 0 < 6 ∨ 14 < field v.toNat 3 0) →
       exec (.rtvRingCfgEn p v) s = .next (s.onPart p fun x => { x with rtvRing := { ring with log2 := field v.toNat 3 0 } })) ∧
     (ring.en = true → v.getLsbD 31 = false → exec (.rtvRingCfgEn p v) s = .next (s.onPart p fun x => { x with rtvRing := { ring with en := false } })) ∧
     (let h := field v.toNat 13 0
      let n := (h + ring.size - ring.head) % ring.size
      h < ring.size → n ≤ (ring.tail + ring.size - ring.head) % ring.size →
       exec (.rtvRingHeadWrite p v) s = .next (s.onPart p fun x =>
         { x with rtvRing := { ring with head := h },
                  rtv := { x.rtv with usedSlots := x.rtv.usedSlots.filter fun u => !((List.range n).map fun k => (ring.head + k) % ring.size).contains u.2 } })) ∧
     (let g := (s.part p).rtv.dropSel.toNat
      (s.owns p g = false → exec (.rtvDropCfgWrite p v) s = .next s) ∧
      (s.owns p g = true →
       exec (.rtvDropCfgWrite p v) s = .next (s.onDrop g fun d =>
         { d with crcEn := v.getLsbD 31, thumbInt := field v.toNat 27 16, tlmInt := field v.toNat 11 0,
                  thumb := { d.thumb with due := decide (field v.toNat 27 16 ≠ 0), next := none },
                  tlmDue := if field v.toNat 11 0 = 0 then none else some s.tick })))))

/-- A telemetry value of a 16-bit signed raw word is the nearest 1/256 of (x × GAIN + OFFSET) × 2^E, to the even one on a tie, within Q23.8: beyond it
saturates and says so; a reserved FORMAT or QUANT is INVALID and 0 (R395). -/
def Obligations.TelemetryValuesAreRoundedOnce : Prop :=
  ∀ desc gain offset raw : W16,
    let y : Int := (raw.toInt * gain.toInt + offset.toInt) * 2 ^ field desc.toNat 3 0
    let t := tlmValue desc gain offset raw
    (1 ≤ field desc.toNat 15 12 → field desc.toNat 15 12 ≤ 5 → field desc.toNat 11 8 = 4 →
      t.bad = false ∧ -2147483648 ≤ t.v ∧ t.v ≤ 2147483647 ∧
      (t.sat = false → 2 * (256 * t.v - y).natAbs ≤ 256 ∧ (2 * (256 * t.v - y).natAbs = 256 → t.v % 2 = 0)) ∧
      (t.sat = true → t.v = 2147483647 ∧ 2147483647 * 256 < y ∨ t.v = -2147483648 ∧ y < -2147483648 * 256)) ∧
    (field desc.toNat 15 12 = 0 ∨ 5 < field desc.toNat 15 12 ∨ field desc.toNat 11 8 = 0 ∨ 6 < field desc.toNat 11 8 → t.bad = true ∧ t.v = 0 ∧ t.sat = false)

/-! ### Customer cores (R467–R475) -/

/-- A customer core (R468, R471, R472): a start that is due runs the checks and begins at the image's ENTRY, its memory zeroed and with the image's code
and data at offset 0, or leaves VERIFY_FAIL with the code; GO enters task mode, an exit
leaves it with its cause, a bus error where the guard refuses the task's access, which is captured with its address; a kick restarts the watchdog, whose half signals private source 7 and whose end holds the core in reset for 10 ms, after
which it starts again and RESTARTS counts; the fourth end within 600 s is the last. A customer core's publications and timers (R469, R474): a
publication of a drop the core serves is queued, after a compose instant that is due; a timer that unit time has reached is disabled and signals its private source; CMP takes both halves
with the write of the low one; a read of the low half latches the high one. That RUN 1 starts a running core anew, and a cause's address, are the
model's choice (log entry 61). -/
def Obligations.CustomerCoresRunAndPublish : Prop :=
  (∀ (c : CustCore) (s : State), s.Rising →
     let x := s.cust c
     (x.startDue = true → s.cmemBytes c ≠ 0 → s.boot.phase = .running → tblRising (s.evcCore (c + 2)).priv = true →
       (s.loadErr c x.image = 0 ∨ x.activatedTick = none) →
         ∃ t, exec (.coreStart c) s = .next t ∧
           if s.loadErr c x.image = 0 then
             (t.cust c).state = .running ∧ (t.cust c).loadErr = 0 ∧ (t.cust c).task = false ∧ (t.cust c).startDue = false ∧
               (∀ img, x.image = some img → (t.cust c).began = img.entry ∧ (t.cust c).mem = imageMemory img) ∧
               (t.cust c).wdogTick = s.tick ∧ (t.pair (8 + c)).bankA = [] ∧ (t.pair (8 + c)).bankB = [] ∧ (t.evcCore (c + 2)).imask = true ∧
               (∀ k, k < 64 → (tblGet {} (t.evcCore (c + 2)).priv k).mask = true)
           else t = { s with cc := t.cc } ∧ t.cust c =
             { x with startDue := false, restartAt := none, state := .verifyFail, loadErr := s.loadErr c x.image, task := false }) ∧
     (∀ v : W32, x.task = false → v.getLsbD 0 = true → x.state = .running → exec (.ccTaskGo c v) s = .next (s.onCust c fun x => { x with task := true })) ∧
     (x.task = true →
       exec (.taskExit c .interrupt) s = .next (s.onCust c fun x => { x with task := false, taskCause := 1 }) ∧
       exec (.taskExit c .supervisorCall) s = .next (s.onCust c fun x => { x with task := false, taskCause := 2 }) ∧
       (∀ a : TaskAccess,
         let ok := ((s.pair (8 + c)).user a.space.toNat a.addr.toNat (TaskAccess.acc a)).2
         (ok = true → exec (.taskExit c (.busError a)) s = .next s) ∧
         (ok = false → ∃ t, exec (.taskExit c (.busError a)) s = .next t ∧
           t.cust c = { x with task := false, taskCause := 3, taskAddr := BitVec.ofNat 28 (a.addr.toNat / 64) } ∧
           ((s.pair (8 + c)).cap.valid = false → (t.pair (8 + c)).cap.valid = true ∧ (t.pair (8 + c)).cap.count = 1 ∧
             (t.pair (8 + c)).cap.addr = a.addr ∧ (t.pair (8 + c)).cap.space = a.space ∧ (t.pair (8 + c)).cap.req = BitVec.ofNat 8 (0x14 + c.val)) ∧
           ((s.pair (8 + c)).cap.valid = true → (t.pair (8 + c)).cap = { (s.pair (8 + c)).cap with count := satInc (s.pair (8 + c)).cap.count })))) ∧
     (∀ v : W32, x.task = false → v.getLsbD 31 = true → x.state = .running →
       exec (.kick c v) s = .next (s.onCust c fun x => { x with wdogTick := s.tick, wdogHalf := false })) ∧
     (x.state = .running → x.wdogHalf = false → x.wdogTick + s.wdogMs c * 100000 / 2 ≤ s.tick →
       exec (.watchdogHalf c) s = .next ((s.onCust c fun x => { x with wdogHalf := true }).signalPriv (c.val + 2) 7)) ∧
     (x.state = .running → x.wdogTick + s.wdogMs c * 100000 ≤ s.tick →
       let ends := (s.tick :: x.expiries).filter fun k => decide (s.tick ≤ k + 60000000000)
       (ends.length < 4 →
         ∃ t, exec (.watchdogExpiry c) s = .next t ∧ t.cust c = { x with state := .stopped, task := false, expiries := ends, restartAt := some (s.tick + 1000000) } ∧
           t = { s with cc := t.cc, flt := t.flt }) ∧
       (4 ≤ ends.length → x.activatedTick = none →
         ∃ t, exec (.watchdogExpiry c) s = .next t ∧ t.cust c = { x with state := .gaveUp, task := false, expiries := ends, restartAt := none } ∧
           t = { s with cc := t.cc, flt := t.flt })) ∧
     (∀ k, x.restartAt = some k → k ≤ s.tick → (s.loadErr c x.image = 0 ∨ x.activatedTick = none) →
       ∃ t, exec (.customerRestart c) s = .next t ∧ (t.cust c).restarts = satInc x.restarts ∧ (t.cust c).restartAt = none ∧
         (t.cust c).state = (if s.loadErr c x.image = 0 then .running else .verifyFail))) ∧
  (∀ (c : CustCore) (s : State) (v : W32) (n : Fin 4), s.Rising → (s.cust c).task = false →
     (let g := field v.toNat 10 0
      (s.servedBy g = some c.val → ((s.composeDue [g]).drop g).fb.queued = false →
       exec (.ccFbPublish c v) s = .next ((s.composeDue [g]).onDrop g fun d => { d with fb := { d.fb with queued := true, queuedTick := s.tick } })) ∧
      (s.servedBy g = some c.val → ((s.composeDue [g]).drop g).fb.queued = true →
       exec (.ccFbPublish c v) s = .next ((s.composeDue [g]).onDrop g fun d => { d with fb := { d.fb with overCnt := satInc d.fb.overCnt } })) ∧
      (s.servedBy g ≠ some c.val → exec (.ccFbPublish c v) s = .next s)) ∧
     ((s.cust c).tmrEn.getLsbD n = true → ((s.cust c).timer n).cmp.toNat ≤ s.now →
       exec (.ccTimer c n) s = .next ((s.onCust c fun x => { x with tmrEn := x.tmrEn &&& ~~~(BitVec.ofNat 4 (2 ^ n.val)) }).signalPriv (c.val + 2) n)) ∧
     (tblRising (s.cust c).timers = true →
       ∃ t, exec (.ccTmrLoWrite c n v) s = .next t ∧ ((t.cust c).timer n).cmp.extractLsb' 0 32 = v ∧
         ((t.cust c).timer n).cmp.extractLsb' 32 32 = ((s.cust c).timer n).hiPending.getD (((s.cust c).timer n).cmp.extractLsb' 32 32) ∧
         ((t.cust c).timer n).hiPending = none ∧ (∀ k, k ≠ n.val → (t.cust c).timer k = (s.cust c).timer k) ∧ t = { s with cc := t.cc }) ∧
     (tblRising (s.cust c).timers = true →
       ∃ t, exec (.ccTmrLoRead (custReq c) c n) s = .next t ∧ t.out = s.out ++ [.regData (custReq c) (((s.cust c).timer n).cmp.extractLsb' 0 32)] ∧
         ((t.cust c).timer n).cmp = ((s.cust c).timer n).cmp ∧ t = { s with cc := t.cc, out := t.out }))

/-! ### Start-up and trials (R482–R490) -/

/-- Start-up (R482, R484, R488, R490, R493): DC_GOOD begins the sequence, or service mode, with the stored map where it verifies, and after a cold start
with the clock's time, and rolls a trial whose slot does not verify back to the other slot; a boot calendar that passes its checks is decided for a boundary, one that does not leaves its segment with a trace record; the
pages are copied; with all of this done start-up is complete and the fallback image areas are as the descriptors found have carved them (R467). A
trial that takes more than 2 s is rolled back to the other slot, one that lasts 600 s
is GOOD. DC_GOOD as the boot ROM's start after a restart, what a warm restart keeps of the timebase, when start-up is complete and which descriptors
carve the areas are the model's choices (log entries 36, 60, 67, 78). -/
def Obligations.StartUpRuns : Prop :=
  ∀ s : State, s.Rising → tblRising s.flt.faults = true →
    (∀ pin rtc, s.boot.phase = .off → s.boot.trialFails pin = true →
      ∃ t b, exec (.dcGood pin rtc) s = .next t ∧ s.boot.trial = some b ∧ t.boot.slot b = .bad ∧ t.boot.phase = .off ∧ t.boot.warm = true ∧
        t.boot.useB = s.boot.useB) ∧
    (∀ pin rtc, s.boot.phase = .off → s.boot.trialFails pin = false →
      ∃ t, exec (.dcGood pin rtc) s = .next t ∧ t.boot.phase = (if pin then .service else .starting) ∧ t.boot.startTick = s.tick ∧ t.boot.warm = false ∧
        (s.boot.storedBad = false → t.boot.map = s.boot.stored) ∧ (s.boot.storedBad = true → s.boot.olderBad = true → t.boot.map = PartMap.factory) ∧
        (s.boot.warm = false → t.tb.acc = BitVec.ofNat 96 (rtc * 2 ^ 32)) ∧ (s.boot.warm = true → t.tb = s.tb)) ∧
    (∀ i : SegId, s.boot.phase = .starting → (s.seg i).enumerated = true → s.bootSegs.contains i.val = true → s.boot.bootCalDone.contains i.val = false →
      (s.bootSegs.filter fun k => decide (k < i.val)).all (fun k => s.boot.bootCalDone.contains k) = true →
      let b := s.onBoot fun x => { x with bootCalDone := insertAsc x.bootCalDone i }
      let cal := tblGet [] s.map.bootCal i
      let c := b.decideBoot i (b.swapInstant i) cal
      (c.bootRefused i cal = false → exec (.bootCalendarInstall i) s = .next c) ∧
      (c.bootRefused i cal = true → exec (.bootCalendarInstall i) s = .next (b.bootFails i))) ∧
    (s.boot.copyDue = true → exec .standbyPageCopy s = .next { s with boot := { s.boot with cache := s.boot.library, copyDue := false, pagesCopied := true } }) ∧
    (s.boot.phase = .starting → s.startUpDone = true → s.boot.fwFaultDue = false →
      ∃ t, exec .startUpComplete s = .next t ∧ t.boot = { s.boot with phase := .running, doneTick := some s.tick, fwFaultDue := false } ∧
        (∀ c : CustCore, t.cust c = { s.cust c with areas := s.areasKnown c }) ∧ t = { s with boot := t.boot, cc := t.cc }) ∧
    (∀ b, s.boot.trial = some b → s.boot.phase = .starting → s.boot.startTick + 200000000 ≤ s.tick →
      ∃ t, exec .trialTimeout s = .next t ∧ t.boot.slot b = .bad ∧ t.boot.phase = .off ∧ t.boot.warm = true ∧ t.tb = s.tb ∧ t.boot.useB = s.boot.useB) ∧
    (∀ b k, s.boot.trial = some b → s.boot.phase = .running → s.boot.doneTick = some k → k + 60000000000 ≤ s.tick →
      exec .trialEnd s = .next { s with boot := { (s.boot.setSlot b .good) with useB := b } })

/-! ### The service port (R487–R493) -/

/-- Service operations on the map and vendor firmware (R487, R489, R490, R493): a map in range that breaks no rule takes the older copy's place, one that
breaks a rule is REFUSED with it, one out of range fails verification; a read answers the stored map; the firmware slot not in use takes an image of a
version the fuses allow; activating it starts a trial with a warm restart; a commit ends the trial. Service operations on customer cores, calibration
and pages (R478, R491, R492, R512): an image that verifies goes to the slot not in use, an activation starts the core from it; a calibration set of
the drop's own size, whose CRC-32 is that of its layout, is the next one, a revert goes back to the one before; a page goes into the library, which is
copied again. The slot of a write in a trial, answers that name something absent, what a capture takes and that an operation takes no time are
the model's choices (log entries 63–66). -/
def Obligations.ServiceConfiguration : Prop :=
  (∀ s : State, s.powered = true → s.plant.svcClient = true → s.plant.svcBusy = false →
     let ok : Output := .service .ok []
     (∀ (m : PartMap) fmt,
       (fmt = true → mapRanged m = true → s.mapRefusal m = none → exec (.mapWrite m fmt) s = .next { s with
         boot := { s.boot with older := s.boot.stored, olderBad := s.boot.storedBad, stored := m, storedBad := false }, out := s.out ++ [ok] }) ∧
       (∀ n, fmt = true → mapRanged m = true → s.mapRefusal m = some n → exec (.mapWrite m fmt) s = .next { s with out := s.out ++ [.service .refused [n]] }) ∧
       (fmt = false ∨ mapRanged m = false → exec (.mapWrite m fmt) s = .next { s with out := s.out ++ [.service .verify []] })) ∧
     exec .mapRead s = .next { s with out := s.out ++ [ok] ++ [.serviceMap s.boot.stored] } ∧
     (s.mapRefusal PartMap.factory = none → exec .mapFactory s = .next { s with
       boot := { s.boot with older := s.boot.stored, olderBad := s.boot.storedBad, stored := PartMap.factory, storedBad := false }, out := s.out ++ [ok] }) ∧
     (let m : PartMap := {
        s.boot.stored with bootCal := ((List.range 64).map fun i => (i, bareCalendar (s.seg i).calendar)).filter fun x => !x.2.isEmpty }
      s.mapRefusal m = none → exec .mapCapture s = .next { s with
         boot := { s.boot with older := s.boot.stored, olderBad := s.boot.storedBad, stored := m, storedBad := false }, out := s.out ++ [ok] }) ∧
     (∀ img : FwImage, img.signatureOk = true → s.boot.fuse ≤ img.version → s.plant.warn = false →
       ∃ t, exec (.fwWrite img) s = .next t ∧ t.boot.slot (!s.boot.useB) = .good ∧ t.boot.img (!s.boot.useB) = img ∧
         t.boot.slot s.boot.useB = s.boot.slot s.boot.useB ∧ t.out = s.out ++ [ok]) ∧
     (∀ img : FwImage, img.version < s.boot.fuse ∨ img.signatureOk = false →
       ∃ t, exec (.fwWrite img) s = .next t ∧ t.boot.slot (!s.boot.useB) = .bad ∧ t.out = s.out ++ [.service .verify []]) ∧
     (s.boot.slot (!s.boot.useB) = .good →
       ∃ t, exec .fwActivate s = .next t ∧ t.boot.slot (!s.boot.useB) = .trial ∧ t.boot.phase = .off ∧ t.boot.warm = true ∧ t.tb = s.tb ∧ t.streams = []) ∧
     (∀ b f, s.boot.trial = some b → s.boot.phase = .running →
       exec (.fwCommit f) s = .next { s with boot := { (s.boot.setSlot b .good) with useB := b }, out := s.out ++ [ok] }) ∧
     (s.boot.trial = none → exec (.fwCommit true) s = .next { s with
       boot := { s.boot with fuse := max s.boot.fuse (s.boot.img s.boot.useB).version }, out := s.out ++ [ok] })) ∧
  (∀ s : State, s.powered = true → s.plant.svcClient = true → s.plant.svcBusy = false → s.plant.warn = false →
     let ok : Output := .service .ok []
     (∀ (c : CustCore) (img : CustImage), exec (.ccWrite c img) s = .next (
       if headerOk img && keyOk s.map c img && targetOk c img then (s.onCust c fun x =>
         { x with slotA := if x.useB then some img else x.slotA, slotB := if x.useB then x.slotB else some img }).emit ok
       else s.emit (.service .verify []))) ∧
     (∀ c : CustCore,
       (s.cmemBytes c ≠ 0 → exec (.ccActivate c) s = .next ((s.onCust c fun x =>
         { x with useB := !x.useB, activatedTick := some s.tick, run := true, state := .stopped, task := false, startDue := true,
                  restartAt := none }).emit ok)) ∧
       (s.cmemBytes c = 0 → exec (.ccActivate c) s = .next (s.emit (.service .refused [467])))) ∧
     (∀ (c : CustCore) run, exec (.coreRun c run) s = .next ((s.setRun c run).emit ok)) ∧
     (∀ (g : DropId) (set : CalSet) (crc : W32),
       ((s.drop g).calMatches set = true → calLayoutOk set = true → crc = crc32 (calBytes set) →
         exec (.calLoad g ⟨set, crc⟩) s =
           .next (((s.composeDue [g.val]).onDrop g fun d => { d with calPrev := some (d.calNext.getD d.calNow), calNext := some (some set) }).emit ok)) ∧
       ((s.drop g).calMatches set = false → exec (.calLoad g ⟨set, crc⟩) s = .next (s.emit (.service .refused [492]))) ∧
       ((s.drop g).calMatches set = true → (calLayoutOk set = false ∨ crc ≠ crc32 (calBytes set)) →
         exec (.calLoad g ⟨set, crc⟩) s = .next (s.emit (.service .verify [])))) ∧
     (∀ (g : DropId) x, (s.drop g).calPrev = some x →
       exec (.calRevert g) s =
         .next (((s.composeDue [g.val]).onDrop g fun d => { d with calPrev := some (d.calNext.getD d.calNow), calNext := some x }).emit ok)) ∧
     (∀ (k : Fin 256) (page : Image), page.sized = true → page.colour ≤ 7 → libraryBytes (tblPut s.boot.library k page) ≤ 268435456 →
       (∀ e ∈ s.map.page, e.2.toNat = k.val → s.pageBad e.1 page = false) →
       exec (.pageWrite k page) s = .next ((s.onBoot fun b => { b with library := tblPut b.library k page, copyDue := true }).emit ok)))

/-- Service operations on the running unit (R446, R458, R462, R463, R480, R487): a restart leaves flash and, where it is warm, the timebase, and nothing
of the sessions, the host cables' levels being what they are (R41); a segment reset is decided; an access to a drop is queued as an emergency request; faults, trace and store are read and
cleared. The class of a segment access, what a warm restart keeps of the timebase, the answer for a retired segment and what a clear leaves are
the model's choices (log entries 50, 60, 64, 148). -/
def Obligations.ServiceRestartsAccessesAndRecords : Prop :=
  ∀ s : State, s.Rising → s.powered = true → s.plant.svcClient = true → s.plant.svcBusy = false →
    let ok : Output := .service .ok []
    (∃ t, exec .restartCold s = .next t ∧ t.boot.phase = .off ∧ t.boot.warm = false ∧ t.boot.stored = s.boot.stored ∧ t.boot.library = s.boot.library ∧
      t.flt.store = s.flt.store ∧ (∀ p, t.part p = { holds := (s.part p).holds }) ∧ t.streams = [] ∧ t.segs = [] ∧ t.gates = [] ∧ t.canvases = [] ∧ t.tb = { tick := s.tb.tick }) ∧
    (∃ t, exec .restartWarm s = .next t ∧ t.boot.phase = .off ∧ t.boot.warm = true ∧ t.boot.stored = s.boot.stored ∧ t.boot.library = s.boot.library ∧
      t.flt.store = s.flt.store ∧ (∀ p, t.part p = { holds := (s.part p).holds }) ∧ t.streams = [] ∧ t.segs = [] ∧ t.tb = s.tb) ∧
    (∀ i : SegId, ((s.seg i).retired = false → exec (.segReset i) s = .next ((s.onSeg i fun x => { x with resetDue := true }).emit ok)) ∧
      ((s.seg i).retired = true → exec (.segReset i) s = .next (s.emit (.service .refused [454])))) ∧
    (∀ (g : DropId) (acc : SegAccess), (s.seg (g / 32)).clk = true → (s.seg (g / 32)).retired = false → (s.drop g).state ≠ .retired → (s.pair 10).active = [] →
      exec (.segAccess g acc) s = .next ((s.onPlant fun x => { x with svcBusy := true, svcEpoch := (s.pair 10).epoch }).queueHk (g / 32)
        { who := .service, drop := g.val % 32,
          op := if acc.isWrite then (if acc.len = 1 then opWr else opWrb) else if acc.len = 1 then opRd else opRdb,
          addr := acc.addr.toNat, len := acc.len, data := acc.data, emg := true })) ∧
    (∀ i, exec (.flt (.clear i)) s = .next ((s.clearFault i).emit ok)) ∧
    (∀ i, ∃ l, exec (.flt (.read i)) s = .next (s.emit (.service .ok l)) ∧ l.head? = some (b2n (s.faultRec i).sticky)) ∧
    exec .trace s = .next { s with out := s.out ++ [ok] ++ [.serviceRecords s.flt.trace] } ∧
    exec (.flt .clearTrace) s = .next { s with flt := { s.flt with trace := [] }, out := s.out ++ [ok] } ∧
    exec .store s = .next { s with out := s.out ++ [ok] ++ [.serviceRecords s.flt.store] } ∧
    exec (.flt .clearStore) s = .next { s with flt := { s.flt with store := [], storeRestored := false }, out := s.out ++ [ok] }

/-! ### Register accesses (R122, R123, R437, R510) -/

/-- A register access (R122, R123, R510): a whole aligned DWord through BAR0 is written, or is read and answered with the register's value; a misaligned
access or a partial write sets its error bit and writes nothing; a function that takes no request writes nothing, and a write whose credits are withheld
does not arrive (R192); a core's aligned whole write to the
decoder's selector sets it. That a misaligned write sets BAR0_SIZE alone, and that a function which takes no request drops a write by R129, are the
model's choices (log entries 143, 149). -/
def Obligations.RegisterAccessesAreWholeDWords : Prop :=
  ∀ (p : PartId) (s : State) (a : W32) (v : W32) (fb lb : BitVec 4),
    (s.linkHeld p false = true → exec (.registerWrite (.host p) { isRead := false, addr := a, data := [v], firstBE := fb, lastBE := lb }) s = .next s) ∧
    (s.linkHeld p false = false → s.hostOpen p = false → exec (.registerWrite (.host p) { isRead := false, addr := a, data := [v], firstBE := fb, lastBE := lb }) s = .next (s.dropWrite p)) ∧
    (s.linkHeld p false = false → s.linkHeld p true = false → s.hostOpen p = true → a.toNat % 4 = 0 →
      exec (.registerWrite (.host p) { isRead := false, addr := a, data := [v], firstBE := 15, lastBE := lb }) s = .next (s.writeBar p a.toNat v) ∧
      (fb ≠ 15 → exec (.registerWrite (.host p) { isRead := false, addr := a, data := [v], firstBE := fb, lastBE := lb }) s =
        .next (s.onPart p fun x => { x with hstErr := x.hstErr ||| 1 })) ∧
      exec (.registerWrite (.host p) { isRead := true, addr := a, data := [v], firstBE := fb, lastBE := lb }) s =
        .next ((s.latchBar p p a.toNat).emit (.regData (.host p) (BitVec.ofNat 32 (s.bar0 p p a.toNat))))) ∧
    (s.linkHeld p false = false → s.hostOpen p = true → a.toNat % 4 ≠ 0 →
      exec (.registerWrite (.host p) { isRead := false, addr := a, data := [v], firstBE := fb, lastBE := lb }) s =
        .next (s.onPart p fun x => { x with hstErr := x.hstErr ||| 2 })) ∧
    (∀ c : CtlCore, c.val < 2 → (s.pair 10).active = [] →
      exec (.registerWrite (.core c) { isRead := false, addr := 0x10060100, data := [v], firstBE := 15, lastBE := lb }) s =
        .next { s with decSel := v.extractLsb' 0 8 })
end

