-- ==== Sys2Proof/Laws/Dispatch.lean ====
section
/-! SUPPORT. One equation per command: exec of it is its meaning. -/

namespace Sys2Proof.Machine

variable (s : State)

theorem exec_hostWrite (p : PartId) (off : BitVec 34) (data : List W32) (firstBE : BitVec 4) (lastBE : BitVec 4) : exec (.hostWrite p off data firstBE lastBE) s = execHostWrite p off data firstBE lastBE s := rfl
theorem exec_hostRead (p : PartId) (off : BitVec 34) (dwords : Nat) (firstBE : BitVec 4) (lastBE : BitVec 4) (tag : Nat) : exec (.hostRead p off dwords firstBE lastBE tag) s = execHostRead p off dwords firstBE lastBE tag s := rfl
theorem exec_zeroLengthRead (p : PartId) (off : BitVec 34) (tag : Nat) : exec (.zeroLengthRead p off tag) s = execZeroLengthRead p off tag s := rfl
theorem exec_atomicOp (p : PartId) (bar : BarId) (off : BitVec 34) (kind : AtomicKind) (bytes : Nat) (operand : Nat) (compare : Nat) (tag : Nat) : exec (.atomicOp p bar off kind bytes operand compare tag) s = execAtomicOp p bar off kind bytes operand compare tag s := rfl
theorem exec_poisonedWrite (p : PartId) : exec (.poisonedWrite p) s = execPoisonedWrite p s := rfl
theorem exec_dmaReadCompletion (id : Nat) (result : ReadResult) : exec (.dmaReadCompletion id result) s = execDmaReadCompletion id result s := rfl
theorem exec_linkReset (x : LinkSignal) : exec (.linkReset x) s = execLinkReset x s := rfl
theorem exec_partitionReady (p : PartId) : exec (.partitionReady p) s = execPartitionReady p s := rfl
theorem exec_functionLevelReset (p : PartId) : exec (.functionLevelReset p) s = execFunctionLevelReset p s := rfl
theorem exec_linkDegraded (l : LinkId) (speed : BitVec 4) (width : BitVec 6) : exec (.linkDegraded l speed width) s = execLinkDegraded l speed width s := rfl
theorem exec_d3hotEntry (p : PartId) (w : PmWrite) : exec (.d3hotEntry p w) s = execD3hotEntry p w s := rfl
theorem exec_d0Return (w : D0Write) : exec (.d0Return w) s = execD0Return w s := rfl
theorem exec_pmeResend (p : PartId) : exec (.pmeResend p) s = execPmeResend p s := rfl
theorem exec_pmeTurnOff (l : LinkId) : exec (.pmeTurnOff l) s = execPmeTurnOff l s := rfl
theorem exec_aspmL1Entry (l : LinkId) : exec (.aspmL1Entry l) s = execAspmL1Entry l s := rfl
theorem exec_busMasterEnableSet (p : PartId) (reg : CfgReg) (value : W32) (be : BitVec 4) : exec (.busMasterEnableSet p reg value be) s = execBusMasterEnableSet p reg value be s := rfl
theorem exec_msixUnmask (p : PartId) (off : BitVec 13) (write : Option W32) (tag : Nat) : exec (.msixUnmask p off write tag) s = execMsixUnmask p off write tag s := rfl
theorem exec_registerWrite (who : Requester) (acc : RegAccess) : exec (.registerWrite who acc) s = execRegisterWrite who acc s := rfl
theorem exec_sqTailDoorbell (p : PartId) (r : RingId) (v : W32) : exec (.sqTailDoorbell p r v) s = execSqTailDoorbell p r v s := rfl
theorem exec_cqHeadDoorbell (p : PartId) (r : RingId) (v : W32) : exec (.cqHeadDoorbell p r v) s = execCqHeadDoorbell p r v s := rfl
theorem exec_sqFetchRetry (p : PartId) (r : RingId) : exec (.sqFetchRetry p r) s = execSqFetchRetry p r s := rfl
theorem exec_adminRingEnable (p : PartId) (v : W32) : exec (.adminRingEnable p v) s = execAdminRingEnable p v s := rfl
theorem exec_heartbeat (p : PartId) : exec (.heartbeat p) s = execHeartbeat p s := rfl
theorem exec_heartbeatLapse (p : PartId) : exec (.heartbeatLapse p) s = execHeartbeatLapse p s := rfl
theorem exec_openSession (p : PartId) (r : RingId) : exec (.openSession p r) s = execOpenSession p r s := rfl
theorem exec_closeSession (p : PartId) (r : RingId) : exec (.closeSession p r) s = execCloseSession p r s := rfl
theorem exec_handback (p : PartId) (r : RingId) : exec (.handback p r) s = execHandback p r s := rfl
theorem exec_ringCreate (p : PartId) (r : RingId) : exec (.ringCreate p r) s = execRingCreate p r s := rfl
theorem exec_ringDelete (p : PartId) (r : RingId) : exec (.ringDelete p r) s = execRingDelete p r s := rfl
theorem exec_admissionQuery (p : PartId) (r : RingId) : exec (.admissionQuery p r) s = execAdmissionQuery p r s := rfl
theorem exec_streamCreate (p : PartId) (r : RingId) : exec (.streamCreate p r) s = execStreamCreate p r s := rfl
theorem exec_streamStart (p : PartId) (r : RingId) : exec (.streamStart p r) s = execStreamStart p r s := rfl
theorem exec_streamFeed (p : PartId) (r : RingId) : exec (.streamFeed p r) s = execStreamFeed p r s := rfl
theorem exec_streamFeedSpace (p : PartId) (r : RingId) : exec (.streamFeedSpace p r) s = execStreamFeedSpace p r s := rfl
theorem exec_streamStop (p : PartId) (r : RingId) : exec (.streamStop p r) s = execStreamStop p r s := rfl
theorem exec_streamDestroy (p : PartId) (r : RingId) : exec (.streamDestroy p r) s = execStreamDestroy p r s := rfl
theorem exec_streamQuery (p : PartId) (r : RingId) : exec (.streamQuery p r) s = execStreamQuery p r s := rfl
theorem exec_dropQuery (p : PartId) (r : RingId) : exec (.dropQuery p r) s = execDropQuery p r s := rfl
theorem exec_dropRestore (p : PartId) (r : RingId) : exec (.dropRestore p r) s = execDropRestore p r s := rfl
theorem exec_dropRestoreEnd (p : PartId) (r : RingId) (answers : Discovery) : exec (.dropRestoreEnd p r answers) s = execDropRestoreEnd p r answers s := rfl
theorem exec_imageCreate (p : PartId) (r : RingId) : exec (.imageCreate p r) s = execImageCreate p r s := rfl
theorem exec_imageWrite (p : PartId) (r : RingId) : exec (.imageWrite p r) s = execImageWrite p r s := rfl
theorem exec_imageDestroy (p : PartId) (r : RingId) : exec (.imageDestroy p r) s = execImageDestroy p r s := rfl
theorem exec_layerSet (p : PartId) (r : RingId) : exec (.layerSet p r) s = execLayerSet p r s := rfl
theorem exec_surfaceSet (p : PartId) (r : RingId) : exec (.surfaceSet p r) s = execSurfaceSet p r s := rfl
theorem exec_surfaceQuery (p : PartId) (r : RingId) : exec (.surfaceQuery p r) s = execSurfaceQuery p r s := rfl
theorem exec_canvasCreate (p : PartId) (r : RingId) : exec (.canvasCreate p r) s = execCanvasCreate p r s := rfl
theorem exec_canvasDestroy (p : PartId) (r : RingId) : exec (.canvasDestroy p r) s = execCanvasDestroy p r s := rfl
theorem exec_commandReadEnd (p : PartId) (r : RingId) : exec (.commandReadEnd p r) s = execCommandReadEnd p r s := rfl
theorem exec_windowCreate (p : PartId) (r : RingId) : exec (.windowCreate p r) s = execWindowCreate p r s := rfl
theorem exec_windowSet (p : PartId) (r : RingId) : exec (.windowSet p r) s = execWindowSet p r s := rfl
theorem exec_windowEnable (p : PartId) (r : RingId) : exec (.windowEnable p r) s = execWindowEnable p r s := rfl
theorem exec_windowDisable (p : PartId) (r : RingId) : exec (.windowDisable p r) s = execWindowDisable p r s := rfl
theorem exec_windowDrained (p : PartId) (r : RingId) : exec (.windowDrained p r) s = execWindowDrained p r s := rfl
theorem exec_windowDestroy (p : PartId) (r : RingId) : exec (.windowDestroy p r) s = execWindowDestroy p r s := rfl
theorem exec_writeFence (p : PartId) (r : RingId) : exec (.writeFence p r) s = execWriteFence p r s := rfl
theorem exec_writeFenceHolds (p : PartId) (r : RingId) : exec (.writeFenceHolds p r) s = execWriteFenceHolds p r s := rfl
theorem exec_calWrite (p : PartId) (r : RingId) : exec (.calWrite p r) s = execCalWrite p r s := rfl
theorem exec_calDiscard (p : PartId) (r : RingId) : exec (.calDiscard p r) s = execCalDiscard p r s := rfl
theorem exec_calCommit (p : PartId) (r : RingId) : exec (.calCommit p r) s = execCalCommit p r s := rfl
theorem exec_gateListCreate (p : PartId) (r : RingId) : exec (.gateListCreate p r) s = execGateListCreate p r s := rfl
theorem exec_gateListWrite (p : PartId) (r : RingId) : exec (.gateListWrite p r) s = execGateListWrite p r s := rfl
theorem exec_gateListStart (p : PartId) (r : RingId) : exec (.gateListStart p r) s = execGateListStart p r s := rfl
theorem exec_gateListStop (p : PartId) (r : RingId) : exec (.gateListStop p r) s = execGateListStop p r s := rfl
theorem exec_gateListDestroy (p : PartId) (r : RingId) : exec (.gateListDestroy p r) s = execGateListDestroy p r s := rfl
theorem exec_shaperCreate (p : PartId) (r : RingId) : exec (.shaperCreate p r) s = execShaperCreate p r s := rfl
theorem exec_shaperSet (p : PartId) (r : RingId) : exec (.shaperSet p r) s = execShaperSet p r s := rfl
theorem exec_shaperDestroy (p : PartId) (r : RingId) : exec (.shaperDestroy p r) s = execShaperDestroy p r s := rfl
theorem exec_guardWrite (p : PartId) (r : RingId) : exec (.guardWrite p r) s = execGuardWrite p r s := rfl
theorem exec_guardSwap (p : PartId) (r : RingId) : exec (.guardSwap p r) s = execGuardSwap p r s := rfl
theorem exec_guardQuery (p : PartId) (r : RingId) : exec (.guardQuery p r) s = execGuardQuery p r s := rfl
theorem exec_timebaseTick : exec (.timebaseTick) s = execTimebaseTick s := rfl
theorem exec_ptpMessage (m : PtpMsg) : exec (.ptpMessage m) s = execPtpMessage m s := rfl
theorem exec_ppsEdge (stampNs : Nat) : exec (.ppsEdge stampNs) s = execPpsEdge stampNs s := rfl
theorem exec_referenceLoss : exec (.referenceLoss) s = execReferenceLoss s := rfl
theorem exec_srcWrite (who : Requester) (v : W32) : exec (.srcWrite who v) s = execSrcWrite who v s := rfl
theorem exec_tbRateWrite (who : Requester) (v : W32) : exec (.tbRateWrite who v) s = execTbRateWrite who v s := rfl
theorem exec_stepGo (who : Requester) (v : W32) : exec (.stepGo who v) s = execStepGo who v s := rfl
theorem exec_stepApply : exec (.stepApply) s = execStepApply s := rfl
theorem exec_ppsOut : exec (.ppsOut) s = execPpsOut s := rfl
theorem exec_tbTimeLoRead (who : Requester) : exec (.tbTimeLoRead who) s = execTbTimeLoRead who s := rfl
theorem exec_pathDelayRemeasure (g : DropId) (turnaroundNs : Nat) : exec (.pathDelayRemeasure g turnaroundNs) s = execPathDelayRemeasure g turnaroundNs s := rfl
theorem exec_segmentReset (seg : SegId) : exec (.segmentReset seg) s = execSegmentReset seg s := rfl
theorem exec_segmentEnumeration (seg : SegId) (findings : List EnumFinding) : exec (.segmentEnumeration seg findings) s = execSegmentEnumeration seg findings s := rfl
theorem exec_negotiation (g : DropId) (answers : NegoAnswers) : exec (.negotiation g answers) s = execNegotiation g answers s := rfl
theorem exec_negotiationFailWait (g : DropId) (answer : Option W16) : exec (.negotiationFailWait g answer) s = execNegotiationFailWait g answer s := rfl
theorem exec_dropRenewal (g : DropId) (answers : Discovery) : exec (.dropRenewal g answers) s = execDropRenewal g answers s := rfl
theorem exec_colantResponse (seg : SegId) (answer : ColAnswer) : exec (.colantResponse seg answer) s = execColantResponse seg answer s := rfl
theorem exec_colantTimeout (seg : SegId) : exec (.colantTimeout seg) s = execColantTimeout seg s := rfl
theorem exec_attnAsserted (seg : SegId) : exec (.attnAsserted seg) s = execAttnAsserted seg s := rfl
theorem exec_pollRound (seg : SegId) : exec (.pollRound seg) s = execPollRound seg s := rfl
theorem exec_statReceived (seg : SegId) : exec (.statReceived seg) s = execStatReceived seg s := rfl
theorem exec_strayAttention (seg : SegId) : exec (.strayAttention seg) s = execStrayAttention seg s := rfl
theorem exec_stuckAttn (seg : SegId) : exec (.stuckAttn seg) s = execStuckAttn seg s := rfl
theorem exec_noAnswerReset (seg : SegId) : exec (.noAnswerReset seg) s = execNoAnswerReset seg s := rfl
theorem exec_cycleStart (seg : SegId) : exec (.cycleStart seg) s = execCycleStart seg s := rfl
theorem exec_calendarSwap (seg : SegId) : exec (.calendarSwap seg) s = execCalendarSwap seg s := rfl
theorem exec_linkHoldWindow (seg : SegId) : exec (.linkHoldWindow seg) s = execLinkHoldWindow seg s := rfl
theorem exec_slotStart (seg : SegId) (k : CalIndex) : exec (.slotStart seg k) s = execSlotStart seg k s := rfl
theorem exec_whistle (seg : SegId) (k : CalIndex) : exec (.whistle seg k) s = execWhistle seg k s := rfl
theorem exec_grant (seg : SegId) (k : CalIndex) : exec (.grant seg k) s = execGrant seg k s := rfl
theorem exec_guestCommand (seg : SegId) (words : List ColWord) : exec (.guestCommand seg words) s = execGuestCommand seg words s := rfl
theorem exec_guestReadCompletion (seg : SegId) (result : ReadResult) : exec (.guestReadCompletion seg result) s = execGuestReadCompletion seg result s := rfl
theorem exec_guestPostedEntry (seg : SegId) : exec (.guestPostedEntry seg) s = execGuestPostedEntry seg s := rfl
theorem exec_holdCeiling (seg : SegId) : exec (.holdCeiling seg) s = execHoldCeiling seg s := rfl
theorem exec_guestReturn (seg : SegId) : exec (.guestReturn seg) s = execGuestReturn seg s := rfl
theorem exec_tenureEnd (seg : SegId) : exec (.tenureEnd seg) s = execTenureEnd seg s := rfl
theorem exec_sync (seg : SegId) : exec (.sync seg) s = execSync seg s := rfl
theorem exec_presentationInstant (seg : SegId) : exec (.presentationInstant seg) s = execPresentationInstant seg s := rfl
theorem exec_arbitrationPhase (seg : SegId) : exec (.arbitrationPhase seg) s = execArbitrationPhase seg s := rfl
theorem exec_wheelBucket (p : PartId) (sh : Fin 32) : exec (.wheelBucket p sh) s = execWheelBucket p sh s := rfl
theorem exec_keepaliveOverdue (g : DropId) : exec (.keepaliveOverdue g) s = execKeepaliveOverdue g s := rfl
theorem exec_schArbFreeze (who : Requester) (seg : SegId) (v : W32) : exec (.schArbFreeze who seg v) s = execSchArbFreeze who seg v s := rfl
theorem exec_schArbClassWrite (who : Requester) (seg : SegId) (v : W32) : exec (.schArbClassWrite who seg v) s = execSchArbClassWrite who seg v s := rfl
theorem exec_schArbLeashWrite (who : Requester) (seg : SegId) (n : Fin 4) (v : W32) : exec (.schArbLeashWrite who seg n v) s = execSchArbLeashWrite who seg n v s := rfl
theorem exec_schArbTenureWrite (who : Requester) (seg : SegId) (v : W32) : exec (.schArbTenureWrite who seg v) s = execSchArbTenureWrite who seg v s := rfl
theorem exec_gateBaseReached (k : GateId) : exec (.gateBaseReached k) s = execGateBaseReached k s := rfl
theorem exec_gateEntryDue (k : GateId) : exec (.gateEntryDue k) s = execGateEntryDue k s := rfl
theorem exec_gateBaseLoRead (p : PartId) : exec (.gateBaseLoRead p) s = execGateBaseLoRead p s := rfl
theorem exec_gateNextLoRead (p : PartId) : exec (.gateNextLoRead p) s = execGateNextLoRead p s := rfl
theorem exec_composeInstant (g : DropId) : exec (.composeInstant g) s = execComposeInstant g s := rfl
theorem exec_composePassEnd (g : DropId) : exec (.composePassEnd g) s = execComposePassEnd g s := rfl
theorem exec_composeLate (g : DropId) : exec (.composeLate g) s = execComposeLate g s := rfl
theorem exec_waferJobStart (g : DropId) (k : CalIndex) : exec (.waferJobStart g k) s = execWaferJobStart g k s := rfl
theorem exec_waferJobEnd (lane : LaneId) : exec (.waferJobEnd lane) s = execWaferJobEnd lane s := rfl
theorem exec_waferLate (g : DropId) (k : CalIndex) : exec (.waferLate g k) s = execWaferLate g k s := rfl
theorem exec_wafDropRefresh (who : Requester) (v : W32) : exec (.wafDropRefresh who v) s = execWafDropRefresh who v s := rfl
theorem exec_pictureDecoded (slot : StreamSlot) (info : PictureInfo) : exec (.pictureDecoded slot info) s = execPictureDecoded slot info s := rfl
theorem exec_streamPauseEnd (slot : StreamSlot) : exec (.streamPauseEnd slot) s = execStreamPauseEnd slot s := rfl
theorem exec_coreUpset (n : CodecCore) (slot : StreamSlot) : exec (.coreUpset n slot) s = execCoreUpset n slot s := rfl
theorem exec_stale (p : PartId) : exec (.stale p) s = execStale p s := rfl
theorem exec_prefetchExpiry (p : PartId) (w : Fin 256) : exec (.prefetchExpiry p w) s = execPrefetchExpiry p w s := rfl
theorem exec_claim (p : PartId) : exec (.claim p) s = execClaim p s := rfl
theorem exec_release (p : PartId) : exec (.release p) s = execRelease p s := rfl
theorem exec_semaphoreExpiry (p : PartId) : exec (.semaphoreExpiry p) s = execSemaphoreExpiry p s := rfl
theorem exec_brgJrnAckWrite (p : PartId) (v : W32) : exec (.brgJrnAckWrite p v) s = execBrgJrnAckWrite p v s := rfl
theorem exec_doorbell (who : Requester) (v : W32) : exec (.doorbell who v) s = execDoorbell who v s := rfl
theorem exec_holdoffExpiry (grp : GroupId) : exec (.holdoffExpiry grp) s = execHoldoffExpiry grp s := rfl
theorem exec_deliveryWindowClose : exec (.deliveryWindowClose) s = execDeliveryWindowClose s := rfl
theorem exec_evcMaskWrite (who : Requester) (v : W32) : exec (.evcMaskWrite who v) s = execEvcMaskWrite who v s := rfl
theorem exec_evcVectorWrite (p : PartId) (v : W32) : exec (.evcVectorWrite p v) s = execEvcVectorWrite p v s := rfl
theorem exec_evcSrcAck (p : PartId) (v : W32) : exec (.evcSrcAck p v) s = execEvcSrcAck p v s := rfl
theorem exec_evcGrpHoldoffWrite (who : Requester) (grp : GroupId) (v : W32) : exec (.evcGrpHoldoffWrite who grp v) s = execEvcGrpHoldoffWrite who grp v s := rfl
theorem exec_evcRouteWrite (who : Requester) (v : W32) : exec (.evcRouteWrite who v) s = execEvcRouteWrite who v s := rfl
theorem exec_evcCoreClaim (who : Requester) (c : CtlCore) : exec (.evcCoreClaim who c) s = execEvcCoreClaim who c s := rfl
theorem exec_evcImaskWrite (who : Requester) (c : CtlCore) (v : W32) : exec (.evcImaskWrite who c v) s = execEvcImaskWrite who c v s := rfl
theorem exec_evcPcntWrite (who : Requester) (c : CtlCore) (v : W32) : exec (.evcPcntWrite who c v) s = execEvcPcntWrite who c v s := rfl
theorem exec_grdEntrySelWrite (who : Requester) (b : PairId) (v : W32) : exec (.grdEntrySelWrite who b v) s = execGrdEntrySelWrite who b v s := rfl
theorem exec_grdEntryLoad (who : Requester) (b : PairId) (v : W32) : exec (.grdEntryLoad who b v) s = execGrdEntryLoad who b v s := rfl
theorem exec_grdBankSwap (who : Requester) (b : PairId) (v : W32) : exec (.grdBankSwap who b v) s = execGrdBankSwap who b v s := rfl
theorem exec_grdCapClear (who : Requester) (b : PairId) (v : W32) : exec (.grdCapClear who b v) s = execGrdCapClear who b v s := rfl
theorem exec_grdCapAddrLoRead (who : Requester) (b : PairId) : exec (.grdCapAddrLoRead who b) s = execGrdCapAddrLoRead who b s := rfl
theorem exec_grdSegEnWrite (who : Requester) (seg : SegId) (v : W32) : exec (.grdSegEnWrite who seg v) s = execGrdSegEnWrite who seg v s := rfl
theorem exec_stickyClear (who : Requester) (addr : W32) (v : W32) : exec (.stickyClear who addr v) s = execStickyClear who addr v s := rfl
theorem exec_fltFirstLoRead (who : Requester) : exec (.fltFirstLoRead who) s = execFltFirstLoRead who s := rfl
theorem exec_bucketStart (cls : Nat) : exec (.bucketStart cls) s = execBucketStart cls s := rfl
theorem exec_coalesceIntervalEnd (isFault : Bool) (cls : Nat) (index : Nat) : exec (.coalesceIntervalEnd isFault cls index) s = execCoalesceIntervalEnd isFault cls index s := rfl
theorem exec_segmentRestore (who : Requester) (v : W32) : exec (.segmentRestore who v) s = execSegmentRestore who v s := rfl
theorem exec_coreRestore (who : Requester) (v : W32) : exec (.coreRestore who v) s = execCoreRestore who v s := rfl
theorem exec_fltLogCfgEn (p : PartId) (v : W32) : exec (.fltLogCfgEn p v) s = execFltLogCfgEn p v s := rfl
theorem exec_fltLogHeadWrite (p : PartId) (v : W32) : exec (.fltLogHeadWrite p v) s = execFltLogHeadWrite p v s := rfl
theorem exec_powerFailWarning (lineDv : Nat) : exec (.powerFailWarning lineDv) s = execPowerFailWarning lineDv s := rfl
theorem exec_mainsRestored : exec (.mainsRestored) s = execMainsRestored s := rfl
theorem exec_dcRegulationLoss : exec (.dcRegulationLoss) s = execDcRegulationLoss s := rfl
theorem exec_mainsCycle (lineDv : Nat) : exec (.mainsCycle lineDv) s = execMainsCycle lineDv s := rfl
theorem exec_psuLimitChange (quarterWatts : Nat) : exec (.psuLimitChange quarterWatts) s = execPsuLimitChange quarterWatts s := rfl
theorem exec_powerGrantPeriod (requests : List Nat) (draws : List Nat) : exec (.powerGrantPeriod requests draws) s = execPowerGrantPeriod requests draws s := rfl
theorem exec_thermalWarning (tenths : Int) : exec (.thermalWarning tenths) s = execThermalWarning tenths s := rfl
theorem exec_thermalTrip (tenths : Int) : exec (.thermalTrip tenths) s = execThermalTrip tenths s := rfl
theorem exec_thermalRestart (tenths : Int) : exec (.thermalRestart tenths) s = execThermalRestart tenths s := rfl
theorem exec_fanFailure (m : Fin 4) (failed : Bool) : exec (.fanFailure m failed) s = execFanFailure m failed s := rfl
theorem exec_memoryError (addr : BitVec 35) (kind : MemError) : exec (.memoryError addr kind) s = execMemoryError addr kind s := rfl
theorem exec_vendorCoreRestart (c : Fin 2) : exec (.vendorCoreRestart c) s = execVendorCoreRestart c s := rfl
theorem exec_vendorCoreRunning (c : Fin 2) : exec (.vendorCoreRunning c) s = execVendorCoreRunning c s := rfl
theorem exec_crcReport (seg : SegId) : exec (.crcReport seg) s = execCrcReport seg s := rfl
theorem exec_thumbnailDue (g : DropId) : exec (.thumbnailDue g) s = execThumbnailDue g s := rfl
theorem exec_captureResponse (seg : SegId) : exec (.captureResponse seg) s = execCaptureResponse seg s := rfl
theorem exec_chunkResponse (seg : SegId) : exec (.chunkResponse seg) s = execChunkResponse seg s := rfl
theorem exec_thumbnailEncoded (g : DropId) (bitstreamLens : List Nat) : exec (.thumbnailEncoded g bitstreamLens) s = execThumbnailEncoded g bitstreamLens s := rfl
theorem exec_telemetryDue (g : DropId) : exec (.telemetryDue g) s = execTelemetryDue g s := rfl
theorem exec_telemetryResponse (seg : SegId) : exec (.telemetryResponse seg) s = execTelemetryResponse seg s := rfl
theorem exec_rtvRingCfgEn (p : PartId) (v : W32) : exec (.rtvRingCfgEn p v) s = execRtvRingCfgEn p v s := rfl
theorem exec_rtvRingHeadWrite (p : PartId) (v : W32) : exec (.rtvRingHeadWrite p v) s = execRtvRingHeadWrite p v s := rfl
theorem exec_rtvDropCfgWrite (p : PartId) (v : W32) : exec (.rtvDropCfgWrite p v) s = execRtvDropCfgWrite p v s := rfl
theorem exec_coreStart (c : CustCore) : exec (.coreStart c) s = execCoreStart c s := rfl
theorem exec_ccTaskGo (c : CustCore) (v : W32) : exec (.ccTaskGo c v) s = execCcTaskGo c v s := rfl
theorem exec_taskExit (c : CustCore) (cause : TaskCause) : exec (.taskExit c cause) s = execTaskExit c cause s := rfl
theorem exec_kick (c : CustCore) (v : W32) : exec (.kick c v) s = execKick c v s := rfl
theorem exec_watchdogHalf (c : CustCore) : exec (.watchdogHalf c) s = execWatchdogHalf c s := rfl
theorem exec_watchdogExpiry (c : CustCore) : exec (.watchdogExpiry c) s = execWatchdogExpiry c s := rfl
theorem exec_customerRestart (c : CustCore) : exec (.customerRestart c) s = execCustomerRestart c s := rfl
theorem exec_ccFbPublish (c : CustCore) (v : W32) : exec (.ccFbPublish c v) s = execCcFbPublish c v s := rfl
theorem exec_ccTimer (c : CustCore) (n : Fin 4) : exec (.ccTimer c n) s = execCcTimer c n s := rfl
theorem exec_ccTmrLoWrite (c : CustCore) (n : Fin 4) (v : W32) : exec (.ccTmrLoWrite c n v) s = execCcTmrLoWrite c n v s := rfl
theorem exec_ccTmrLoRead (who : Requester) (c : CustCore) (n : Fin 4) : exec (.ccTmrLoRead who c n) s = execCcTmrLoRead who c n s := rfl
theorem exec_dcGood (serviceModePinLow : Bool) (rtcNs : Nat) : exec (.dcGood serviceModePinLow rtcNs) s = execDcGood serviceModePinLow rtcNs s := rfl
theorem exec_startUpComplete : exec (.startUpComplete) s = execStartUpComplete s := rfl
theorem exec_bootCalendarInstall (seg : SegId) : exec (.bootCalendarInstall seg) s = execBootCalendarInstall seg s := rfl
theorem exec_standbyPageCopy : exec (.standbyPageCopy) s = execStandbyPageCopy s := rfl
theorem exec_trialTimeout : exec (.trialTimeout) s = execTrialTimeout s := rfl
theorem exec_trialEnd : exec (.trialEnd) s = execTrialEnd s := rfl
theorem exec_mapWrite (m : PartMap) (formatOk : Bool) : exec (.mapWrite m formatOk) s = execMapWrite m formatOk s := rfl
theorem exec_mapRead : exec (.mapRead) s = execMapRead s := rfl
theorem exec_mapFactory : exec (.mapFactory) s = execMapFactory s := rfl
theorem exec_mapCapture : exec (.mapCapture) s = execMapCapture s := rfl
theorem exec_fwWrite (img : FwImage) : exec (.fwWrite img) s = execFwWrite img s := rfl
theorem exec_fwActivate : exec (.fwActivate) s = execFwActivate s := rfl
theorem exec_fwCommit (fuse : Bool) : exec (.fwCommit fuse) s = execFwCommit fuse s := rfl
theorem exec_ccWrite (c : CustCore) (img : CustImage) : exec (.ccWrite c img) s = execCcWrite c img s := rfl
theorem exec_ccActivate (c : CustCore) : exec (.ccActivate c) s = execCcActivate c s := rfl
theorem exec_calLoad (g : DropId) (w : CalWrite) : exec (.calLoad g w) s = execCalLoad g w s := rfl
theorem exec_calRevert (g : DropId) : exec (.calRevert g) s = execCalRevert g s := rfl
theorem exec_pageWrite (k : Fin 256) (page : Image) : exec (.pageWrite k page) s = execPageWrite k page s := rfl
theorem exec_restartCold : exec (.restartCold) s = execRestartCold s := rfl
theorem exec_restartWarm : exec (.restartWarm) s = execRestartWarm s := rfl
theorem exec_segReset (seg : SegId) : exec (.segReset seg) s = execSegReset seg s := rfl
theorem exec_segAccess (g : DropId) (acc : SegAccess) : exec (.segAccess g acc) s = execSegAccess g acc s := rfl
theorem exec_coreRun (c : CustCore) (run : Bool) : exec (.coreRun c run) s = execCoreRun c run s := rfl
theorem exec_flt (op : FltOp) : exec (.flt op) s = execFlt op s := rfl
theorem exec_trace : exec .trace s = execTrace s := rfl
theorem exec_store : exec .store s = execStore s := rfl
theorem exec_attnReleased (seg : SegId) : exec (.attnReleased seg) s = execAttnReleased seg s := rfl
theorem exec_powerFailWarningClear : exec (.powerFailWarningClear) s = execPowerFailWarningClear s := rfl
theorem exec_thermalWarningClear (tenths : Int) : exec (.thermalWarningClear tenths) s = execThermalWarningClear tenths s := rfl
theorem exec_dhcpAnswer (port : NetPort) (addr : W32) (prefixLen : Nat) (gateway : W32) : exec (.dhcpAnswer port addr prefixLen gateway) s = execDhcpAnswer port addr prefixLen gateway s := rfl
theorem exec_dhcpRequestTimer (port : NetPort) : exec (.dhcpRequestTimer port) s = execDhcpRequestTimer port s := rfl
theorem exec_leaseLost (port : NetPort) : exec (.leaseLost port) s = execLeaseLost port s := rfl
theorem exec_arpIcmpEchoRequest (port : NetPort) (query : NetQuery) (payload : Nat) : exec (.arpIcmpEchoRequest port query payload) s = execArpIcmpEchoRequest port query payload s := rfl
theorem exec_servicePortClient (opening : Bool) (chainOk : Bool) : exec (.servicePortClient opening chainOk) s = execServicePortClient opening chainOk s := rfl

end Sys2Proof.Machine
end

