-- ==== Sys2Proof/Laws/State.lean ====
section
/-! SUPPORT. What each update of one part of the state leaves as it is: one lemma per field and update, so that no proof unfolds an update. -/

namespace Sys2Proof.Machine

variable (s : State)

@[simp] theorem State.setPart_pending (p : Nat) (x : Partition) : (s.setPart p x).pending = s.pending := rfl
@[simp] theorem State.setPart_tb (p : Nat) (x : Partition) : (s.setPart p x).tb = s.tb := rfl
@[simp] theorem State.setPart_plant (p : Nat) (x : Partition) : (s.setPart p x).plant = s.plant := rfl
@[simp] theorem State.setPart_segs (p : Nat) (x : Partition) : (s.setPart p x).segs = s.segs := rfl
@[simp] theorem State.setPart_drops (p : Nat) (x : Partition) : (s.setPart p x).drops = s.drops := rfl
@[simp] theorem State.setPart_streams (p : Nat) (x : Partition) : (s.setPart p x).streams = s.streams := rfl
@[simp] theorem State.setPart_cores (p : Nat) (x : Partition) : (s.setPart p x).cores = s.cores := rfl
@[simp] theorem State.setPart_decSel (p : Nat) (x : Partition) : (s.setPart p x).decSel = s.decSel := rfl
@[simp] theorem State.setPart_encoder (p : Nat) (x : Partition) : (s.setPart p x).encoder = s.encoder := rfl
@[simp] theorem State.setPart_canvases (p : Nat) (x : Partition) : (s.setPart p x).canvases = s.canvases := rfl
@[simp] theorem State.setPart_gates (p : Nat) (x : Partition) : (s.setPart p x).gates = s.gates := rfl
@[simp] theorem State.setPart_waf (p : Nat) (x : Partition) : (s.setPart p x).waf = s.waf := rfl
@[simp] theorem State.setPart_cmp (p : Nat) (x : Partition) : (s.setPart p x).cmp = s.cmp := rfl
@[simp] theorem State.setPart_evc (p : Nat) (x : Partition) : (s.setPart p x).evc = s.evc := rfl
@[simp] theorem State.setPart_pairs (p : Nat) (x : Partition) : (s.setPart p x).pairs = s.pairs := rfl
@[simp] theorem State.setPart_flt (p : Nat) (x : Partition) : (s.setPart p x).flt = s.flt := rfl
@[simp] theorem State.setPart_cc (p : Nat) (x : Partition) : (s.setPart p x).cc = s.cc := rfl
@[simp] theorem State.setPart_boot (p : Nat) (x : Partition) : (s.setPart p x).boot = s.boot := rfl
@[simp] theorem State.setPart_out (p : Nat) (x : Partition) : (s.setPart p x).out = s.out := rfl
@[simp] theorem State.setPart_dma (p : Nat) (x : Partition) : (s.setPart p x).dma = s.dma := rfl
@[simp] theorem State.setPart_nextId (p : Nat) (x : Partition) : (s.setPart p x).nextId = s.nextId := rfl
@[simp] theorem State.setPart_free (p : Nat) (x : Partition) : (s.setPart p x).free = s.free := rfl

@[simp] theorem State.onPart_pending (p : Nat) (f : Partition → Partition) : (s.onPart p f).pending = s.pending := rfl
@[simp] theorem State.onPart_tb (p : Nat) (f : Partition → Partition) : (s.onPart p f).tb = s.tb := rfl
@[simp] theorem State.onPart_plant (p : Nat) (f : Partition → Partition) : (s.onPart p f).plant = s.plant := rfl
@[simp] theorem State.onPart_segs (p : Nat) (f : Partition → Partition) : (s.onPart p f).segs = s.segs := rfl
@[simp] theorem State.onPart_drops (p : Nat) (f : Partition → Partition) : (s.onPart p f).drops = s.drops := rfl
@[simp] theorem State.onPart_streams (p : Nat) (f : Partition → Partition) : (s.onPart p f).streams = s.streams := rfl
@[simp] theorem State.onPart_cores (p : Nat) (f : Partition → Partition) : (s.onPart p f).cores = s.cores := rfl
@[simp] theorem State.onPart_decSel (p : Nat) (f : Partition → Partition) : (s.onPart p f).decSel = s.decSel := rfl
@[simp] theorem State.onPart_encoder (p : Nat) (f : Partition → Partition) : (s.onPart p f).encoder = s.encoder := rfl
@[simp] theorem State.onPart_canvases (p : Nat) (f : Partition → Partition) : (s.onPart p f).canvases = s.canvases := rfl
@[simp] theorem State.onPart_gates (p : Nat) (f : Partition → Partition) : (s.onPart p f).gates = s.gates := rfl
@[simp] theorem State.onPart_waf (p : Nat) (f : Partition → Partition) : (s.onPart p f).waf = s.waf := rfl
@[simp] theorem State.onPart_cmp (p : Nat) (f : Partition → Partition) : (s.onPart p f).cmp = s.cmp := rfl
@[simp] theorem State.onPart_evc (p : Nat) (f : Partition → Partition) : (s.onPart p f).evc = s.evc := rfl
@[simp] theorem State.onPart_pairs (p : Nat) (f : Partition → Partition) : (s.onPart p f).pairs = s.pairs := rfl
@[simp] theorem State.onPart_flt (p : Nat) (f : Partition → Partition) : (s.onPart p f).flt = s.flt := rfl
@[simp] theorem State.onPart_cc (p : Nat) (f : Partition → Partition) : (s.onPart p f).cc = s.cc := rfl
@[simp] theorem State.onPart_boot (p : Nat) (f : Partition → Partition) : (s.onPart p f).boot = s.boot := rfl
@[simp] theorem State.onPart_out (p : Nat) (f : Partition → Partition) : (s.onPart p f).out = s.out := rfl
@[simp] theorem State.onPart_dma (p : Nat) (f : Partition → Partition) : (s.onPart p f).dma = s.dma := rfl
@[simp] theorem State.onPart_nextId (p : Nat) (f : Partition → Partition) : (s.onPart p f).nextId = s.nextId := rfl
@[simp] theorem State.onPart_free (p : Nat) (f : Partition → Partition) : (s.onPart p f).free = s.free := rfl

@[simp] theorem State.onRing_pending (p r : Nat) (f : Ring → Ring) : (s.onRing p r f).pending = s.pending := rfl
@[simp] theorem State.onRing_tb (p r : Nat) (f : Ring → Ring) : (s.onRing p r f).tb = s.tb := rfl
@[simp] theorem State.onRing_plant (p r : Nat) (f : Ring → Ring) : (s.onRing p r f).plant = s.plant := rfl
@[simp] theorem State.onRing_segs (p r : Nat) (f : Ring → Ring) : (s.onRing p r f).segs = s.segs := rfl
@[simp] theorem State.onRing_drops (p r : Nat) (f : Ring → Ring) : (s.onRing p r f).drops = s.drops := rfl
@[simp] theorem State.onRing_streams (p r : Nat) (f : Ring → Ring) : (s.onRing p r f).streams = s.streams := rfl
@[simp] theorem State.onRing_cores (p r : Nat) (f : Ring → Ring) : (s.onRing p r f).cores = s.cores := rfl
@[simp] theorem State.onRing_decSel (p r : Nat) (f : Ring → Ring) : (s.onRing p r f).decSel = s.decSel := rfl
@[simp] theorem State.onRing_encoder (p r : Nat) (f : Ring → Ring) : (s.onRing p r f).encoder = s.encoder := rfl
@[simp] theorem State.onRing_canvases (p r : Nat) (f : Ring → Ring) : (s.onRing p r f).canvases = s.canvases := rfl
@[simp] theorem State.onRing_gates (p r : Nat) (f : Ring → Ring) : (s.onRing p r f).gates = s.gates := rfl
@[simp] theorem State.onRing_waf (p r : Nat) (f : Ring → Ring) : (s.onRing p r f).waf = s.waf := rfl
@[simp] theorem State.onRing_cmp (p r : Nat) (f : Ring → Ring) : (s.onRing p r f).cmp = s.cmp := rfl
@[simp] theorem State.onRing_evc (p r : Nat) (f : Ring → Ring) : (s.onRing p r f).evc = s.evc := rfl
@[simp] theorem State.onRing_pairs (p r : Nat) (f : Ring → Ring) : (s.onRing p r f).pairs = s.pairs := rfl
@[simp] theorem State.onRing_flt (p r : Nat) (f : Ring → Ring) : (s.onRing p r f).flt = s.flt := rfl
@[simp] theorem State.onRing_cc (p r : Nat) (f : Ring → Ring) : (s.onRing p r f).cc = s.cc := rfl
@[simp] theorem State.onRing_boot (p r : Nat) (f : Ring → Ring) : (s.onRing p r f).boot = s.boot := rfl
@[simp] theorem State.onRing_out (p r : Nat) (f : Ring → Ring) : (s.onRing p r f).out = s.out := rfl
@[simp] theorem State.onRing_dma (p r : Nat) (f : Ring → Ring) : (s.onRing p r f).dma = s.dma := rfl
@[simp] theorem State.onRing_nextId (p r : Nat) (f : Ring → Ring) : (s.onRing p r f).nextId = s.nextId := rfl
@[simp] theorem State.onRing_free (p r : Nat) (f : Ring → Ring) : (s.onRing p r f).free = s.free := rfl

@[simp] theorem State.onBridge_pending (p : Nat) (f : Bridge → Bridge) : (s.onBridge p f).pending = s.pending := rfl
@[simp] theorem State.onBridge_tb (p : Nat) (f : Bridge → Bridge) : (s.onBridge p f).tb = s.tb := rfl
@[simp] theorem State.onBridge_plant (p : Nat) (f : Bridge → Bridge) : (s.onBridge p f).plant = s.plant := rfl
@[simp] theorem State.onBridge_segs (p : Nat) (f : Bridge → Bridge) : (s.onBridge p f).segs = s.segs := rfl
@[simp] theorem State.onBridge_drops (p : Nat) (f : Bridge → Bridge) : (s.onBridge p f).drops = s.drops := rfl
@[simp] theorem State.onBridge_streams (p : Nat) (f : Bridge → Bridge) : (s.onBridge p f).streams = s.streams := rfl
@[simp] theorem State.onBridge_cores (p : Nat) (f : Bridge → Bridge) : (s.onBridge p f).cores = s.cores := rfl
@[simp] theorem State.onBridge_decSel (p : Nat) (f : Bridge → Bridge) : (s.onBridge p f).decSel = s.decSel := rfl
@[simp] theorem State.onBridge_encoder (p : Nat) (f : Bridge → Bridge) : (s.onBridge p f).encoder = s.encoder := rfl
@[simp] theorem State.onBridge_canvases (p : Nat) (f : Bridge → Bridge) : (s.onBridge p f).canvases = s.canvases := rfl
@[simp] theorem State.onBridge_gates (p : Nat) (f : Bridge → Bridge) : (s.onBridge p f).gates = s.gates := rfl
@[simp] theorem State.onBridge_waf (p : Nat) (f : Bridge → Bridge) : (s.onBridge p f).waf = s.waf := rfl
@[simp] theorem State.onBridge_cmp (p : Nat) (f : Bridge → Bridge) : (s.onBridge p f).cmp = s.cmp := rfl
@[simp] theorem State.onBridge_evc (p : Nat) (f : Bridge → Bridge) : (s.onBridge p f).evc = s.evc := rfl
@[simp] theorem State.onBridge_pairs (p : Nat) (f : Bridge → Bridge) : (s.onBridge p f).pairs = s.pairs := rfl
@[simp] theorem State.onBridge_flt (p : Nat) (f : Bridge → Bridge) : (s.onBridge p f).flt = s.flt := rfl
@[simp] theorem State.onBridge_cc (p : Nat) (f : Bridge → Bridge) : (s.onBridge p f).cc = s.cc := rfl
@[simp] theorem State.onBridge_boot (p : Nat) (f : Bridge → Bridge) : (s.onBridge p f).boot = s.boot := rfl
@[simp] theorem State.onBridge_out (p : Nat) (f : Bridge → Bridge) : (s.onBridge p f).out = s.out := rfl
@[simp] theorem State.onBridge_dma (p : Nat) (f : Bridge → Bridge) : (s.onBridge p f).dma = s.dma := rfl
@[simp] theorem State.onBridge_nextId (p : Nat) (f : Bridge → Bridge) : (s.onBridge p f).nextId = s.nextId := rfl
@[simp] theorem State.onBridge_free (p : Nat) (f : Bridge → Bridge) : (s.onBridge p f).free = s.free := rfl

@[simp] theorem State.onWin_pending (p w : Nat) (f : Window → Window) : (s.onWin p w f).pending = s.pending := rfl
@[simp] theorem State.onWin_tb (p w : Nat) (f : Window → Window) : (s.onWin p w f).tb = s.tb := rfl
@[simp] theorem State.onWin_plant (p w : Nat) (f : Window → Window) : (s.onWin p w f).plant = s.plant := rfl
@[simp] theorem State.onWin_segs (p w : Nat) (f : Window → Window) : (s.onWin p w f).segs = s.segs := rfl
@[simp] theorem State.onWin_drops (p w : Nat) (f : Window → Window) : (s.onWin p w f).drops = s.drops := rfl
@[simp] theorem State.onWin_streams (p w : Nat) (f : Window → Window) : (s.onWin p w f).streams = s.streams := rfl
@[simp] theorem State.onWin_cores (p w : Nat) (f : Window → Window) : (s.onWin p w f).cores = s.cores := rfl
@[simp] theorem State.onWin_decSel (p w : Nat) (f : Window → Window) : (s.onWin p w f).decSel = s.decSel := rfl
@[simp] theorem State.onWin_encoder (p w : Nat) (f : Window → Window) : (s.onWin p w f).encoder = s.encoder := rfl
@[simp] theorem State.onWin_canvases (p w : Nat) (f : Window → Window) : (s.onWin p w f).canvases = s.canvases := rfl
@[simp] theorem State.onWin_gates (p w : Nat) (f : Window → Window) : (s.onWin p w f).gates = s.gates := rfl
@[simp] theorem State.onWin_waf (p w : Nat) (f : Window → Window) : (s.onWin p w f).waf = s.waf := rfl
@[simp] theorem State.onWin_cmp (p w : Nat) (f : Window → Window) : (s.onWin p w f).cmp = s.cmp := rfl
@[simp] theorem State.onWin_evc (p w : Nat) (f : Window → Window) : (s.onWin p w f).evc = s.evc := rfl
@[simp] theorem State.onWin_pairs (p w : Nat) (f : Window → Window) : (s.onWin p w f).pairs = s.pairs := rfl
@[simp] theorem State.onWin_flt (p w : Nat) (f : Window → Window) : (s.onWin p w f).flt = s.flt := rfl
@[simp] theorem State.onWin_cc (p w : Nat) (f : Window → Window) : (s.onWin p w f).cc = s.cc := rfl
@[simp] theorem State.onWin_boot (p w : Nat) (f : Window → Window) : (s.onWin p w f).boot = s.boot := rfl
@[simp] theorem State.onWin_out (p w : Nat) (f : Window → Window) : (s.onWin p w f).out = s.out := rfl
@[simp] theorem State.onWin_dma (p w : Nat) (f : Window → Window) : (s.onWin p w f).dma = s.dma := rfl
@[simp] theorem State.onWin_nextId (p w : Nat) (f : Window → Window) : (s.onWin p w f).nextId = s.nextId := rfl
@[simp] theorem State.onWin_free (p w : Nat) (f : Window → Window) : (s.onWin p w f).free = s.free := rfl

@[simp] theorem State.setSeg_pending (i : Nat) (x : Segment) : (s.setSeg i x).pending = s.pending := rfl
@[simp] theorem State.setSeg_tb (i : Nat) (x : Segment) : (s.setSeg i x).tb = s.tb := rfl
@[simp] theorem State.setSeg_plant (i : Nat) (x : Segment) : (s.setSeg i x).plant = s.plant := rfl
@[simp] theorem State.setSeg_parts (i : Nat) (x : Segment) : (s.setSeg i x).parts = s.parts := rfl
@[simp] theorem State.setSeg_drops (i : Nat) (x : Segment) : (s.setSeg i x).drops = s.drops := rfl
@[simp] theorem State.setSeg_streams (i : Nat) (x : Segment) : (s.setSeg i x).streams = s.streams := rfl
@[simp] theorem State.setSeg_cores (i : Nat) (x : Segment) : (s.setSeg i x).cores = s.cores := rfl
@[simp] theorem State.setSeg_decSel (i : Nat) (x : Segment) : (s.setSeg i x).decSel = s.decSel := rfl
@[simp] theorem State.setSeg_encoder (i : Nat) (x : Segment) : (s.setSeg i x).encoder = s.encoder := rfl
@[simp] theorem State.setSeg_canvases (i : Nat) (x : Segment) : (s.setSeg i x).canvases = s.canvases := rfl
@[simp] theorem State.setSeg_gates (i : Nat) (x : Segment) : (s.setSeg i x).gates = s.gates := rfl
@[simp] theorem State.setSeg_waf (i : Nat) (x : Segment) : (s.setSeg i x).waf = s.waf := rfl
@[simp] theorem State.setSeg_cmp (i : Nat) (x : Segment) : (s.setSeg i x).cmp = s.cmp := rfl
@[simp] theorem State.setSeg_evc (i : Nat) (x : Segment) : (s.setSeg i x).evc = s.evc := rfl
@[simp] theorem State.setSeg_pairs (i : Nat) (x : Segment) : (s.setSeg i x).pairs = s.pairs := rfl
@[simp] theorem State.setSeg_flt (i : Nat) (x : Segment) : (s.setSeg i x).flt = s.flt := rfl
@[simp] theorem State.setSeg_cc (i : Nat) (x : Segment) : (s.setSeg i x).cc = s.cc := rfl
@[simp] theorem State.setSeg_boot (i : Nat) (x : Segment) : (s.setSeg i x).boot = s.boot := rfl
@[simp] theorem State.setSeg_out (i : Nat) (x : Segment) : (s.setSeg i x).out = s.out := rfl
@[simp] theorem State.setSeg_dma (i : Nat) (x : Segment) : (s.setSeg i x).dma = s.dma := rfl
@[simp] theorem State.setSeg_nextId (i : Nat) (x : Segment) : (s.setSeg i x).nextId = s.nextId := rfl
@[simp] theorem State.setSeg_free (i : Nat) (x : Segment) : (s.setSeg i x).free = s.free := rfl

@[simp] theorem State.onSeg_pending (i : Nat) (f : Segment → Segment) : (s.onSeg i f).pending = s.pending := rfl
@[simp] theorem State.onSeg_tb (i : Nat) (f : Segment → Segment) : (s.onSeg i f).tb = s.tb := rfl
@[simp] theorem State.onSeg_plant (i : Nat) (f : Segment → Segment) : (s.onSeg i f).plant = s.plant := rfl
@[simp] theorem State.onSeg_parts (i : Nat) (f : Segment → Segment) : (s.onSeg i f).parts = s.parts := rfl
@[simp] theorem State.onSeg_drops (i : Nat) (f : Segment → Segment) : (s.onSeg i f).drops = s.drops := rfl
@[simp] theorem State.onSeg_streams (i : Nat) (f : Segment → Segment) : (s.onSeg i f).streams = s.streams := rfl
@[simp] theorem State.onSeg_cores (i : Nat) (f : Segment → Segment) : (s.onSeg i f).cores = s.cores := rfl
@[simp] theorem State.onSeg_decSel (i : Nat) (f : Segment → Segment) : (s.onSeg i f).decSel = s.decSel := rfl
@[simp] theorem State.onSeg_encoder (i : Nat) (f : Segment → Segment) : (s.onSeg i f).encoder = s.encoder := rfl
@[simp] theorem State.onSeg_canvases (i : Nat) (f : Segment → Segment) : (s.onSeg i f).canvases = s.canvases := rfl
@[simp] theorem State.onSeg_gates (i : Nat) (f : Segment → Segment) : (s.onSeg i f).gates = s.gates := rfl
@[simp] theorem State.onSeg_waf (i : Nat) (f : Segment → Segment) : (s.onSeg i f).waf = s.waf := rfl
@[simp] theorem State.onSeg_cmp (i : Nat) (f : Segment → Segment) : (s.onSeg i f).cmp = s.cmp := rfl
@[simp] theorem State.onSeg_evc (i : Nat) (f : Segment → Segment) : (s.onSeg i f).evc = s.evc := rfl
@[simp] theorem State.onSeg_pairs (i : Nat) (f : Segment → Segment) : (s.onSeg i f).pairs = s.pairs := rfl
@[simp] theorem State.onSeg_flt (i : Nat) (f : Segment → Segment) : (s.onSeg i f).flt = s.flt := rfl
@[simp] theorem State.onSeg_cc (i : Nat) (f : Segment → Segment) : (s.onSeg i f).cc = s.cc := rfl
@[simp] theorem State.onSeg_boot (i : Nat) (f : Segment → Segment) : (s.onSeg i f).boot = s.boot := rfl
@[simp] theorem State.onSeg_out (i : Nat) (f : Segment → Segment) : (s.onSeg i f).out = s.out := rfl
@[simp] theorem State.onSeg_dma (i : Nat) (f : Segment → Segment) : (s.onSeg i f).dma = s.dma := rfl
@[simp] theorem State.onSeg_nextId (i : Nat) (f : Segment → Segment) : (s.onSeg i f).nextId = s.nextId := rfl
@[simp] theorem State.onSeg_free (i : Nat) (f : Segment → Segment) : (s.onSeg i f).free = s.free := rfl

@[simp] theorem State.onArb_pending (i : Nat) (f : Arb → Arb) : (s.onArb i f).pending = s.pending := rfl
@[simp] theorem State.onArb_tb (i : Nat) (f : Arb → Arb) : (s.onArb i f).tb = s.tb := rfl
@[simp] theorem State.onArb_plant (i : Nat) (f : Arb → Arb) : (s.onArb i f).plant = s.plant := rfl
@[simp] theorem State.onArb_parts (i : Nat) (f : Arb → Arb) : (s.onArb i f).parts = s.parts := rfl
@[simp] theorem State.onArb_drops (i : Nat) (f : Arb → Arb) : (s.onArb i f).drops = s.drops := rfl
@[simp] theorem State.onArb_streams (i : Nat) (f : Arb → Arb) : (s.onArb i f).streams = s.streams := rfl
@[simp] theorem State.onArb_cores (i : Nat) (f : Arb → Arb) : (s.onArb i f).cores = s.cores := rfl
@[simp] theorem State.onArb_decSel (i : Nat) (f : Arb → Arb) : (s.onArb i f).decSel = s.decSel := rfl
@[simp] theorem State.onArb_encoder (i : Nat) (f : Arb → Arb) : (s.onArb i f).encoder = s.encoder := rfl
@[simp] theorem State.onArb_canvases (i : Nat) (f : Arb → Arb) : (s.onArb i f).canvases = s.canvases := rfl
@[simp] theorem State.onArb_gates (i : Nat) (f : Arb → Arb) : (s.onArb i f).gates = s.gates := rfl
@[simp] theorem State.onArb_waf (i : Nat) (f : Arb → Arb) : (s.onArb i f).waf = s.waf := rfl
@[simp] theorem State.onArb_cmp (i : Nat) (f : Arb → Arb) : (s.onArb i f).cmp = s.cmp := rfl
@[simp] theorem State.onArb_evc (i : Nat) (f : Arb → Arb) : (s.onArb i f).evc = s.evc := rfl
@[simp] theorem State.onArb_pairs (i : Nat) (f : Arb → Arb) : (s.onArb i f).pairs = s.pairs := rfl
@[simp] theorem State.onArb_flt (i : Nat) (f : Arb → Arb) : (s.onArb i f).flt = s.flt := rfl
@[simp] theorem State.onArb_cc (i : Nat) (f : Arb → Arb) : (s.onArb i f).cc = s.cc := rfl
@[simp] theorem State.onArb_boot (i : Nat) (f : Arb → Arb) : (s.onArb i f).boot = s.boot := rfl
@[simp] theorem State.onArb_out (i : Nat) (f : Arb → Arb) : (s.onArb i f).out = s.out := rfl
@[simp] theorem State.onArb_dma (i : Nat) (f : Arb → Arb) : (s.onArb i f).dma = s.dma := rfl
@[simp] theorem State.onArb_nextId (i : Nat) (f : Arb → Arb) : (s.onArb i f).nextId = s.nextId := rfl
@[simp] theorem State.onArb_free (i : Nat) (f : Arb → Arb) : (s.onArb i f).free = s.free := rfl

@[simp] theorem State.setDrop_pending (g : Nat) (x : Drop) : (s.setDrop g x).pending = s.pending := rfl
@[simp] theorem State.setDrop_tb (g : Nat) (x : Drop) : (s.setDrop g x).tb = s.tb := rfl
@[simp] theorem State.setDrop_plant (g : Nat) (x : Drop) : (s.setDrop g x).plant = s.plant := rfl
@[simp] theorem State.setDrop_parts (g : Nat) (x : Drop) : (s.setDrop g x).parts = s.parts := rfl
@[simp] theorem State.setDrop_segs (g : Nat) (x : Drop) : (s.setDrop g x).segs = s.segs := rfl
@[simp] theorem State.setDrop_streams (g : Nat) (x : Drop) : (s.setDrop g x).streams = s.streams := rfl
@[simp] theorem State.setDrop_cores (g : Nat) (x : Drop) : (s.setDrop g x).cores = s.cores := rfl
@[simp] theorem State.setDrop_decSel (g : Nat) (x : Drop) : (s.setDrop g x).decSel = s.decSel := rfl
@[simp] theorem State.setDrop_encoder (g : Nat) (x : Drop) : (s.setDrop g x).encoder = s.encoder := rfl
@[simp] theorem State.setDrop_canvases (g : Nat) (x : Drop) : (s.setDrop g x).canvases = s.canvases := rfl
@[simp] theorem State.setDrop_gates (g : Nat) (x : Drop) : (s.setDrop g x).gates = s.gates := rfl
@[simp] theorem State.setDrop_waf (g : Nat) (x : Drop) : (s.setDrop g x).waf = s.waf := rfl
@[simp] theorem State.setDrop_cmp (g : Nat) (x : Drop) : (s.setDrop g x).cmp = s.cmp := rfl
@[simp] theorem State.setDrop_evc (g : Nat) (x : Drop) : (s.setDrop g x).evc = s.evc := rfl
@[simp] theorem State.setDrop_pairs (g : Nat) (x : Drop) : (s.setDrop g x).pairs = s.pairs := rfl
@[simp] theorem State.setDrop_flt (g : Nat) (x : Drop) : (s.setDrop g x).flt = s.flt := rfl
@[simp] theorem State.setDrop_cc (g : Nat) (x : Drop) : (s.setDrop g x).cc = s.cc := rfl
@[simp] theorem State.setDrop_boot (g : Nat) (x : Drop) : (s.setDrop g x).boot = s.boot := rfl
@[simp] theorem State.setDrop_out (g : Nat) (x : Drop) : (s.setDrop g x).out = s.out := rfl
@[simp] theorem State.setDrop_dma (g : Nat) (x : Drop) : (s.setDrop g x).dma = s.dma := rfl
@[simp] theorem State.setDrop_nextId (g : Nat) (x : Drop) : (s.setDrop g x).nextId = s.nextId := rfl
@[simp] theorem State.setDrop_free (g : Nat) (x : Drop) : (s.setDrop g x).free = s.free := rfl

@[simp] theorem State.onDrop_pending (g : Nat) (f : Drop → Drop) : (s.onDrop g f).pending = s.pending := rfl
@[simp] theorem State.onDrop_tb (g : Nat) (f : Drop → Drop) : (s.onDrop g f).tb = s.tb := rfl
@[simp] theorem State.onDrop_plant (g : Nat) (f : Drop → Drop) : (s.onDrop g f).plant = s.plant := rfl
@[simp] theorem State.onDrop_parts (g : Nat) (f : Drop → Drop) : (s.onDrop g f).parts = s.parts := rfl
@[simp] theorem State.onDrop_segs (g : Nat) (f : Drop → Drop) : (s.onDrop g f).segs = s.segs := rfl
@[simp] theorem State.onDrop_streams (g : Nat) (f : Drop → Drop) : (s.onDrop g f).streams = s.streams := rfl
@[simp] theorem State.onDrop_cores (g : Nat) (f : Drop → Drop) : (s.onDrop g f).cores = s.cores := rfl
@[simp] theorem State.onDrop_decSel (g : Nat) (f : Drop → Drop) : (s.onDrop g f).decSel = s.decSel := rfl
@[simp] theorem State.onDrop_encoder (g : Nat) (f : Drop → Drop) : (s.onDrop g f).encoder = s.encoder := rfl
@[simp] theorem State.onDrop_canvases (g : Nat) (f : Drop → Drop) : (s.onDrop g f).canvases = s.canvases := rfl
@[simp] theorem State.onDrop_gates (g : Nat) (f : Drop → Drop) : (s.onDrop g f).gates = s.gates := rfl
@[simp] theorem State.onDrop_waf (g : Nat) (f : Drop → Drop) : (s.onDrop g f).waf = s.waf := rfl
@[simp] theorem State.onDrop_cmp (g : Nat) (f : Drop → Drop) : (s.onDrop g f).cmp = s.cmp := rfl
@[simp] theorem State.onDrop_evc (g : Nat) (f : Drop → Drop) : (s.onDrop g f).evc = s.evc := rfl
@[simp] theorem State.onDrop_pairs (g : Nat) (f : Drop → Drop) : (s.onDrop g f).pairs = s.pairs := rfl
@[simp] theorem State.onDrop_flt (g : Nat) (f : Drop → Drop) : (s.onDrop g f).flt = s.flt := rfl
@[simp] theorem State.onDrop_cc (g : Nat) (f : Drop → Drop) : (s.onDrop g f).cc = s.cc := rfl
@[simp] theorem State.onDrop_boot (g : Nat) (f : Drop → Drop) : (s.onDrop g f).boot = s.boot := rfl
@[simp] theorem State.onDrop_out (g : Nat) (f : Drop → Drop) : (s.onDrop g f).out = s.out := rfl
@[simp] theorem State.onDrop_dma (g : Nat) (f : Drop → Drop) : (s.onDrop g f).dma = s.dma := rfl
@[simp] theorem State.onDrop_nextId (g : Nat) (f : Drop → Drop) : (s.onDrop g f).nextId = s.nextId := rfl
@[simp] theorem State.onDrop_free (g : Nat) (f : Drop → Drop) : (s.onDrop g f).free = s.free := rfl

@[simp] theorem State.onSurf_pending (g : Nat) (f : Surface → Surface) : (s.onSurf g f).pending = s.pending := rfl
@[simp] theorem State.onSurf_tb (g : Nat) (f : Surface → Surface) : (s.onSurf g f).tb = s.tb := rfl
@[simp] theorem State.onSurf_plant (g : Nat) (f : Surface → Surface) : (s.onSurf g f).plant = s.plant := rfl
@[simp] theorem State.onSurf_parts (g : Nat) (f : Surface → Surface) : (s.onSurf g f).parts = s.parts := rfl
@[simp] theorem State.onSurf_segs (g : Nat) (f : Surface → Surface) : (s.onSurf g f).segs = s.segs := rfl
@[simp] theorem State.onSurf_streams (g : Nat) (f : Surface → Surface) : (s.onSurf g f).streams = s.streams := rfl
@[simp] theorem State.onSurf_cores (g : Nat) (f : Surface → Surface) : (s.onSurf g f).cores = s.cores := rfl
@[simp] theorem State.onSurf_decSel (g : Nat) (f : Surface → Surface) : (s.onSurf g f).decSel = s.decSel := rfl
@[simp] theorem State.onSurf_encoder (g : Nat) (f : Surface → Surface) : (s.onSurf g f).encoder = s.encoder := rfl
@[simp] theorem State.onSurf_canvases (g : Nat) (f : Surface → Surface) : (s.onSurf g f).canvases = s.canvases := rfl
@[simp] theorem State.onSurf_gates (g : Nat) (f : Surface → Surface) : (s.onSurf g f).gates = s.gates := rfl
@[simp] theorem State.onSurf_waf (g : Nat) (f : Surface → Surface) : (s.onSurf g f).waf = s.waf := rfl
@[simp] theorem State.onSurf_cmp (g : Nat) (f : Surface → Surface) : (s.onSurf g f).cmp = s.cmp := rfl
@[simp] theorem State.onSurf_evc (g : Nat) (f : Surface → Surface) : (s.onSurf g f).evc = s.evc := rfl
@[simp] theorem State.onSurf_pairs (g : Nat) (f : Surface → Surface) : (s.onSurf g f).pairs = s.pairs := rfl
@[simp] theorem State.onSurf_flt (g : Nat) (f : Surface → Surface) : (s.onSurf g f).flt = s.flt := rfl
@[simp] theorem State.onSurf_cc (g : Nat) (f : Surface → Surface) : (s.onSurf g f).cc = s.cc := rfl
@[simp] theorem State.onSurf_boot (g : Nat) (f : Surface → Surface) : (s.onSurf g f).boot = s.boot := rfl
@[simp] theorem State.onSurf_out (g : Nat) (f : Surface → Surface) : (s.onSurf g f).out = s.out := rfl
@[simp] theorem State.onSurf_dma (g : Nat) (f : Surface → Surface) : (s.onSurf g f).dma = s.dma := rfl
@[simp] theorem State.onSurf_nextId (g : Nat) (f : Surface → Surface) : (s.onSurf g f).nextId = s.nextId := rfl
@[simp] theorem State.onSurf_free (g : Nat) (f : Surface → Surface) : (s.onSurf g f).free = s.free := rfl

@[simp] theorem State.onWaf_pending (g : Nat) (f : WaferDrop → WaferDrop) : (s.onWaf g f).pending = s.pending := rfl
@[simp] theorem State.onWaf_tb (g : Nat) (f : WaferDrop → WaferDrop) : (s.onWaf g f).tb = s.tb := rfl
@[simp] theorem State.onWaf_plant (g : Nat) (f : WaferDrop → WaferDrop) : (s.onWaf g f).plant = s.plant := rfl
@[simp] theorem State.onWaf_parts (g : Nat) (f : WaferDrop → WaferDrop) : (s.onWaf g f).parts = s.parts := rfl
@[simp] theorem State.onWaf_segs (g : Nat) (f : WaferDrop → WaferDrop) : (s.onWaf g f).segs = s.segs := rfl
@[simp] theorem State.onWaf_streams (g : Nat) (f : WaferDrop → WaferDrop) : (s.onWaf g f).streams = s.streams := rfl
@[simp] theorem State.onWaf_cores (g : Nat) (f : WaferDrop → WaferDrop) : (s.onWaf g f).cores = s.cores := rfl
@[simp] theorem State.onWaf_decSel (g : Nat) (f : WaferDrop → WaferDrop) : (s.onWaf g f).decSel = s.decSel := rfl
@[simp] theorem State.onWaf_encoder (g : Nat) (f : WaferDrop → WaferDrop) : (s.onWaf g f).encoder = s.encoder := rfl
@[simp] theorem State.onWaf_canvases (g : Nat) (f : WaferDrop → WaferDrop) : (s.onWaf g f).canvases = s.canvases := rfl
@[simp] theorem State.onWaf_gates (g : Nat) (f : WaferDrop → WaferDrop) : (s.onWaf g f).gates = s.gates := rfl
@[simp] theorem State.onWaf_waf (g : Nat) (f : WaferDrop → WaferDrop) : (s.onWaf g f).waf = s.waf := rfl
@[simp] theorem State.onWaf_cmp (g : Nat) (f : WaferDrop → WaferDrop) : (s.onWaf g f).cmp = s.cmp := rfl
@[simp] theorem State.onWaf_evc (g : Nat) (f : WaferDrop → WaferDrop) : (s.onWaf g f).evc = s.evc := rfl
@[simp] theorem State.onWaf_pairs (g : Nat) (f : WaferDrop → WaferDrop) : (s.onWaf g f).pairs = s.pairs := rfl
@[simp] theorem State.onWaf_flt (g : Nat) (f : WaferDrop → WaferDrop) : (s.onWaf g f).flt = s.flt := rfl
@[simp] theorem State.onWaf_cc (g : Nat) (f : WaferDrop → WaferDrop) : (s.onWaf g f).cc = s.cc := rfl
@[simp] theorem State.onWaf_boot (g : Nat) (f : WaferDrop → WaferDrop) : (s.onWaf g f).boot = s.boot := rfl
@[simp] theorem State.onWaf_out (g : Nat) (f : WaferDrop → WaferDrop) : (s.onWaf g f).out = s.out := rfl
@[simp] theorem State.onWaf_dma (g : Nat) (f : WaferDrop → WaferDrop) : (s.onWaf g f).dma = s.dma := rfl
@[simp] theorem State.onWaf_nextId (g : Nat) (f : WaferDrop → WaferDrop) : (s.onWaf g f).nextId = s.nextId := rfl
@[simp] theorem State.onWaf_free (g : Nat) (f : WaferDrop → WaferDrop) : (s.onWaf g f).free = s.free := rfl

@[simp] theorem State.onCore_pending (n : Nat) (f : DecCore → DecCore) : (s.onCore n f).pending = s.pending := rfl
@[simp] theorem State.onCore_tb (n : Nat) (f : DecCore → DecCore) : (s.onCore n f).tb = s.tb := rfl
@[simp] theorem State.onCore_plant (n : Nat) (f : DecCore → DecCore) : (s.onCore n f).plant = s.plant := rfl
@[simp] theorem State.onCore_parts (n : Nat) (f : DecCore → DecCore) : (s.onCore n f).parts = s.parts := rfl
@[simp] theorem State.onCore_segs (n : Nat) (f : DecCore → DecCore) : (s.onCore n f).segs = s.segs := rfl
@[simp] theorem State.onCore_drops (n : Nat) (f : DecCore → DecCore) : (s.onCore n f).drops = s.drops := rfl
@[simp] theorem State.onCore_streams (n : Nat) (f : DecCore → DecCore) : (s.onCore n f).streams = s.streams := rfl
@[simp] theorem State.onCore_decSel (n : Nat) (f : DecCore → DecCore) : (s.onCore n f).decSel = s.decSel := rfl
@[simp] theorem State.onCore_encoder (n : Nat) (f : DecCore → DecCore) : (s.onCore n f).encoder = s.encoder := rfl
@[simp] theorem State.onCore_canvases (n : Nat) (f : DecCore → DecCore) : (s.onCore n f).canvases = s.canvases := rfl
@[simp] theorem State.onCore_gates (n : Nat) (f : DecCore → DecCore) : (s.onCore n f).gates = s.gates := rfl
@[simp] theorem State.onCore_waf (n : Nat) (f : DecCore → DecCore) : (s.onCore n f).waf = s.waf := rfl
@[simp] theorem State.onCore_cmp (n : Nat) (f : DecCore → DecCore) : (s.onCore n f).cmp = s.cmp := rfl
@[simp] theorem State.onCore_evc (n : Nat) (f : DecCore → DecCore) : (s.onCore n f).evc = s.evc := rfl
@[simp] theorem State.onCore_pairs (n : Nat) (f : DecCore → DecCore) : (s.onCore n f).pairs = s.pairs := rfl
@[simp] theorem State.onCore_flt (n : Nat) (f : DecCore → DecCore) : (s.onCore n f).flt = s.flt := rfl
@[simp] theorem State.onCore_cc (n : Nat) (f : DecCore → DecCore) : (s.onCore n f).cc = s.cc := rfl
@[simp] theorem State.onCore_boot (n : Nat) (f : DecCore → DecCore) : (s.onCore n f).boot = s.boot := rfl
@[simp] theorem State.onCore_out (n : Nat) (f : DecCore → DecCore) : (s.onCore n f).out = s.out := rfl
@[simp] theorem State.onCore_dma (n : Nat) (f : DecCore → DecCore) : (s.onCore n f).dma = s.dma := rfl
@[simp] theorem State.onCore_nextId (n : Nat) (f : DecCore → DecCore) : (s.onCore n f).nextId = s.nextId := rfl
@[simp] theorem State.onCore_free (n : Nat) (f : DecCore → DecCore) : (s.onCore n f).free = s.free := rfl

@[simp] theorem State.onPair_pending (b : Nat) (f : BankPair → BankPair) : (s.onPair b f).pending = s.pending := rfl
@[simp] theorem State.onPair_tb (b : Nat) (f : BankPair → BankPair) : (s.onPair b f).tb = s.tb := rfl
@[simp] theorem State.onPair_plant (b : Nat) (f : BankPair → BankPair) : (s.onPair b f).plant = s.plant := rfl
@[simp] theorem State.onPair_parts (b : Nat) (f : BankPair → BankPair) : (s.onPair b f).parts = s.parts := rfl
@[simp] theorem State.onPair_segs (b : Nat) (f : BankPair → BankPair) : (s.onPair b f).segs = s.segs := rfl
@[simp] theorem State.onPair_drops (b : Nat) (f : BankPair → BankPair) : (s.onPair b f).drops = s.drops := rfl
@[simp] theorem State.onPair_streams (b : Nat) (f : BankPair → BankPair) : (s.onPair b f).streams = s.streams := rfl
@[simp] theorem State.onPair_cores (b : Nat) (f : BankPair → BankPair) : (s.onPair b f).cores = s.cores := rfl
@[simp] theorem State.onPair_decSel (b : Nat) (f : BankPair → BankPair) : (s.onPair b f).decSel = s.decSel := rfl
@[simp] theorem State.onPair_encoder (b : Nat) (f : BankPair → BankPair) : (s.onPair b f).encoder = s.encoder := rfl
@[simp] theorem State.onPair_canvases (b : Nat) (f : BankPair → BankPair) : (s.onPair b f).canvases = s.canvases := rfl
@[simp] theorem State.onPair_gates (b : Nat) (f : BankPair → BankPair) : (s.onPair b f).gates = s.gates := rfl
@[simp] theorem State.onPair_waf (b : Nat) (f : BankPair → BankPair) : (s.onPair b f).waf = s.waf := rfl
@[simp] theorem State.onPair_cmp (b : Nat) (f : BankPair → BankPair) : (s.onPair b f).cmp = s.cmp := rfl
@[simp] theorem State.onPair_evc (b : Nat) (f : BankPair → BankPair) : (s.onPair b f).evc = s.evc := rfl
@[simp] theorem State.onPair_flt (b : Nat) (f : BankPair → BankPair) : (s.onPair b f).flt = s.flt := rfl
@[simp] theorem State.onPair_cc (b : Nat) (f : BankPair → BankPair) : (s.onPair b f).cc = s.cc := rfl
@[simp] theorem State.onPair_boot (b : Nat) (f : BankPair → BankPair) : (s.onPair b f).boot = s.boot := rfl
@[simp] theorem State.onPair_out (b : Nat) (f : BankPair → BankPair) : (s.onPair b f).out = s.out := rfl
@[simp] theorem State.onPair_dma (b : Nat) (f : BankPair → BankPair) : (s.onPair b f).dma = s.dma := rfl
@[simp] theorem State.onPair_nextId (b : Nat) (f : BankPair → BankPair) : (s.onPair b f).nextId = s.nextId := rfl
@[simp] theorem State.onPair_free (b : Nat) (f : BankPair → BankPair) : (s.onPair b f).free = s.free := rfl

@[simp] theorem State.onCust_pending (c : Nat) (f : CustomerCore → CustomerCore) : (s.onCust c f).pending = s.pending := rfl
@[simp] theorem State.onCust_tb (c : Nat) (f : CustomerCore → CustomerCore) : (s.onCust c f).tb = s.tb := rfl
@[simp] theorem State.onCust_plant (c : Nat) (f : CustomerCore → CustomerCore) : (s.onCust c f).plant = s.plant := rfl
@[simp] theorem State.onCust_parts (c : Nat) (f : CustomerCore → CustomerCore) : (s.onCust c f).parts = s.parts := rfl
@[simp] theorem State.onCust_segs (c : Nat) (f : CustomerCore → CustomerCore) : (s.onCust c f).segs = s.segs := rfl
@[simp] theorem State.onCust_drops (c : Nat) (f : CustomerCore → CustomerCore) : (s.onCust c f).drops = s.drops := rfl
@[simp] theorem State.onCust_streams (c : Nat) (f : CustomerCore → CustomerCore) : (s.onCust c f).streams = s.streams := rfl
@[simp] theorem State.onCust_cores (c : Nat) (f : CustomerCore → CustomerCore) : (s.onCust c f).cores = s.cores := rfl
@[simp] theorem State.onCust_decSel (c : Nat) (f : CustomerCore → CustomerCore) : (s.onCust c f).decSel = s.decSel := rfl
@[simp] theorem State.onCust_encoder (c : Nat) (f : CustomerCore → CustomerCore) : (s.onCust c f).encoder = s.encoder := rfl
@[simp] theorem State.onCust_canvases (c : Nat) (f : CustomerCore → CustomerCore) : (s.onCust c f).canvases = s.canvases := rfl
@[simp] theorem State.onCust_gates (c : Nat) (f : CustomerCore → CustomerCore) : (s.onCust c f).gates = s.gates := rfl
@[simp] theorem State.onCust_waf (c : Nat) (f : CustomerCore → CustomerCore) : (s.onCust c f).waf = s.waf := rfl
@[simp] theorem State.onCust_cmp (c : Nat) (f : CustomerCore → CustomerCore) : (s.onCust c f).cmp = s.cmp := rfl
@[simp] theorem State.onCust_evc (c : Nat) (f : CustomerCore → CustomerCore) : (s.onCust c f).evc = s.evc := rfl
@[simp] theorem State.onCust_pairs (c : Nat) (f : CustomerCore → CustomerCore) : (s.onCust c f).pairs = s.pairs := rfl
@[simp] theorem State.onCust_flt (c : Nat) (f : CustomerCore → CustomerCore) : (s.onCust c f).flt = s.flt := rfl
@[simp] theorem State.onCust_boot (c : Nat) (f : CustomerCore → CustomerCore) : (s.onCust c f).boot = s.boot := rfl
@[simp] theorem State.onCust_out (c : Nat) (f : CustomerCore → CustomerCore) : (s.onCust c f).out = s.out := rfl
@[simp] theorem State.onCust_dma (c : Nat) (f : CustomerCore → CustomerCore) : (s.onCust c f).dma = s.dma := rfl
@[simp] theorem State.onCust_nextId (c : Nat) (f : CustomerCore → CustomerCore) : (s.onCust c f).nextId = s.nextId := rfl
@[simp] theorem State.onCust_free (c : Nat) (f : CustomerCore → CustomerCore) : (s.onCust c f).free = s.free := rfl

@[simp] theorem State.onStream_pending (k : Nat) (f : Stream → Stream) : (s.onStream k f).pending = s.pending := by unfold State.onStream; split <;> rfl
@[simp] theorem State.onStream_tb (k : Nat) (f : Stream → Stream) : (s.onStream k f).tb = s.tb := by unfold State.onStream; split <;> rfl
@[simp] theorem State.onStream_plant (k : Nat) (f : Stream → Stream) : (s.onStream k f).plant = s.plant := by unfold State.onStream; split <;> rfl
@[simp] theorem State.onStream_parts (k : Nat) (f : Stream → Stream) : (s.onStream k f).parts = s.parts := by unfold State.onStream; split <;> rfl
@[simp] theorem State.onStream_segs (k : Nat) (f : Stream → Stream) : (s.onStream k f).segs = s.segs := by unfold State.onStream; split <;> rfl
@[simp] theorem State.onStream_drops (k : Nat) (f : Stream → Stream) : (s.onStream k f).drops = s.drops := by unfold State.onStream; split <;> rfl
@[simp] theorem State.onStream_cores (k : Nat) (f : Stream → Stream) : (s.onStream k f).cores = s.cores := by unfold State.onStream; split <;> rfl
@[simp] theorem State.onStream_decSel (k : Nat) (f : Stream → Stream) : (s.onStream k f).decSel = s.decSel := by unfold State.onStream; split <;> rfl
@[simp] theorem State.onStream_encoder (k : Nat) (f : Stream → Stream) : (s.onStream k f).encoder = s.encoder := by unfold State.onStream; split <;> rfl
@[simp] theorem State.onStream_canvases (k : Nat) (f : Stream → Stream) : (s.onStream k f).canvases = s.canvases := by unfold State.onStream; split <;> rfl
@[simp] theorem State.onStream_gates (k : Nat) (f : Stream → Stream) : (s.onStream k f).gates = s.gates := by unfold State.onStream; split <;> rfl
@[simp] theorem State.onStream_waf (k : Nat) (f : Stream → Stream) : (s.onStream k f).waf = s.waf := by unfold State.onStream; split <;> rfl
@[simp] theorem State.onStream_cmp (k : Nat) (f : Stream → Stream) : (s.onStream k f).cmp = s.cmp := by unfold State.onStream; split <;> rfl
@[simp] theorem State.onStream_evc (k : Nat) (f : Stream → Stream) : (s.onStream k f).evc = s.evc := by unfold State.onStream; split <;> rfl
@[simp] theorem State.onStream_pairs (k : Nat) (f : Stream → Stream) : (s.onStream k f).pairs = s.pairs := by unfold State.onStream; split <;> rfl
@[simp] theorem State.onStream_flt (k : Nat) (f : Stream → Stream) : (s.onStream k f).flt = s.flt := by unfold State.onStream; split <;> rfl
@[simp] theorem State.onStream_cc (k : Nat) (f : Stream → Stream) : (s.onStream k f).cc = s.cc := by unfold State.onStream; split <;> rfl
@[simp] theorem State.onStream_boot (k : Nat) (f : Stream → Stream) : (s.onStream k f).boot = s.boot := by unfold State.onStream; split <;> rfl
@[simp] theorem State.onStream_out (k : Nat) (f : Stream → Stream) : (s.onStream k f).out = s.out := by unfold State.onStream; split <;> rfl
@[simp] theorem State.onStream_dma (k : Nat) (f : Stream → Stream) : (s.onStream k f).dma = s.dma := by unfold State.onStream; split <;> rfl
@[simp] theorem State.onStream_nextId (k : Nat) (f : Stream → Stream) : (s.onStream k f).nextId = s.nextId := by unfold State.onStream; split <;> rfl
@[simp] theorem State.onStream_free (k : Nat) (f : Stream → Stream) : (s.onStream k f).free = s.free := by unfold State.onStream; split <;> rfl

@[simp] theorem State.onTb_pending (f : Timebase → Timebase) : (s.onTb f).pending = s.pending := rfl
@[simp] theorem State.onTb_plant (f : Timebase → Timebase) : (s.onTb f).plant = s.plant := rfl
@[simp] theorem State.onTb_parts (f : Timebase → Timebase) : (s.onTb f).parts = s.parts := rfl
@[simp] theorem State.onTb_segs (f : Timebase → Timebase) : (s.onTb f).segs = s.segs := rfl
@[simp] theorem State.onTb_drops (f : Timebase → Timebase) : (s.onTb f).drops = s.drops := rfl
@[simp] theorem State.onTb_streams (f : Timebase → Timebase) : (s.onTb f).streams = s.streams := rfl
@[simp] theorem State.onTb_cores (f : Timebase → Timebase) : (s.onTb f).cores = s.cores := rfl
@[simp] theorem State.onTb_decSel (f : Timebase → Timebase) : (s.onTb f).decSel = s.decSel := rfl
@[simp] theorem State.onTb_encoder (f : Timebase → Timebase) : (s.onTb f).encoder = s.encoder := rfl
@[simp] theorem State.onTb_canvases (f : Timebase → Timebase) : (s.onTb f).canvases = s.canvases := rfl
@[simp] theorem State.onTb_gates (f : Timebase → Timebase) : (s.onTb f).gates = s.gates := rfl
@[simp] theorem State.onTb_waf (f : Timebase → Timebase) : (s.onTb f).waf = s.waf := rfl
@[simp] theorem State.onTb_cmp (f : Timebase → Timebase) : (s.onTb f).cmp = s.cmp := rfl
@[simp] theorem State.onTb_evc (f : Timebase → Timebase) : (s.onTb f).evc = s.evc := rfl
@[simp] theorem State.onTb_pairs (f : Timebase → Timebase) : (s.onTb f).pairs = s.pairs := rfl
@[simp] theorem State.onTb_flt (f : Timebase → Timebase) : (s.onTb f).flt = s.flt := rfl
@[simp] theorem State.onTb_cc (f : Timebase → Timebase) : (s.onTb f).cc = s.cc := rfl
@[simp] theorem State.onTb_boot (f : Timebase → Timebase) : (s.onTb f).boot = s.boot := rfl
@[simp] theorem State.onTb_out (f : Timebase → Timebase) : (s.onTb f).out = s.out := rfl
@[simp] theorem State.onTb_dma (f : Timebase → Timebase) : (s.onTb f).dma = s.dma := rfl
@[simp] theorem State.onTb_nextId (f : Timebase → Timebase) : (s.onTb f).nextId = s.nextId := rfl
@[simp] theorem State.onTb_free (f : Timebase → Timebase) : (s.onTb f).free = s.free := rfl

@[simp] theorem State.onPlant_pending (f : Plant → Plant) : (s.onPlant f).pending = s.pending := rfl
@[simp] theorem State.onPlant_tb (f : Plant → Plant) : (s.onPlant f).tb = s.tb := rfl
@[simp] theorem State.onPlant_parts (f : Plant → Plant) : (s.onPlant f).parts = s.parts := rfl
@[simp] theorem State.onPlant_segs (f : Plant → Plant) : (s.onPlant f).segs = s.segs := rfl
@[simp] theorem State.onPlant_drops (f : Plant → Plant) : (s.onPlant f).drops = s.drops := rfl
@[simp] theorem State.onPlant_streams (f : Plant → Plant) : (s.onPlant f).streams = s.streams := rfl
@[simp] theorem State.onPlant_cores (f : Plant → Plant) : (s.onPlant f).cores = s.cores := rfl
@[simp] theorem State.onPlant_decSel (f : Plant → Plant) : (s.onPlant f).decSel = s.decSel := rfl
@[simp] theorem State.onPlant_encoder (f : Plant → Plant) : (s.onPlant f).encoder = s.encoder := rfl
@[simp] theorem State.onPlant_canvases (f : Plant → Plant) : (s.onPlant f).canvases = s.canvases := rfl
@[simp] theorem State.onPlant_gates (f : Plant → Plant) : (s.onPlant f).gates = s.gates := rfl
@[simp] theorem State.onPlant_waf (f : Plant → Plant) : (s.onPlant f).waf = s.waf := rfl
@[simp] theorem State.onPlant_cmp (f : Plant → Plant) : (s.onPlant f).cmp = s.cmp := rfl
@[simp] theorem State.onPlant_evc (f : Plant → Plant) : (s.onPlant f).evc = s.evc := rfl
@[simp] theorem State.onPlant_pairs (f : Plant → Plant) : (s.onPlant f).pairs = s.pairs := rfl
@[simp] theorem State.onPlant_flt (f : Plant → Plant) : (s.onPlant f).flt = s.flt := rfl
@[simp] theorem State.onPlant_cc (f : Plant → Plant) : (s.onPlant f).cc = s.cc := rfl
@[simp] theorem State.onPlant_boot (f : Plant → Plant) : (s.onPlant f).boot = s.boot := rfl
@[simp] theorem State.onPlant_out (f : Plant → Plant) : (s.onPlant f).out = s.out := rfl
@[simp] theorem State.onPlant_dma (f : Plant → Plant) : (s.onPlant f).dma = s.dma := rfl
@[simp] theorem State.onPlant_nextId (f : Plant → Plant) : (s.onPlant f).nextId = s.nextId := rfl
@[simp] theorem State.onPlant_free (f : Plant → Plant) : (s.onPlant f).free = s.free := rfl

@[simp] theorem State.onFlt_pending (f : Flt → Flt) : (s.onFlt f).pending = s.pending := rfl
@[simp] theorem State.onFlt_tb (f : Flt → Flt) : (s.onFlt f).tb = s.tb := rfl
@[simp] theorem State.onFlt_plant (f : Flt → Flt) : (s.onFlt f).plant = s.plant := rfl
@[simp] theorem State.onFlt_parts (f : Flt → Flt) : (s.onFlt f).parts = s.parts := rfl
@[simp] theorem State.onFlt_segs (f : Flt → Flt) : (s.onFlt f).segs = s.segs := rfl
@[simp] theorem State.onFlt_drops (f : Flt → Flt) : (s.onFlt f).drops = s.drops := rfl
@[simp] theorem State.onFlt_streams (f : Flt → Flt) : (s.onFlt f).streams = s.streams := rfl
@[simp] theorem State.onFlt_cores (f : Flt → Flt) : (s.onFlt f).cores = s.cores := rfl
@[simp] theorem State.onFlt_decSel (f : Flt → Flt) : (s.onFlt f).decSel = s.decSel := rfl
@[simp] theorem State.onFlt_encoder (f : Flt → Flt) : (s.onFlt f).encoder = s.encoder := rfl
@[simp] theorem State.onFlt_canvases (f : Flt → Flt) : (s.onFlt f).canvases = s.canvases := rfl
@[simp] theorem State.onFlt_gates (f : Flt → Flt) : (s.onFlt f).gates = s.gates := rfl
@[simp] theorem State.onFlt_waf (f : Flt → Flt) : (s.onFlt f).waf = s.waf := rfl
@[simp] theorem State.onFlt_cmp (f : Flt → Flt) : (s.onFlt f).cmp = s.cmp := rfl
@[simp] theorem State.onFlt_evc (f : Flt → Flt) : (s.onFlt f).evc = s.evc := rfl
@[simp] theorem State.onFlt_pairs (f : Flt → Flt) : (s.onFlt f).pairs = s.pairs := rfl
@[simp] theorem State.onFlt_cc (f : Flt → Flt) : (s.onFlt f).cc = s.cc := rfl
@[simp] theorem State.onFlt_boot (f : Flt → Flt) : (s.onFlt f).boot = s.boot := rfl
@[simp] theorem State.onFlt_out (f : Flt → Flt) : (s.onFlt f).out = s.out := rfl
@[simp] theorem State.onFlt_dma (f : Flt → Flt) : (s.onFlt f).dma = s.dma := rfl
@[simp] theorem State.onFlt_nextId (f : Flt → Flt) : (s.onFlt f).nextId = s.nextId := rfl
@[simp] theorem State.onFlt_free (f : Flt → Flt) : (s.onFlt f).free = s.free := rfl

@[simp] theorem State.setFault_pending (i : Nat) (x : FaultRec) : (s.setFault i x).pending = s.pending := rfl
@[simp] theorem State.setFault_tb (i : Nat) (x : FaultRec) : (s.setFault i x).tb = s.tb := rfl
@[simp] theorem State.setFault_plant (i : Nat) (x : FaultRec) : (s.setFault i x).plant = s.plant := rfl
@[simp] theorem State.setFault_parts (i : Nat) (x : FaultRec) : (s.setFault i x).parts = s.parts := rfl
@[simp] theorem State.setFault_segs (i : Nat) (x : FaultRec) : (s.setFault i x).segs = s.segs := rfl
@[simp] theorem State.setFault_drops (i : Nat) (x : FaultRec) : (s.setFault i x).drops = s.drops := rfl
@[simp] theorem State.setFault_streams (i : Nat) (x : FaultRec) : (s.setFault i x).streams = s.streams := rfl
@[simp] theorem State.setFault_cores (i : Nat) (x : FaultRec) : (s.setFault i x).cores = s.cores := rfl
@[simp] theorem State.setFault_decSel (i : Nat) (x : FaultRec) : (s.setFault i x).decSel = s.decSel := rfl
@[simp] theorem State.setFault_encoder (i : Nat) (x : FaultRec) : (s.setFault i x).encoder = s.encoder := rfl
@[simp] theorem State.setFault_canvases (i : Nat) (x : FaultRec) : (s.setFault i x).canvases = s.canvases := rfl
@[simp] theorem State.setFault_gates (i : Nat) (x : FaultRec) : (s.setFault i x).gates = s.gates := rfl
@[simp] theorem State.setFault_waf (i : Nat) (x : FaultRec) : (s.setFault i x).waf = s.waf := rfl
@[simp] theorem State.setFault_cmp (i : Nat) (x : FaultRec) : (s.setFault i x).cmp = s.cmp := rfl
@[simp] theorem State.setFault_evc (i : Nat) (x : FaultRec) : (s.setFault i x).evc = s.evc := rfl
@[simp] theorem State.setFault_pairs (i : Nat) (x : FaultRec) : (s.setFault i x).pairs = s.pairs := rfl
@[simp] theorem State.setFault_cc (i : Nat) (x : FaultRec) : (s.setFault i x).cc = s.cc := rfl
@[simp] theorem State.setFault_boot (i : Nat) (x : FaultRec) : (s.setFault i x).boot = s.boot := rfl
@[simp] theorem State.setFault_out (i : Nat) (x : FaultRec) : (s.setFault i x).out = s.out := rfl
@[simp] theorem State.setFault_dma (i : Nat) (x : FaultRec) : (s.setFault i x).dma = s.dma := rfl
@[simp] theorem State.setFault_nextId (i : Nat) (x : FaultRec) : (s.setFault i x).nextId = s.nextId := rfl
@[simp] theorem State.setFault_free (i : Nat) (x : FaultRec) : (s.setFault i x).free = s.free := rfl

@[simp] theorem State.setLive_pending (i : Nat) (b : Bool) : (s.setLive i b).pending = s.pending := rfl
@[simp] theorem State.setLive_tb (i : Nat) (b : Bool) : (s.setLive i b).tb = s.tb := rfl
@[simp] theorem State.setLive_plant (i : Nat) (b : Bool) : (s.setLive i b).plant = s.plant := rfl
@[simp] theorem State.setLive_parts (i : Nat) (b : Bool) : (s.setLive i b).parts = s.parts := rfl
@[simp] theorem State.setLive_segs (i : Nat) (b : Bool) : (s.setLive i b).segs = s.segs := rfl
@[simp] theorem State.setLive_drops (i : Nat) (b : Bool) : (s.setLive i b).drops = s.drops := rfl
@[simp] theorem State.setLive_streams (i : Nat) (b : Bool) : (s.setLive i b).streams = s.streams := rfl
@[simp] theorem State.setLive_cores (i : Nat) (b : Bool) : (s.setLive i b).cores = s.cores := rfl
@[simp] theorem State.setLive_decSel (i : Nat) (b : Bool) : (s.setLive i b).decSel = s.decSel := rfl
@[simp] theorem State.setLive_encoder (i : Nat) (b : Bool) : (s.setLive i b).encoder = s.encoder := rfl
@[simp] theorem State.setLive_canvases (i : Nat) (b : Bool) : (s.setLive i b).canvases = s.canvases := rfl
@[simp] theorem State.setLive_gates (i : Nat) (b : Bool) : (s.setLive i b).gates = s.gates := rfl
@[simp] theorem State.setLive_waf (i : Nat) (b : Bool) : (s.setLive i b).waf = s.waf := rfl
@[simp] theorem State.setLive_cmp (i : Nat) (b : Bool) : (s.setLive i b).cmp = s.cmp := rfl
@[simp] theorem State.setLive_evc (i : Nat) (b : Bool) : (s.setLive i b).evc = s.evc := rfl
@[simp] theorem State.setLive_pairs (i : Nat) (b : Bool) : (s.setLive i b).pairs = s.pairs := rfl
@[simp] theorem State.setLive_cc (i : Nat) (b : Bool) : (s.setLive i b).cc = s.cc := rfl
@[simp] theorem State.setLive_boot (i : Nat) (b : Bool) : (s.setLive i b).boot = s.boot := rfl
@[simp] theorem State.setLive_out (i : Nat) (b : Bool) : (s.setLive i b).out = s.out := rfl
@[simp] theorem State.setLive_dma (i : Nat) (b : Bool) : (s.setLive i b).dma = s.dma := rfl
@[simp] theorem State.setLive_nextId (i : Nat) (b : Bool) : (s.setLive i b).nextId = s.nextId := rfl
@[simp] theorem State.setLive_free (i : Nat) (b : Bool) : (s.setLive i b).free = s.free := rfl

@[simp] theorem State.onBoot_pending (f : Boot → Boot) : (s.onBoot f).pending = s.pending := rfl
@[simp] theorem State.onBoot_tb (f : Boot → Boot) : (s.onBoot f).tb = s.tb := rfl
@[simp] theorem State.onBoot_plant (f : Boot → Boot) : (s.onBoot f).plant = s.plant := rfl
@[simp] theorem State.onBoot_parts (f : Boot → Boot) : (s.onBoot f).parts = s.parts := rfl
@[simp] theorem State.onBoot_segs (f : Boot → Boot) : (s.onBoot f).segs = s.segs := rfl
@[simp] theorem State.onBoot_drops (f : Boot → Boot) : (s.onBoot f).drops = s.drops := rfl
@[simp] theorem State.onBoot_streams (f : Boot → Boot) : (s.onBoot f).streams = s.streams := rfl
@[simp] theorem State.onBoot_cores (f : Boot → Boot) : (s.onBoot f).cores = s.cores := rfl
@[simp] theorem State.onBoot_decSel (f : Boot → Boot) : (s.onBoot f).decSel = s.decSel := rfl
@[simp] theorem State.onBoot_encoder (f : Boot → Boot) : (s.onBoot f).encoder = s.encoder := rfl
@[simp] theorem State.onBoot_canvases (f : Boot → Boot) : (s.onBoot f).canvases = s.canvases := rfl
@[simp] theorem State.onBoot_gates (f : Boot → Boot) : (s.onBoot f).gates = s.gates := rfl
@[simp] theorem State.onBoot_waf (f : Boot → Boot) : (s.onBoot f).waf = s.waf := rfl
@[simp] theorem State.onBoot_cmp (f : Boot → Boot) : (s.onBoot f).cmp = s.cmp := rfl
@[simp] theorem State.onBoot_evc (f : Boot → Boot) : (s.onBoot f).evc = s.evc := rfl
@[simp] theorem State.onBoot_pairs (f : Boot → Boot) : (s.onBoot f).pairs = s.pairs := rfl
@[simp] theorem State.onBoot_flt (f : Boot → Boot) : (s.onBoot f).flt = s.flt := rfl
@[simp] theorem State.onBoot_cc (f : Boot → Boot) : (s.onBoot f).cc = s.cc := rfl
@[simp] theorem State.onBoot_out (f : Boot → Boot) : (s.onBoot f).out = s.out := rfl
@[simp] theorem State.onBoot_dma (f : Boot → Boot) : (s.onBoot f).dma = s.dma := rfl
@[simp] theorem State.onBoot_nextId (f : Boot → Boot) : (s.onBoot f).nextId = s.nextId := rfl
@[simp] theorem State.onBoot_free (f : Boot → Boot) : (s.onBoot f).free = s.free := rfl

@[simp] theorem State.setSource_pending (n : Nat) (x : Source) : (s.setSource n x).pending = s.pending := rfl
@[simp] theorem State.setSource_tb (n : Nat) (x : Source) : (s.setSource n x).tb = s.tb := rfl
@[simp] theorem State.setSource_plant (n : Nat) (x : Source) : (s.setSource n x).plant = s.plant := rfl
@[simp] theorem State.setSource_parts (n : Nat) (x : Source) : (s.setSource n x).parts = s.parts := rfl
@[simp] theorem State.setSource_segs (n : Nat) (x : Source) : (s.setSource n x).segs = s.segs := rfl
@[simp] theorem State.setSource_drops (n : Nat) (x : Source) : (s.setSource n x).drops = s.drops := rfl
@[simp] theorem State.setSource_streams (n : Nat) (x : Source) : (s.setSource n x).streams = s.streams := rfl
@[simp] theorem State.setSource_cores (n : Nat) (x : Source) : (s.setSource n x).cores = s.cores := rfl
@[simp] theorem State.setSource_decSel (n : Nat) (x : Source) : (s.setSource n x).decSel = s.decSel := rfl
@[simp] theorem State.setSource_encoder (n : Nat) (x : Source) : (s.setSource n x).encoder = s.encoder := rfl
@[simp] theorem State.setSource_canvases (n : Nat) (x : Source) : (s.setSource n x).canvases = s.canvases := rfl
@[simp] theorem State.setSource_gates (n : Nat) (x : Source) : (s.setSource n x).gates = s.gates := rfl
@[simp] theorem State.setSource_waf (n : Nat) (x : Source) : (s.setSource n x).waf = s.waf := rfl
@[simp] theorem State.setSource_cmp (n : Nat) (x : Source) : (s.setSource n x).cmp = s.cmp := rfl
@[simp] theorem State.setSource_pairs (n : Nat) (x : Source) : (s.setSource n x).pairs = s.pairs := rfl
@[simp] theorem State.setSource_flt (n : Nat) (x : Source) : (s.setSource n x).flt = s.flt := rfl
@[simp] theorem State.setSource_cc (n : Nat) (x : Source) : (s.setSource n x).cc = s.cc := rfl
@[simp] theorem State.setSource_boot (n : Nat) (x : Source) : (s.setSource n x).boot = s.boot := rfl
@[simp] theorem State.setSource_out (n : Nat) (x : Source) : (s.setSource n x).out = s.out := rfl
@[simp] theorem State.setSource_dma (n : Nat) (x : Source) : (s.setSource n x).dma = s.dma := rfl
@[simp] theorem State.setSource_nextId (n : Nat) (x : Source) : (s.setSource n x).nextId = s.nextId := rfl
@[simp] theorem State.setSource_free (n : Nat) (x : Source) : (s.setSource n x).free = s.free := rfl

@[simp] theorem State.setGroup_pending (g : Nat) (x : Group) : (s.setGroup g x).pending = s.pending := rfl
@[simp] theorem State.setGroup_tb (g : Nat) (x : Group) : (s.setGroup g x).tb = s.tb := rfl
@[simp] theorem State.setGroup_plant (g : Nat) (x : Group) : (s.setGroup g x).plant = s.plant := rfl
@[simp] theorem State.setGroup_parts (g : Nat) (x : Group) : (s.setGroup g x).parts = s.parts := rfl
@[simp] theorem State.setGroup_segs (g : Nat) (x : Group) : (s.setGroup g x).segs = s.segs := rfl
@[simp] theorem State.setGroup_drops (g : Nat) (x : Group) : (s.setGroup g x).drops = s.drops := rfl
@[simp] theorem State.setGroup_streams (g : Nat) (x : Group) : (s.setGroup g x).streams = s.streams := rfl
@[simp] theorem State.setGroup_cores (g : Nat) (x : Group) : (s.setGroup g x).cores = s.cores := rfl
@[simp] theorem State.setGroup_decSel (g : Nat) (x : Group) : (s.setGroup g x).decSel = s.decSel := rfl
@[simp] theorem State.setGroup_encoder (g : Nat) (x : Group) : (s.setGroup g x).encoder = s.encoder := rfl
@[simp] theorem State.setGroup_canvases (g : Nat) (x : Group) : (s.setGroup g x).canvases = s.canvases := rfl
@[simp] theorem State.setGroup_gates (g : Nat) (x : Group) : (s.setGroup g x).gates = s.gates := rfl
@[simp] theorem State.setGroup_waf (g : Nat) (x : Group) : (s.setGroup g x).waf = s.waf := rfl
@[simp] theorem State.setGroup_cmp (g : Nat) (x : Group) : (s.setGroup g x).cmp = s.cmp := rfl
@[simp] theorem State.setGroup_pairs (g : Nat) (x : Group) : (s.setGroup g x).pairs = s.pairs := rfl
@[simp] theorem State.setGroup_flt (g : Nat) (x : Group) : (s.setGroup g x).flt = s.flt := rfl
@[simp] theorem State.setGroup_cc (g : Nat) (x : Group) : (s.setGroup g x).cc = s.cc := rfl
@[simp] theorem State.setGroup_boot (g : Nat) (x : Group) : (s.setGroup g x).boot = s.boot := rfl
@[simp] theorem State.setGroup_out (g : Nat) (x : Group) : (s.setGroup g x).out = s.out := rfl
@[simp] theorem State.setGroup_dma (g : Nat) (x : Group) : (s.setGroup g x).dma = s.dma := rfl
@[simp] theorem State.setGroup_nextId (g : Nat) (x : Group) : (s.setGroup g x).nextId = s.nextId := rfl
@[simp] theorem State.setGroup_free (g : Nat) (x : Group) : (s.setGroup g x).free = s.free := rfl

@[simp] theorem State.onEvcCore_pending (c : Nat) (f : EvcCore → EvcCore) : (s.onEvcCore c f).pending = s.pending := rfl
@[simp] theorem State.onEvcCore_tb (c : Nat) (f : EvcCore → EvcCore) : (s.onEvcCore c f).tb = s.tb := rfl
@[simp] theorem State.onEvcCore_plant (c : Nat) (f : EvcCore → EvcCore) : (s.onEvcCore c f).plant = s.plant := rfl
@[simp] theorem State.onEvcCore_parts (c : Nat) (f : EvcCore → EvcCore) : (s.onEvcCore c f).parts = s.parts := rfl
@[simp] theorem State.onEvcCore_segs (c : Nat) (f : EvcCore → EvcCore) : (s.onEvcCore c f).segs = s.segs := rfl
@[simp] theorem State.onEvcCore_drops (c : Nat) (f : EvcCore → EvcCore) : (s.onEvcCore c f).drops = s.drops := rfl
@[simp] theorem State.onEvcCore_streams (c : Nat) (f : EvcCore → EvcCore) : (s.onEvcCore c f).streams = s.streams := rfl
@[simp] theorem State.onEvcCore_cores (c : Nat) (f : EvcCore → EvcCore) : (s.onEvcCore c f).cores = s.cores := rfl
@[simp] theorem State.onEvcCore_decSel (c : Nat) (f : EvcCore → EvcCore) : (s.onEvcCore c f).decSel = s.decSel := rfl
@[simp] theorem State.onEvcCore_encoder (c : Nat) (f : EvcCore → EvcCore) : (s.onEvcCore c f).encoder = s.encoder := rfl
@[simp] theorem State.onEvcCore_canvases (c : Nat) (f : EvcCore → EvcCore) : (s.onEvcCore c f).canvases = s.canvases := rfl
@[simp] theorem State.onEvcCore_gates (c : Nat) (f : EvcCore → EvcCore) : (s.onEvcCore c f).gates = s.gates := rfl
@[simp] theorem State.onEvcCore_waf (c : Nat) (f : EvcCore → EvcCore) : (s.onEvcCore c f).waf = s.waf := rfl
@[simp] theorem State.onEvcCore_cmp (c : Nat) (f : EvcCore → EvcCore) : (s.onEvcCore c f).cmp = s.cmp := rfl
@[simp] theorem State.onEvcCore_pairs (c : Nat) (f : EvcCore → EvcCore) : (s.onEvcCore c f).pairs = s.pairs := rfl
@[simp] theorem State.onEvcCore_flt (c : Nat) (f : EvcCore → EvcCore) : (s.onEvcCore c f).flt = s.flt := rfl
@[simp] theorem State.onEvcCore_cc (c : Nat) (f : EvcCore → EvcCore) : (s.onEvcCore c f).cc = s.cc := rfl
@[simp] theorem State.onEvcCore_boot (c : Nat) (f : EvcCore → EvcCore) : (s.onEvcCore c f).boot = s.boot := rfl
@[simp] theorem State.onEvcCore_out (c : Nat) (f : EvcCore → EvcCore) : (s.onEvcCore c f).out = s.out := rfl
@[simp] theorem State.onEvcCore_dma (c : Nat) (f : EvcCore → EvcCore) : (s.onEvcCore c f).dma = s.dma := rfl
@[simp] theorem State.onEvcCore_nextId (c : Nat) (f : EvcCore → EvcCore) : (s.onEvcCore c f).nextId = s.nextId := rfl
@[simp] theorem State.onEvcCore_free (c : Nat) (f : EvcCore → EvcCore) : (s.onEvcCore c f).free = s.free := rfl

@[simp] theorem State.emit_pending (o : Output) : (s.emit o).pending = s.pending := by unfold State.emit; split <;> rfl
@[simp] theorem State.emit_tb (o : Output) : (s.emit o).tb = s.tb := by unfold State.emit; split <;> rfl
@[simp] theorem State.emit_plant (o : Output) : (s.emit o).plant = s.plant := by unfold State.emit; split <;> rfl
@[simp] theorem State.emit_segs (o : Output) : (s.emit o).segs = s.segs := by unfold State.emit; split <;> rfl
@[simp] theorem State.emit_drops (o : Output) : (s.emit o).drops = s.drops := by unfold State.emit; split <;> rfl
@[simp] theorem State.emit_streams (o : Output) : (s.emit o).streams = s.streams := by unfold State.emit; split <;> rfl
@[simp] theorem State.emit_cores (o : Output) : (s.emit o).cores = s.cores := by unfold State.emit; split <;> rfl
@[simp] theorem State.emit_decSel (o : Output) : (s.emit o).decSel = s.decSel := by unfold State.emit; split <;> rfl
@[simp] theorem State.emit_encoder (o : Output) : (s.emit o).encoder = s.encoder := by unfold State.emit; split <;> rfl
@[simp] theorem State.emit_canvases (o : Output) : (s.emit o).canvases = s.canvases := by unfold State.emit; split <;> rfl
@[simp] theorem State.emit_gates (o : Output) : (s.emit o).gates = s.gates := by unfold State.emit; split <;> rfl
@[simp] theorem State.emit_waf (o : Output) : (s.emit o).waf = s.waf := by unfold State.emit; split <;> rfl
@[simp] theorem State.emit_cmp (o : Output) : (s.emit o).cmp = s.cmp := by unfold State.emit; split <;> rfl
@[simp] theorem State.emit_evc (o : Output) : (s.emit o).evc = s.evc := by unfold State.emit; split <;> rfl
@[simp] theorem State.emit_pairs (o : Output) : (s.emit o).pairs = s.pairs := by unfold State.emit; split <;> rfl
@[simp] theorem State.emit_flt (o : Output) : (s.emit o).flt = s.flt := by unfold State.emit; split <;> rfl
@[simp] theorem State.emit_cc (o : Output) : (s.emit o).cc = s.cc := by unfold State.emit; split <;> rfl
@[simp] theorem State.emit_boot (o : Output) : (s.emit o).boot = s.boot := by unfold State.emit; split <;> rfl
@[simp] theorem State.emit_dma (o : Output) : (s.emit o).dma = s.dma := by unfold State.emit; split <;> rfl
@[simp] theorem State.emit_nextId (o : Output) : (s.emit o).nextId = s.nextId := by unfold State.emit; split <;> rfl
@[simp] theorem State.emit_free (o : Output) : (s.emit o).free = s.free := by unfold State.emit; split <;> rfl

@[simp] theorem State.setPart_parts (p : Nat) (x : Partition) : (s.setPart p x).parts = tblSet {} s.parts p x := rfl
@[simp] theorem State.setSeg_segs (i : Nat) (x : Segment) : (s.setSeg i x).segs = tblSet {} s.segs i x := rfl
@[simp] theorem State.setDrop_drops (g : Nat) (x : Drop) : (s.setDrop g x).drops = tblSet {} s.drops g x := rfl
@[simp] theorem State.onTb_tb (f : Timebase → Timebase) : (s.onTb f).tb = f s.tb := rfl
@[simp] theorem State.onPlant_plant (f : Plant → Plant) : (s.onPlant f).plant = f s.plant := rfl
@[simp] theorem State.onFlt_flt (f : Flt → Flt) : (s.onFlt f).flt = f s.flt := rfl
@[simp] theorem State.onBoot_boot (f : Boot → Boot) : (s.onBoot f).boot = f s.boot := rfl
@[simp] theorem State.emit_out (o : Output) : (s.emit o).out = s.out ++ [o] := by unfold State.emit; split <;> rfl

end Sys2Proof.Machine
end

