-- ==== Sys2Proof/Laws/Guard.lean ====
section
/-! SUPPORT. What a capture, a doorbell of a hardware block and a block's access can do (R403, R423, R426, R440, R441). -/

namespace Sys2Proof.Machine

/-- A capture changes its pair alone. -/
theorem State.capture_eq (s : State) (n : Nat) (split level : Bool) (k : AccKind) (space req addr : Nat) :
    ∃ f : BankPair → BankPair, (s.capture n split level k space req addr).1 = s.onPair n f := by
  unfold State.capture
  split
  all_goals
    dsimp only
    exact ⟨_, rfl⟩

/-- It sets VALID exactly where the pair held no capture. -/
theorem State.capture_first (s : State) (n : Nat) (split level : Bool) (k : AccKind) (space req addr : Nat) :
    (s.capture n split level k space req addr).2 = !(s.pair n).cap.valid := by
  unfold State.capture
  split <;> simp [*]

/-- A doorbell that the guard lets pass arrives. -/
theorem State.bell_passes (s : State) (b : Bell) (h : s.bellsPass = true) : s.bell b = s.strike b := by simp [State.bell, h]

/-- One that it refuses while a capture is held counts there and nowhere else. -/
theorem State.bell_counts (s : State) (b : Bell) (h : s.bellsPass = false) (hv : (s.pair 10).cap.valid = true) :
    s.bell b = s.onPair 10 fun x => { x with cap := { x.cap with count := satInc x.cap.count } } := by
  simp [State.bell, h, State.refuseBell, State.capture, hv]

/-- A block's access whose every word the guard lets pass changes nothing by itself. -/
theorem State.blockAccess_passes (s : State) (req : Nat) (k : AccKind) (g addr len : Nat)
    (h : ((List.range len).all fun n => s.blockOk k 2 (colantAddr (g / 32) (g % 32) (addr + n))) = true) :
    s.blockAccess req k g addr len = (true, s) := by
  have : (((List.range len).map fun n => colantAddr (g / 32) (g % 32) (addr + n)).find? fun a => !s.blockOk k 2 a) = none := by
    simp only [List.find?_eq_none, List.mem_map, List.mem_range, Bool.not_eq_true', Bool.not_eq_false]
    rintro _ ⟨n, hn, rfl⟩
    exact List.all_eq_true.mp h n (List.mem_range.mpr hn)
  simp [State.blockAccess, this]

end Sys2Proof.Machine
end

