-- ==== Sys2Proof/Laws/Tbl.lean ====
section
/-! SUPPORT. Sparse tables: what a read gives after a write, and that every operation keeps the rising order. -/

namespace Sys2Proof.Machine

variable {α : Type}

@[simp] theorem tblFind_nil (k : Nat) : tblFind ([] : Tbl α) k = none := rfl

theorem tblFind_put_same (t : Tbl α) (k : Nat) (a : α) : tblFind (tblPut t k a) k = some a := by
  induction t with
  | nil => simp [tblPut, tblFind]
  | cons x t ih =>
    obtain ⟨i, b⟩ := x
    simp only [tblPut]
    split
    · simp [tblFind]
    · split
      · simp [tblFind]
      · simp [tblFind, ih, Ne.symm (by assumption : ¬ k = i)]

theorem tblFind_put_other (t : Tbl α) (k j : Nat) (a : α) (h : j ≠ k) : tblFind (tblPut t k a) j = tblFind t j := by
  induction t with
  | nil => simp [tblPut, tblFind, Ne.symm h]
  | cons x t ih =>
    obtain ⟨i, b⟩ := x
    simp only [tblPut]
    split
    · simp [tblFind, Ne.symm h]
    · split
      · rename_i h2; subst h2; simp [tblFind, Ne.symm h]
      · simp [tblFind, ih]

theorem tblFind_erase_other (t : Tbl α) (k j : Nat) (h : j ≠ k) : tblFind (tblErase t k) j = tblFind t j := by
  induction t with
  | nil => rfl
  | cons x t ih =>
    obtain ⟨i, b⟩ := x
    simp only [tblErase]
    split
    · rename_i h2; subst h2; simp [tblFind, Ne.symm h]
    · simp [tblFind, ih]

/-- Every key of t is above k. -/
def tblAbove (k : Nat) (t : Tbl α) : Prop := ∀ e ∈ t, k < e.1

theorem tblRising_cons (i : Nat) (b : α) (t : Tbl α) : tblRising ((i, b) :: t) = true ↔ tblAbove i t ∧ tblRising t = true := by
  induction t generalizing i b with
  | nil => simp [tblRising, tblAbove]
  | cons x t ih =>
    obtain ⟨j, c⟩ := x
    simp only [tblRising, Bool.and_eq_true, decide_eq_true_eq]
    constructor
    · rintro ⟨h1, h2⟩
      refine ⟨?_, h2⟩
      have h3 := (ih j c).1 h2
      intro e he
      rcases List.mem_cons.1 he with rfl | he
      · exact h1
      · exact Nat.lt_trans h1 (h3.1 e he)
    · rintro ⟨h1, h2⟩
      exact ⟨h1 (j, c) (by simp), h2⟩

theorem tblFind_above (t : Tbl α) (k : Nat) (h : tblAbove k t) : tblFind t k = none := by
  induction t with
  | nil => rfl
  | cons x t ih =>
    obtain ⟨i, b⟩ := x
    have h1 : k < i := h (i, b) (by simp)
    simp only [tblFind]
    rw [if_neg (by omega)]
    exact ih fun e he => h e (by simp [he])

theorem tblFind_erase_same (t : Tbl α) (k : Nat) (h : tblRising t = true) : tblFind (tblErase t k) k = none := by
  induction t with
  | nil => rfl
  | cons x t ih =>
    obtain ⟨i, b⟩ := x
    have h1 := (tblRising_cons i b t).1 h
    simp only [tblErase]
    split
    · rename_i h2; subst h2; exact tblFind_above t _ h1.1
    · rename_i h2; simp [tblFind, h2, ih h1.2]

theorem tblAbove_put (t : Tbl α) (i k : Nat) (a : α) (h : tblAbove i t) (hk : i < k) : tblAbove i (tblPut t k a) := by
  induction t with
  | nil => intro e he; simp [tblPut] at he; subst he; exact hk
  | cons x t ih =>
    obtain ⟨j, b⟩ := x
    have h1 : i < j := h (j, b) (by simp)
    have h2 : tblAbove i t := fun e he => h e (by simp [he])
    simp only [tblPut]
    intro e he
    split at he
    · rcases List.mem_cons.1 he with rfl | he
      · exact hk
      · exact h e he
    · split at he
      · rcases List.mem_cons.1 he with rfl | he
        · exact hk
        · exact h2 e he
      · rcases List.mem_cons.1 he with rfl | he
        · exact h1
        · exact ih h2 e he

theorem tblAbove_erase (t : Tbl α) (i k : Nat) (h : tblAbove i t) : tblAbove i (tblErase t k) := by
  induction t with
  | nil => exact h
  | cons x t ih =>
    obtain ⟨j, b⟩ := x
    have h2 : tblAbove i t := fun e he => h e (by simp [he])
    simp only [tblErase]
    split
    · exact h2
    · intro e he
      rcases List.mem_cons.1 he with rfl | he
      · exact h (j, b) (by simp)
      · exact ih h2 e he

/-- A put keeps the rising order. -/
theorem tblRising_put (t : Tbl α) (k : Nat) (a : α) (h : tblRising t = true) : tblRising (tblPut t k a) = true := by
  induction t with
  | nil => rfl
  | cons x t ih =>
    obtain ⟨i, b⟩ := x
    have h1 := (tblRising_cons i b t).1 h
    simp only [tblPut]
    split
    · rename_i h2
      refine (tblRising_cons _ _ _).2 ⟨?_, h⟩
      intro e he
      rcases List.mem_cons.1 he with rfl | he
      · exact h2
      · exact Nat.lt_trans h2 (h1.1 e he)
    · split
      · rename_i h2; subst h2; exact (tblRising_cons _ _ _).2 h1
      · exact (tblRising_cons _ _ _).2 ⟨tblAbove_put t i k a h1.1 (by omega), ih h1.2⟩

/-- An erasure keeps the rising order. -/
theorem tblRising_erase (t : Tbl α) (k : Nat) (h : tblRising t = true) : tblRising (tblErase t k) = true := by
  induction t with
  | nil => rfl
  | cons x t ih =>
    obtain ⟨i, b⟩ := x
    have h1 := (tblRising_cons i b t).1 h
    simp only [tblErase]
    split
    · exact h1.2
    · exact (tblRising_cons _ _ _).2 ⟨tblAbove_erase t i k h1.1, ih h1.2⟩

/-- A register write keeps the rising order. -/
theorem tblRising_set [DecidableEq α] (d : α) (t : Tbl α) (k : Nat) (a : α) (h : tblRising t = true) :
    tblRising (tblSet d t k a) = true := by
  unfold tblSet; split
  · exact tblRising_erase t k h
  · exact tblRising_put t k a h

/-- A change of every record keeps the rising order. -/
theorem tblRising_map (f : Nat → α → α) (t : Tbl α) (h : tblRising t = true) : tblRising (tblMap f t) = true := by
  induction t with
  | nil => rfl
  | cons x t ih =>
    obtain ⟨i, b⟩ := x
    have h1 := (tblRising_cons i b t).1 h
    refine (tblRising_cons _ _ _).2 ⟨?_, ih h1.2⟩
    intro e he
    obtain ⟨y, hy, rfl⟩ := List.mem_map.1 he
    exact h1.1 y hy

/-- A filter keeps the rising order. -/
theorem tblRising_filter (f : Nat × α → Bool) (t : Tbl α) (h : tblRising t = true) : tblRising (t.filter f) = true := by
  induction t with
  | nil => rfl
  | cons x t ih =>
    obtain ⟨i, b⟩ := x
    have h1 := (tblRising_cons i b t).1 h
    simp only [List.filter_cons]
    split
    · refine (tblRising_cons _ _ _).2 ⟨?_, ih h1.2⟩
      intro e he
      exact h1.1 e (List.mem_filter.1 he).1
    · exact ih h1.2

/-- A register read after a write of the same register. -/
theorem tblGet_set_same [DecidableEq α] (d : α) (t : Tbl α) (k : Nat) (a : α) (h : tblRising t = true) :
    tblGet d (tblSet d t k a) k = a := by
  unfold tblSet tblGet; split
  · rename_i h2; rw [tblFind_erase_same t k h, h2]; rfl
  · rw [tblFind_put_same]; rfl

/-- A register read after a write of another register. -/
@[simp] theorem tblGet_set_other [DecidableEq α] (d : α) (t : Tbl α) (k j : Nat) (a : α) (h : j ≠ k) :
    tblGet d (tblSet d t k a) j = tblGet d t j := by
  unfold tblSet tblGet; split
  · rw [tblFind_erase_other t k j h]
  · rw [tblFind_put_other t k j a h]

end Sys2Proof.Machine
end

