-- ==== Sys2Proof/Laws/Memory.lean ====
section
/-! SUPPORT. A customer core's memory after its start (R471): the canonical form, and what each address reads as. -/

namespace Sys2Proof.Machine

/-- The listed bytes of a memory whose first byte stands at address n. -/
def memoryFrom (n : Nat) (l : List Byte) : Tbl Byte := (l.zipIdx n).filterMap fun x => if x.1 = 0 then none else some (x.2, x.1)

theorem memoryFrom_cons (n : Nat) (b : Byte) (l : List Byte) :
    memoryFrom n (b :: l) = if b = 0 then memoryFrom (n + 1) l else (n, b) :: memoryFrom (n + 1) l := by
  unfold memoryFrom
  rw [List.zipIdx_cons, List.filterMap_cons]
  split <;> simp_all

theorem memoryFrom_above (l : List Byte) : ∀ n m, n < m → tblAbove n (memoryFrom m l) := by
  induction l with
  | nil => intro n m _; simp [memoryFrom, tblAbove]
  | cons b l ih =>
    intro n m h
    rw [memoryFrom_cons]
    split
    · exact ih n (m + 1) (by omega)
    · intro e he
      rcases List.mem_cons.mp he with rfl | he
      · exact h
      · exact ih n (m + 1) (by omega) e he

theorem memoryFrom_wf (l : List Byte) : ∀ n, tblWf 0 (memoryFrom n l) = true := by
  induction l with
  | nil => intro n; rfl
  | cons b l ih =>
    intro n
    rw [memoryFrom_cons]
    split
    · exact ih (n + 1)
    · rename_i h
      have h' := ih (n + 1)
      simp only [tblWf, Bool.and_eq_true] at h' ⊢
      exact ⟨(tblRising_cons n b _).mpr ⟨memoryFrom_above l n (n + 1) (by omega), h'.1⟩, by simpa using ⟨h, by simpa using h'.2⟩⟩

theorem memoryFrom_get (l : List Byte) : ∀ n k, n ≤ k → tblGet 0 (memoryFrom n l) k = l.getD (k - n) 0 := by
  induction l with
  | nil => intro n k _; simp [memoryFrom, tblGet]
  | cons b l ih =>
    intro n k h
    rw [memoryFrom_cons]
    rcases Nat.eq_or_lt_of_le h with rfl | h
    · split
      · rename_i hb
        simp [tblGet, tblFind_above _ _ (memoryFrom_above l n (n + 1) (by omega)), hb]
      · simp [tblGet, tblFind]
    · have e : k - n = (k - (n + 1)) + 1 := by omega
      rw [e, List.getD_cons_succ, ← ih (n + 1) k h]
      split
      · rfl
      · have : n ≠ k := by omega
        simp [tblGet, tblFind, this]

/-- The memory a start leaves is in canonical form: addresses strictly rising, and no zero byte listed. -/
theorem imageMemory_wf (m : CustImage) : tblWf 0 (imageMemory m) = true := memoryFrom_wf _ 0

/-- Every address of it reads as the image's code and data hold it, and as zero past them. -/
theorem imageMemory_get (m : CustImage) (k : Nat) : tblGet 0 (imageMemory m) k = m.body.getD k 0 :=
  memoryFrom_get _ 0 k (Nat.zero_le k)

end Sys2Proof.Machine
end

