-- ==== Sys2Proof/Laws/Rings.lean ====
section
/-! SUPPORT. What completing a ring command does and leaves alone, said once: every ring command's statement follows from it. -/

namespace Sys2Proof.Machine

theorem State.part_setPart_same (s : State) (p : Nat) (x : Partition) (h : tblRising s.parts = true) : (s.setPart p x).part p = x :=
  tblGet_set_same _ _ _ _ h

theorem State.part_setPart_other (s : State) (p q : Nat) (x : Partition) (h : q ≠ p) : (s.setPart p x).part q = s.part q :=
  tblGet_set_other _ _ _ _ _ h

theorem State.part_onPart_same (s : State) (p : Nat) (f : Partition → Partition) (h : tblRising s.parts = true) :
    (s.onPart p f).part p = f (s.part p) := tblGet_set_same _ _ _ _ h

theorem State.part_onPart_other (s : State) (p q : Nat) (f : Partition → Partition) (h : q ≠ p) : (s.onPart p f).part q = s.part q :=
  tblGet_set_other _ _ _ _ _ h

theorem State.rising_onPart (s : State) (p : Nat) (f : Partition → Partition) (h : tblRising s.parts = true) :
    tblRising (s.onPart p f).parts = true := tblRising_set _ _ _ _ h

/-- A step that completing commands of p may take: nothing but what RingOnly allows, the partition table stays in order, and outputs and
held completions only grow. -/
structure RingStep (p : Nat) (m t : State) : Prop where
  only : RingOnly p m t
  rising : tblRising t.parts = true
  out : ∃ l, t.out = m.out ++ l
  held : ∃ l, (t.part p).held = (m.part p).held ++ l

theorem RingStep.rfl' (p : Nat) (m : State) (h : tblRising m.parts = true) : RingStep p m m :=
  ⟨⟨rfl, fun _ _ => rfl, rfl, fun _ _ => rfl, fun _ _ => rfl, rfl⟩, h, ⟨[], by simp⟩, ⟨[], by simp⟩⟩

theorem RingStep.trans {p : Nat} {a b c : State} (h : RingStep p a b) (k : RingStep p b c) : RingStep p a c := by
  obtain ⟨⟨h1, h2, h3, h4, h5, h6⟩, _, ⟨l, hl⟩, ⟨v, hv⟩⟩ := h
  obtain ⟨⟨k1, k2, k3, k4, k5, k6⟩, kr, ⟨m, hm⟩, ⟨w, hw⟩⟩ := k
  refine ⟨⟨?_, fun q hq => (k2 q hq).trans (h2 q hq), ?_, fun n hn => (k4 n hn).trans (h4 n hn),
    fun g hg => (k5 g hg).trans (h5 g hg), k6.trans h6⟩, kr, ⟨l ++ m, ?_⟩, ⟨v ++ w, ?_⟩⟩
  · rw [h1] at k1; exact k1
  · rw [h3] at k3; exact k3
  · rw [hm, hl, List.append_assoc]
  · rw [hw, hv, List.append_assoc]

/-- A change of p's partition record within what completions touch. -/
theorem RingStep.onPart (p : Nat) (m : State) (f : Partition → Partition) (h : tblRising m.parts = true)
    (hf : f (m.part p) = { m.part p with
      rings := (f (m.part p)).rings, lastRing := (f (m.part p)).lastRing, held := (f (m.part p)).held,
      inL1 := (f (m.part p)).inL1, idleTick := (f (m.part p)).idleTick })
    (hh : ∃ l, (f (m.part p)).held = (m.part p).held ++ l) : RingStep p m (m.onPart p f) := by
  refine ⟨⟨rfl, fun q hq => m.part_onPart_other p q f hq, ?_, fun _ _ => rfl, fun _ _ => rfl, rfl⟩, m.rising_onPart p f h, ⟨[], by simp⟩, ?_⟩
  · rw [m.part_onPart_same p f h]; exact hf
  · rw [m.part_onPart_same p f h]; exact hh

theorem RingStep.onRing (p r : Nat) (m : State) (f : Ring → Ring) (h : tblRising m.parts = true) : RingStep p m (m.onRing p r f) :=
  RingStep.onPart p m _ h rfl ⟨[], by simp⟩

theorem RingStep.emit (p : Nat) (m : State) (o : Output) (h : tblRising m.parts = true) (ho : o.port = some p)
    (hn : ∀ a : Aer, a.note o = a) : RingStep p m (m.emit o) := by
  have e : m.emit o = { m.onPart p (fun x => { x with inL1 := false, idleTick := m.tick, aer := x.aer.note o }) with out := m.out ++ [o] } := by
    unfold State.emit; rw [ho]; rfl
  have k := RingStep.onPart p m (fun x => { x with inL1 := false, idleTick := m.tick, aer := x.aer.note o }) h
    (by simp only [hn]) ⟨[], by simp⟩
  rw [e]
  exact ⟨⟨rfl, k.only.2.1, k.only.2.2.1, k.only.2.2.2.1, k.only.2.2.2.2.1, rfl⟩, k.rising, ⟨[o], rfl⟩, k.held⟩

/-- The state with a request for host memory in the table, sent or waiting. -/
def State.withRequest (m : State) (w : DmaFor) (read a n : Nat) (keep sent : Bool) : State :=
  { m with nextId := m.nextId + 1,
           dma := m.dma ++ [{ id := m.nextId, purpose := w, addr := a, len := n, sent := sent, read := read, keep := keep }] }

/-- A request that begins enters the table, and leaves at once or waits. -/
theorem State.startRequest_eq (m : State) (p : Nat) (w : DmaFor) (read a n : Nat) (keep : Bool) :
    m.startRequest p w read a n keep = (m.withRequest w read a n keep true).emit (.memRead p m.nextId a n) ∨
      m.startRequest p w read a n keep = m.withRequest w read a n keep false := by
  have e : m.startRequest p w read a n keep = if decide (m.outstanding p < 256) = true
      then (m.withRequest w read a n keep (decide (m.outstanding p < 256))).emit (.memRead p m.nextId a n)
      else m.withRequest w read a n keep (decide (m.outstanding p < 256)) := rfl
  rw [e]
  cases decide (m.outstanding p < 256)
  · exact .inr rfl
  · exact .inl rfl

theorem RingStep.withRequest (p : Nat) (m : State) (w : DmaFor) (read a n : Nat) (keep b : Bool) (h : tblRising m.parts = true) :
    RingStep p m (m.withRequest w read a n keep b) :=
  ⟨⟨rfl, fun _ _ => rfl, rfl, fun _ _ => rfl, fun _ _ => rfl, rfl⟩, h, ⟨[], (List.append_nil _).symm⟩, ⟨[], (List.append_nil _).symm⟩⟩

theorem RingStep.startRequest (p : Nat) (m : State) (w : DmaFor) (read a n : Nat) (keep : Bool) (h : tblRising m.parts = true) :
    RingStep p m (m.startRequest p w read a n keep) := by
  rcases m.startRequest_eq p w read a n keep with e | e <;> rw [e]
  · exact (RingStep.withRequest p m w read a n keep true h).trans (RingStep.emit p _ (.memRead p m.nextId a n) h rfl fun _ => rfl)
  · exact RingStep.withRequest p m w read a n keep false h

/-- A fold of ring steps is one. -/
theorem RingStep.foldl {α : Type} (p : Nat) (f : State → α → State) (hf : ∀ m x, tblRising m.parts = true → RingStep p m (f m x))
    (l : List α) (m : State) (h : tblRising m.parts = true) : RingStep p m (l.foldl f m) := by
  induction l generalizing m with
  | nil => exact RingStep.rfl' p m h
  | cons x l ih => exact (hf m x h).trans (ih _ (hf m x h).rising)

theorem RingStep.startReads (p : Nat) (m : State) (w : DmaFor) (l : List ((Nat × Nat) × Bool)) (h : tblRising m.parts = true) :
    RingStep p m (m.startReads p w l) := by
  unfold State.startReads
  exact RingStep.foldl p _ (fun n x hn => RingStep.startRequest p n w _ _ _ _ hn) _ m h

theorem RingStep.startRead (p : Nat) (m : State) (w : DmaFor) (a n : Nat) (h : tblRising m.parts = true) :
    RingStep p m (m.startRead p w a n) := RingStep.startReads p m w _ h

/-- Ring steps leave the guard's tables, and so what it decides of doorbells. -/
theorem RingStep.bells {p : Nat} {m t : State} (h : RingStep p m t) (hb : m.bellsPass = true) : t.bellsPass = true := by
  rw [h.only.1]; exact hb

theorem RingStep.fetch (p r : Nat) (m : State) (h : tblRising m.parts = true) : RingStep p m (m.fetch p r) := by
  unfold State.fetch
  simp only []
  split
  · exact RingStep.rfl' p m h
  · have k := RingStep.onRing p r m (fun x => { x with reading := (m.ring p r).fetchable }) h
    exact k.trans (RingStep.startRead p _ _ _ _ k.rising)

theorem State.source_setSource_other (s : State) (n k : Nat) (x : Source) (h : k ≠ n) : (s.setSource n x).source k = s.source k := by
  unfold State.setSource State.source
  exact tblGet_set_other' s n k x h
where
  tblGet_set_other' (s : State) (n k : Nat) (x : Source) (h : k ≠ n) :
      tblGet {} (tblSet {} s.evc.sources n x) k = tblGet {} s.evc.sources k := by
    unfold tblSet tblGet; split
    · rw [tblFind_erase_other _ n k h]
    · rw [tblFind_put_other _ n k x h]

theorem State.group_setGroup_other (s : State) (g k : Nat) (x : Group) (h : k ≠ g) : (s.setGroup g x).group k = s.group k := by
  unfold State.setGroup State.group
  show tblGet (s.groupDefault k) (tblSet (s.groupDefault g) s.evc.groups g x) k = tblGet (s.groupDefault k) s.evc.groups k
  unfold tblSet tblGet; split
  · rw [tblFind_erase_other _ g k h]
  · rw [tblFind_put_other _ g k x h]

/-- What a change of the event controller for a source n leaves: every other source and every other group. -/
structure EvcOnly (n : Nat) (m t : State) : Prop where
  frame : t = { m with evc := t.evc }
  src : ∀ k, k ≠ n → t.source k = m.source k
  grp : ∀ g, g ≠ groupOf n → t.group g = m.group g
  sel : t.evc.routeSel = m.evc.routeSel

theorem EvcOnly.trans {n : Nat} {a b c : State} (h : EvcOnly n a b) (k : EvcOnly n b c) : EvcOnly n a c :=
  ⟨by have := k.frame; rw [h.frame] at this; exact this, fun i hi => (k.src i hi).trans (h.src i hi),
    fun g hg => (k.grp g hg).trans (h.grp g hg), k.sel.trans h.sel⟩

theorem EvcOnly.setSource (n : Nat) (m : State) (x : Source) : EvcOnly n m (m.setSource n x) :=
  ⟨rfl, fun k hk => m.source_setSource_other n k x hk, fun _ _ => rfl, rfl⟩

theorem EvcOnly.commit (n : Nat) (m : State) : EvcOnly n m (m.commit n) := by
  unfold State.commit
  simp only []
  have k := EvcOnly.setSource n m { m.source n with pending := false, fired := true, window := some (m.tick + 12, m.target n) }
  split
  · exact k.trans ⟨rfl, fun _ _ => rfl, fun _ _ => rfl, rfl⟩
  · exact k

theorem EvcOnly.same (n : Nat) (m : State) : EvcOnly n m m := ⟨rfl, fun _ _ => rfl, fun _ _ => rfl, rfl⟩

theorem EvcOnly.arm (n : Nat) (m : State) : EvcOnly n m (m.arm n) := by
  unfold State.arm
  simp only []
  repeat' split
  · exact EvcOnly.same n m
  · exact EvcOnly.same n m
  · exact EvcOnly.commit n m
  · exact ⟨rfl, fun _ _ => rfl, fun g hg => m.group_setGroup_other _ g _ hg, rfl⟩

/-- A source's arrival changes that source, its group's timer and, where it is committed to a core, that core's delivered bits. -/
theorem EvcOnly.ringShared (n : Nat) (m : State) : EvcOnly n m (m.ringShared n) := by
  unfold State.ringShared
  split
  · exact EvcOnly.same n m
  · by_cases hm : (m.source n).mask = true
    · simp only [hm, if_true]
      exact EvcOnly.setSource n m _
    · simp only [hm]
      exact (EvcOnly.setSource n m _).trans (EvcOnly.arm n _)

theorem EvcOnly.signal (n : Nat) (m : State) (hb : m.bellsPass = true) : EvcOnly n m (m.signal n) := by
  unfold State.signal State.bell
  rw [if_pos hb]
  exact EvcOnly.ringShared n m

theorem EvcOnly.ringStep {n p : Nat} {m t : State} (h : EvcOnly n m t) (hn : groupOf n = 88 + p) (hr : tblRising m.parts = true) :
    RingStep p m t := by
  have hp : ∀ q, t.part q = m.part q := fun q => by rw [h.frame]; rfl
  refine ⟨⟨?_, fun q _ => hp q, ?_, ?_, ?_, h.sel⟩, ?_, ⟨[], ?_⟩, ⟨[], ?_⟩⟩
  · have := h.frame; rw [this]
  · rw [hp p]
  · intro k hk; exact h.src k (by rintro rfl; exact hk hn)
  · intro g hg; exact h.grp g (by rw [hn]; exact hg)
  · have : t.parts = m.parts := by rw [h.frame]
    rw [this]; exact hr
  · have : t.out = m.out := by rw [h.frame]
    simp [this]
  · simp [hp p]

theorem RingStep.signalUnit (p k : Nat) (m : State) (h : tblRising m.parts = true) (hb : m.bellsPass = true) (hk : k < 32) :
    RingStep p m (m.signalUnit p k) := by
  refine (EvcOnly.signal _ m hb).ringStep ?_ h
  unfold groupOf; omega

theorem RingStep.writeEntry (p r a : Nat) (b : List Byte) (m : State) (h : tblRising m.parts = true) :
    RingStep p m (m.writeEntry p r a b) := by
  unfold State.writeEntry; split
  · exact RingStep.emit p m _ h rfl fun _ => rfl
  · exact RingStep.onPart p m _ h rfl ⟨[{ ring := r, addr := a, bytes := b }], rfl⟩

/-- The state after a command's completion entry and before its signal and the next fetch. -/
def State.entered (s : State) (p r : Nat) (x : Reply) (v : Nat) (c : Fetched) (rest : List Fetched) : State :=
  let g := s.ring p r
  let next := (g.cqTail + 1) % g.cqSize
  (s.onRing p r fun g =>
      { g with fetched := rest, wait := none, descs := [], cqTail := next, unreleased := g.unreleased + 1,
               announced := tblErase g.announced c.index, phase := if next = 0 then !g.phase else g.phase }).writeEntry p r
    (g.cqAddr.toNat + 32 * g.cqTail) (completionOf g c.entry c.index x v)

theorem State.complete_eq (s : State) (p r : Nat) (x : Reply) (v : Nat) (c : Fetched) (rest : List Fetched)
    (h : (s.ring p r).fetched = c :: rest) :
    s.complete p r x v =
      (if entryNotify c.entry then (s.entered p r x v c rest).signalUnit p r else s.entered p r x v c rest).fetch p r := by
  unfold State.complete State.entered
  simp only [h]
  rfl

theorem State.entered_step (p r : Nat) (x : Reply) (v : Nat) (m : State) (c : Fetched) (rest : List Fetched)
    (h : tblRising m.parts = true) : RingStep p m (m.entered p r x v c rest) := by
  unfold State.entered
  have k := RingStep.onRing p r m (fun g =>
      { g with fetched := rest, wait := none, descs := [], cqTail := ((m.ring p r).cqTail + 1) % (m.ring p r).cqSize,
               unreleased := g.unreleased + 1, announced := tblErase g.announced c.index,
               phase := if ((m.ring p r).cqTail + 1) % (m.ring p r).cqSize = 0 then !g.phase else g.phase }) h
  exact k.trans (RingStep.writeEntry p r _ _ _ k.rising)

/-- Completing a command is a ring step. -/
theorem State.complete_step (p r : Nat) (x : Reply) (v : Nat) (m : State) (h : tblRising m.parts = true) (hb : m.bellsPass = true) (hr : r < 32) :
    RingStep p m (m.complete p r x v) := by
  cases hf : (m.ring p r).fetched with
  | nil =>
    have : m.complete p r x v = m := by unfold State.complete; simp only [hf]
    rw [this]; exact RingStep.rfl' p m h
  | cons c rest =>
    rw [m.complete_eq p r x v c rest hf]
    have k := m.entered_step p r x v c rest h
    split
    · have k2 := k.trans (RingStep.signalUnit p r _ k.rising (k.bells hb) hr)
      exact k2.trans (RingStep.fetch p r _ k2.rising)
    · exact k.trans (RingStep.fetch p r _ k.rising)

/-- Completing a command answers it. -/
theorem State.complete_answers (p r : Nat) (x : Reply) (v : Nat) (m : State) (c : Fetched) (rest : List Fetched)
    (h : tblRising m.parts = true) (hb : m.bellsPass = true) (hr : r < 32) (hf : (m.ring p r).fetched = c :: rest) :
    Answered p r x v m (m.complete p r x v) := by
  rw [m.complete_eq p r x v c rest hf]
  have k := m.entered_step p r x v c rest h
  have k3 : RingStep p (m.entered p r x v c rest)
      ((if entryNotify c.entry then (m.entered p r x v c rest).signalUnit p r else m.entered p r x v c rest).fetch p r) := by
    split
    · have k2 := RingStep.signalUnit p r _ k.rising (k.bells hb) hr
      exact k2.trans (RingStep.fetch p r _ k2.rising)
    · exact RingStep.fetch p r _ k.rising
  refine ⟨c, rest, hf, ?_⟩
  have hdma : ∀ f : Ring → Ring, ((m.onRing p r f).part p).dmaOk = (m.part p).dmaOk := fun f => by
    unfold State.onRing; rw [State.part_onPart_same _ _ _ h]; rfl
  have hheld : ∀ f : Ring → Ring, ((m.onRing p r f).part p).held = (m.part p).held := fun f => by
    unfold State.onRing; rw [State.part_onPart_same _ _ _ h]
  split
  · rename_i hd
    obtain ⟨l, hl⟩ := k3.out
    refine ⟨l, ?_⟩
    rw [hl]
    unfold State.entered State.writeEntry
    simp only [hdma, hd, if_true]
    simp
  · rename_i hd
    obtain ⟨l, hl⟩ := k3.held
    refine ⟨l, ?_⟩
    rw [hl]
    unfold State.entered State.writeEntry
    simp only [hdma, hd]
    rw [if_neg (by simp)]
    rw [State.part_onPart_same _ _ _ (RingStep.onRing p r m _ h).rising]
    simp [hheld]

theorem RingStep.lastRing (p r : Nat) (m : State) (h : tblRising m.parts = true) :
    RingStep p m (m.onPart p fun x => { x with lastRing := r }) := RingStep.onPart p m _ h rfl ⟨[], by simp⟩

theorem State.nextRing_lt (s : State) (p r : Nat) (h : s.nextRing p = some r) : r < 16 := by
  unfold State.nextRing at h
  have := List.mem_of_find?_eq_some h
  simp only [List.mem_map, List.mem_range] at this
  obtain ⟨a, _, rfl⟩ := this
  omega

/-- Completing unknown opcodes is a ring step. -/
theorem State.drainUnknown_step (p : Nat) (n : Nat) (m : State) (h : tblRising m.parts = true) (hb : m.bellsPass = true) :
    RingStep p m (m.drainUnknown n p) := by
  induction n generalizing m with
  | zero => exact RingStep.rfl' p m h
  | succ n ih =>
    unfold State.drainUnknown
    split
    · exact RingStep.rfl' p m h
    · rename_i r hr
      split
      · exact RingStep.rfl' p m h
      · split
        · exact RingStep.rfl' p m h
        · have k := RingStep.lastRing p r m h
          have k2 := k.trans (State.complete_step p r (replyBadParam 0) m.now _ k.rising (k.bells hb) (by have := m.nextRing_lt p r hr; omega))
          exact k2.trans (ih _ k2.rising (k2.bells hb))

theorem State.settleRings_step (p : Nat) (m : State) (h : tblRising m.parts = true) (hb : m.bellsPass = true) :
    RingStep p m (m.settleRings p) := drainUnknown_step p _ m h hb

/-- A finished command that is answered OK: its completion leaves or is held, and only ring state changes (R149, R152). -/
theorem State.finish_ok (s m : State) (p r : Nat) (x : Reply) (c : Fetched) (rest : List Fetched) (h : tblRising m.parts = true)
    (hb : m.bellsPass = true) (hr : r < 32) (hf : (m.ring p r).fetched = c :: rest) (hx : x.status = 0) :
    RingOnly p m (s.finish p r (.reply x m)) ∧ Answered p r x s.now m (s.finish p r (.reply x m)) := by
  have e : s.finish p r (.reply x m) = (m.complete p r x s.now).settleRings p := by unfold State.finish; simp [hx]
  rw [e]
  have k := m.complete_step p r x s.now h hb hr
  have k2 := State.settleRings_step p _ k.rising (k.bells hb)
  refine ⟨(k.trans k2).only, ?_⟩
  obtain ⟨c', rest', hf', ha⟩ := m.complete_answers p r x s.now c rest h hb hr hf
  refine ⟨c', rest', hf', ?_⟩
  simp only at ha ⊢
  split
  · rename_i hd
    simp only [hd, if_true] at ha
    obtain ⟨a, ha⟩ := ha
    obtain ⟨l, hl⟩ := k2.out
    exact ⟨a ++ l, by rw [hl, ha]; simp⟩
  · rename_i hd
    simp only [hd] at ha
    rw [if_neg (by simp)] at ha
    obtain ⟨a, ha⟩ := ha
    obtain ⟨l, hl⟩ := k2.held
    exact ⟨a ++ l, by rw [hl, ha]; simp⟩

/-! ### A command that waits -/

theorem tblGet_set_ne {α : Type} [DecidableEq α] (d : α) (t : Tbl α) (k : Nat) (a : α) (h : a ≠ d) : tblGet d (tblSet d t k a) k = a := by
  unfold tblSet tblGet; rw [if_neg h, tblFind_put_same]; rfl

theorem State.ring_onRing_other (s : State) (p r q : Nat) (f : Ring → Ring) (h : tblRising s.parts = true) (hq : q ≠ r) :
    (s.onRing p r f).ring p q = s.ring p q := by
  unfold State.onRing State.ring
  rw [State.part_onPart_same _ _ _ h]
  exact tblGet_set_other _ _ _ _ _ hq

theorem State.ring_onRing_waiting (s : State) (p r : Nat) (f : Ring → Ring) (w : Wait) (h : tblRising s.parts = true)
    (hf : (f (s.ring p r)).wait = some w) : (s.onRing p r f).ring p r = f (s.ring p r) := by
  have hne : f (tblGet {} (s.part p).rings r) ≠ {} := by
    intro e
    have hf' : (f (tblGet {} (s.part p).rings r)).wait = some w := hf
    rw [e] at hf'; simp at hf'
  unfold State.onRing State.ring
  rw [State.part_onPart_same _ _ _ h]
  exact tblGet_set_ne _ _ _ _ hne

theorem State.ring_of_rings (s t : State) (p q : Nat) (h : (t.part p).rings = (s.part p).rings) : t.ring p q = s.ring p q := by
  unfold State.ring; rw [h]

theorem State.rings_onPart (s : State) (p : Nat) (f : Partition → Partition) (h : tblRising s.parts = true)
    (hf : (f (s.part p)).rings = (s.part p).rings) : ((s.onPart p f).part p).rings = (s.part p).rings := by
  rw [State.part_onPart_same _ _ _ h, hf]

theorem State.rings_emit (s : State) (p : Nat) (o : Output) (h : tblRising s.parts = true) (ho : o.port = some p) :
    ((s.emit o).part p).rings = (s.part p).rings := by
  unfold State.emit
  simp only [ho]
  exact State.rings_onPart { s with out := s.out ++ [o] } p _ h rfl

theorem State.rings_startRequest (s : State) (p : Nat) (w : DmaFor) (read a n : Nat) (keep : Bool) (h : tblRising s.parts = true) :
    ((s.startRequest p w read a n keep).part p).rings = (s.part p).rings := by
  rcases s.startRequest_eq p w read a n keep with e | e <;> rw [e]
  · exact State.rings_emit (s.withRequest w read a n keep true) p (.memRead p s.nextId a n) h rfl
  · rfl

theorem State.rings_startRead (s : State) (p : Nat) (w : DmaFor) (a n : Nat) (h : tblRising s.parts = true) :
    ((s.startRead p w a n).part p).rings = (s.part p).rings := by
  unfold State.startRead State.startReads
  generalize ([((a, n), true)].flatMap fun x => (s.requestsFor p x.1.1 x.1.2).map fun y => (y, x.2)) = l
  generalize s.nextId = read
  induction l generalizing s with
  | nil => rfl
  | cons x l ih =>
    refine (ih _ (RingStep.startRequest p s w _ _ _ _ h).rising).trans ?_
    exact State.rings_startRequest s p w _ _ _ _ h

theorem State.rings_writeEntry (s : State) (p r a : Nat) (b : List Byte) (h : tblRising s.parts = true) :
    ((s.writeEntry p r a b).part p).rings = (s.part p).rings := by
  unfold State.writeEntry; split
  · exact State.rings_emit s p _ h rfl
  · exact State.rings_onPart s p _ h rfl

theorem State.rings_signalUnit (s : State) (p k : Nat) (hb : s.bellsPass = true) :
    ((s.signalUnit p k).part p).rings = (s.part p).rings := by
  have := (EvcOnly.signal (2816 + 32 * p + k) s hb).frame
  unfold State.signalUnit
  rw [this]; rfl

theorem State.fetch_ring_other (s : State) (p r q : Nat) (h : tblRising s.parts = true) (hq : q ≠ r) :
    (s.fetch p r).ring p q = s.ring p q := by
  unfold State.fetch
  simp only []
  split
  · rfl
  · have k := RingStep.onRing p r s (fun x => { x with reading := (s.ring p r).fetchable }) h
    rw [← State.ring_onRing_other s p r q (fun x => { x with reading := (s.ring p r).fetchable }) h hq]
    exact State.ring_of_rings _ _ p q (State.rings_startRead _ p _ _ _ k.rising)

theorem State.complete_ring_other (s : State) (p r q : Nat) (x : Reply) (v : Nat) (h : tblRising s.parts = true)
    (hb : s.bellsPass = true) (hr : r < 32) (hq : q ≠ r) : (s.complete p r x v).ring p q = s.ring p q := by
  cases hf : (s.ring p r).fetched with
  | nil => unfold State.complete; simp only [hf]
  | cons c rest =>
    rw [s.complete_eq p r x v c rest hf]
    have k := s.entered_step p r x v c rest h
    have e1 : (s.entered p r x v c rest).ring p q = s.ring p q := by
      have k1 := RingStep.onRing p r s (fun g =>
        { g with fetched := rest, wait := none, descs := [], cqTail := ((s.ring p r).cqTail + 1) % (s.ring p r).cqSize,
                 unreleased := g.unreleased + 1, announced := tblErase g.announced c.index,
                 phase := if ((s.ring p r).cqTail + 1) % (s.ring p r).cqSize = 0 then !g.phase else g.phase }) h
      refine Eq.trans (State.ring_of_rings _ _ p q (State.rings_writeEntry _ p r _ _ k1.rising)) ?_
      exact State.ring_onRing_other s p r q _ h hq
    split
    · have k2 := RingStep.signalUnit p r _ k.rising (k.bells hb) hr
      rw [State.fetch_ring_other _ p r q k2.rising hq, ← e1]
      exact State.ring_of_rings _ _ p q (State.rings_signalUnit _ p r (k.bells hb))
    · rw [State.fetch_ring_other _ p r q k.rising hq, e1]

theorem State.drainUnknown_waiting (p q : Nat) (w : Wait) (n : Nat) (m : State) (h : tblRising m.parts = true)
    (hb : m.bellsPass = true) (hw : (m.ring p q).wait = some w) : ((m.drainUnknown n p).ring p q).wait = some w := by
  induction n generalizing m with
  | zero => exact hw
  | succ n ih =>
    unfold State.drainUnknown
    split
    · exact hw
    · rename_i r hr
      split
      · exact hw
      · split
        · exact hw
        · have hne : q ≠ r := by
            rintro rfl
            have := List.find?_some hr
            have hw' : (tblGet {} (m.part p).rings q).wait = some w := hw
            simp only [Bool.and_eq_true] at this
            rw [hw'] at this
            simp at this
          have k := RingStep.lastRing p r m h
          have hlt := m.nextRing_lt p r hr
          have k2 := k.trans (State.complete_step p r (replyBadParam 0) m.now _ k.rising (k.bells hb) (by omega))
          refine ih _ k2.rising (k2.bells hb) ?_
          rw [State.complete_ring_other _ p r q _ _ k.rising (k.bells hb) (by omega) hne]
          rw [State.ring_of_rings m _ p q (State.rings_onPart m p _ h rfl)]
          exact hw

/-- A finished command that waits: its ring waits for w, and only ring state changes (R153). -/
theorem State.finish_hold (s m : State) (p r : Nat) (w : Wait) (h : tblRising m.parts = true) (hb : m.bellsPass = true) :
    RingOnly p m (s.finish p r (.hold w m)) ∧ ((s.finish p r (.hold w m)).ring p r).wait = some w := by
  have k := RingStep.onRing p r m (fun g => { g with wait := some w, validNs := s.now }) h
  have k2 := State.settleRings_step p _ k.rising (k.bells hb)
  refine ⟨(k.trans k2).only, ?_⟩
  refine State.drainUnknown_waiting p r w _ _ k.rising (k.bells hb) ?_
  rw [State.ring_onRing_waiting m p r _ w h rfl]

/-! ### A ring command at its turn -/

theorem State.session_atRing (s : State) (p r : Nat) (h : tblRising s.parts = true) :
    ((s.atRing p r).part p).session = (s.part p).session := by
  unfold State.atRing; rw [State.part_onPart_same _ _ _ h]

theorem State.rising_atRing (s : State) (p r : Nat) (h : tblRising s.parts = true) : tblRising (s.atRing p r).parts = true :=
  State.rising_onPart s p _ h

theorem State.ring_atRing (s : State) (p r q : Nat) (h : tblRising s.parts = true) : (s.atRing p r).ring p q = s.ring p q :=
  State.ring_of_rings s _ p q (State.rings_onPart s p _ h rfl)

theorem State.turn_fetched (s : State) (p r op : Nat) (e : BitVec 512) (h : s.turn p r op = some e) :
    r < 16 ∧ ∃ c rest, (s.ring p r).fetched = c :: rest ∧ c.entry = e := by
  unfold State.turn at h
  split at h
  · rename_i hc
    simp only [Bool.and_eq_true, beq_iff_eq] at hc
    refine ⟨s.nextRing_lt p r hc.1, ?_⟩
    split at h
    · rename_i c rest hf
      split at h
      · exact ⟨c, rest, hf, by injection h⟩
      · cases h
    · cases h
  · cases h

/-- A ring command at its turn that passes steps 1 and 2 is finished with what its meaning answers. -/
theorem ringCmd_eq (s : State) (p r op : Nat) (ring0 : Bool) (layout : List (Nat × Nat)) (bad : BitVec 512 → List (Bool × Nat))
    (act : State → BitVec 512 → CmdOut) (e : BitVec 512) (h : Ready s p r op e ring0 layout (bad e)) :
    ringCmd s p r op ring0 layout bad act = .next ((s.atRing p r).finish p r (act (s.atRing p r) e)) := by
  obtain ⟨h1, h2, h3, h4, _⟩ := h
  have h5 : firstFail (sessionCheck (s.atRing p r) p r op ring0) = none := by
    rw [← h3]; unfold sessionCheck; rw [State.session_atRing s p r h4.1]
  unfold ringCmd
  simp only [h1, h2]
  show Host.Outcome.next ((s.atRing p r).finish p r (checked (s.atRing p r) (sessionCheck (s.atRing p r) p r op ring0) _)) = _
  unfold checked; rw [h5]; rfl

/-- A ring command whose meaning answers OK completes with that answer and the effect's state. -/
theorem ringCmd_completes (s m : State) (i : Instr) (p r op : Nat) (ring0 : Bool) (layout : List (Nat × Nat))
    (bad : BitVec 512 → List (Bool × Nat)) (act : State → BitVec 512 → CmdOut) (e : BitVec 512) (x : Reply)
    (hi : exec i s = ringCmd s p r op ring0 layout bad act) (h : Ready s p r op e ring0 layout (bad e))
    (ha : act (s.atRing p r) e = .reply x m) (hx : x.status = 0) (hm : tblRising m.parts = true) (hb : m.bellsPass = true)
    (hr : m.ring p r = s.ring p r) :
    Completes p r i x s m := by
  obtain ⟨hlt, c, rest, hf, _⟩ := State.turn_fetched s p r op e h.1
  refine ⟨_, by rw [hi, ringCmd_eq s p r op ring0 layout bad act e h, ha], ?_⟩
  exact State.finish_ok (s.atRing p r) m p r x c rest hm hb (by omega) (by rw [hr]; exact hf) hx

/-- A ring command whose meaning waits holds its ring. -/
theorem ringCmd_holds (s m : State) (i : Instr) (p r op : Nat) (ring0 : Bool) (layout : List (Nat × Nat))
    (bad : BitVec 512 → List (Bool × Nat)) (act : State → BitVec 512 → CmdOut) (e : BitVec 512) (w : Wait)
    (hi : exec i s = ringCmd s p r op ring0 layout bad act) (h : Ready s p r op e ring0 layout (bad e))
    (ha : act (s.atRing p r) e = .hold w m) (hm : tblRising m.parts = true) (hb : m.bellsPass = true) : Holds p r i w s m := by
  refine ⟨_, by rw [hi, ringCmd_eq s p r op ring0 layout bad act e h, ha], ?_⟩
  exact State.finish_hold (s.atRing p r) m p r w hm hb

end Sys2Proof.Machine
end

