-- ==== Sys2Proof/Tests/Slice0.lean ====
section
/-! SUPPORT. Own tests: what WellFormed refuses, single steps with results from the spec, and for each statement states and operands that
meet its hypotheses. -/

namespace Sys2Proof.Tests

open Sys2Proof Sys2Proof.Machine

set_option Elab.async false

/-! ### Small states -/

/-- A submission entry: opcode, OBJECT and further fields as (byte offset, value). -/
def entry (op obj : Nat) (fields : List (Nat × Nat)) : BitVec 512 :=
  BitVec.ofNat 512 (fields.foldl (fun a f => a + f.2 * 2 ^ (8 * f.1)) (op + obj * 2 ^ 64))

/-- A running unit at 5 s of unit time. -/
def up : State :=
  { State.reset with boot := { State.reset.boot with phase := .running }, tb := { tick := 500000000, acc := 5000000000 * 4294967296 } }

/-- A partition in D0 with memory space and bus master enable, its session OPEN at level 2. -/
def openPart : Partition := { ready := true, linkUp := true, mse := true, bme := true, session := .opened, level := 2 }

/-- The running unit with one partition, 0. -/
def withPart (x : Partition) : State := { up with parts := [(0, x)] }

/-- An ACTIVE ring whose oldest fetched command is e. -/
def ringWith (e : BitVec 512) : Ring := { state := .active, fetched := [{ index := 0, entry := e }] }

/-- Ring 0 of an open partition 0 holds the command e. -/
def cmd (e : BitVec 512) : State := withPart { openPart with rings := [(0, ringWith e)] }

/-- The same with partition 0 as f gives it. -/
def cmdOn (e : BitVec 512) (f : Partition → Partition) : State := withPart { f openPart with rings := [(0, ringWith e)] }

/-- A recorded drop of 64 × 32 pixels with three channels at Colant-1 rate. -/
def panel : Descriptor :=
  { ident := 0x4444, model := 1, caps := 0x8000, width := 64, height := 32, mode := 0x4000, status := 0, attnCause := 0, attnEn := 0, qdelay := 0,
    keepalive := 0 }

/-- An ACTIVE drop with that record. -/
def active : Drop := { state := .active, desc := some panel, depth := 8, delay := some 100 }

/-! ### What WellFormed refuses (one ill-formed command for each check) -/

theorem test_write_without_data : Instr.wellFormed (.hostWrite 0 0 [] 15 0) = false := by decide
theorem test_write_of_516_bytes : Instr.wellFormed (.hostWrite 0 0 (List.replicate 129 0) 15 15) = false := by decide +kernel
theorem test_write_of_512_bytes : Instr.wellFormed (.hostWrite 0 0 (List.replicate 128 0) 15 15) = true := by decide +kernel
theorem test_one_dword_with_last_enables : Instr.wellFormed (.hostWrite 0 0 [1] 15 1) = false := by decide
theorem test_two_dwords_without_last_enables : Instr.wellFormed (.hostWrite 0 0 [1, 2] 15 0) = false := by decide
theorem test_read_of_nothing : Instr.wellFormed (.hostRead 0 0 0 15 15 0) = false := by decide
theorem test_read_of_4100_bytes : Instr.wellFormed (.hostRead 0 0 1025 15 15 0) = false := by decide
theorem test_zero_length_read_has_its_own_row : Instr.wellFormed (.hostRead 0 0 1 0 0 0) = false := by decide
theorem test_fetch_add_of_16_bytes : Instr.wellFormed (.atomicOp 0 .bar2 0 .fetchAdd 16 0 0 0) = false := by decide
theorem test_misaligned_atomic : Instr.wellFormed (.atomicOp 0 .bar2 4 .swap 8 0 0 0) = false := by decide
theorem test_compare_and_swap_of_16_bytes : Instr.wellFormed (.atomicOp 0 .bar2 16 .cas 16 0 0 0) = true := by decide
theorem test_completion_without_data : Instr.wellFormed (.dmaReadCompletion 0 (.data [])) = false := by decide
theorem test_guest_completion_too_long : Instr.wellFormed (.guestReadCompletion 0 (.data (List.replicate 129 0))) = false := by decide +kernel
theorem test_register_write_without_data :
    Instr.wellFormed (.registerWrite (.core 0) { isRead := false, addr := 0, data := [], firstBE := 15, lastBE := 0 }) = false := by decide
theorem test_register_outside_bar0 :
    Instr.wellFormed (.registerWrite (.host 0) { isRead := false, addr := 65536, data := [1], firstBE := 15, lastBE := 0 }) = false := by decide
theorem test_misaligned_register :
    Instr.wellFormed (.registerWrite (.host 0) { isRead := false, addr := 2, data := [1], firstBE := 15, lastBE := 0 }) = false := by decide
theorem test_answer_without_words : Instr.wellFormed (.colantResponse 0 { sinceNs := 0, words := [] }) = false := by decide
theorem test_guest_command_without_words : Instr.wellFormed (.guestCommand 0 []) = false := by decide
theorem test_service_access_of_65_words :
    Instr.wellFormed (.segAccess 0 { isWrite := false, addr := 0, len := 65, data := [] }) = false := by decide
theorem test_service_write_short_of_data :
    Instr.wellFormed (.segAccess 0 { isWrite := true, addr := 0, len := 2, data := [1] }) = false := by decide
theorem test_page_short_of_pixels :
    Instr.wellFormed (.pageWrite 0 { format := 1, colour := 0, width := 2, height := 2, pixels := [0, 0, 0] }) = false := by decide
theorem test_page_of_unknown_format :
    Instr.wellFormed (.pageWrite 0 { format := 3, colour := 0, width := 1, height := 1, pixels := [0] }) = false := by decide
theorem test_five_power_classes : Instr.wellFormed (.powerGrantPeriod [1, 2, 3, 4, 5] [0, 0, 0, 0, 0, 0]) = false := by decide

/-- The answers of a drop that does not answer. -/
def silent : Discovery := { attempts := [], turnaroundNs := none, telemetry := [], nego := { level := [], measures := [], wafer := [] } }

theorem test_enumeration_out_of_order :
    Instr.wellFormed (.segmentEnumeration 0 [{ number := 3, answers := silent }, { number := 2, answers := silent }]) = false := by decide
theorem test_enumeration_twice_the_same :
    Instr.wellFormed (.segmentEnumeration 0 [{ number := 3, answers := silent }, { number := 3, answers := silent }]) = false := by decide
theorem test_negotiation_of_17_measures :
    Instr.wellFormed (.negotiation 0 { silent.nego with measures := List.replicate 17 [] }) = false := by decide

/-! ### Ring commands: states whose oldest command meets its statement's conditions -/

/-- Ring 0 of partition 0 waits at w with command e oldest. -/
def waitR (e : BitVec 512) (w : Wait) (f : Ring → Ring := id) : State := withPart { openPart with rings := [(0, f { ringWith e with wait := some w })] }

def eOpen : BitVec 512 := entry 1 0 [(0x10, 0), (0x11, 1), (0x12, 1), (0x14, 100)]
def eHand : BitVec 512 := entry 3 0 [(0x10, 5002000000)]
def sOpen : State := cmdOn eOpen fun x => { x with session := .closed, level := 0 }
def sHand : State := cmdOn eHand fun x => { x with session := .lapsed }

theorem witness_SessionsOpenCloseAndHandBack :
    (Ready sOpen 0 0 0x01 eOpen true openLayout (openChecks eOpen) ∧ (sOpen.part 0).session = .closed ∧ entryField eOpen 0x10 0 8 ≤ 2 ∧
      1 ≤ entryField eOpen 0x11 0 8) ∧
    (Ready (cmd (entry 2 0 [])) 0 0 0x02 (entry 2 0 []) true [] [objectCheck (entry 2 0 []) 0 0] ∧ ((cmd (entry 2 0 [])).part 0).restoring = false) ∧
    (Ready sHand 0 0 0x03 eHand true [(bitPos 0x10 0, 64)] [objectCheck eHand 0 0] ∧ (sHand.part 0).session = .lapsed ∧
      sHand.now + 2000000 = entryField eHand 0x10 0 64) := by
  repeat' apply And.intro
  all_goals decide +kernel

def eRing : BitVec 512 := entry 4 15 [(0x10, 0x1000), (0x18, 0x2000), (0x20, 4), (0x21, 4)]
/-- Ring 1 stands with two fetches of it outstanding, one of them another ring's. -/
def sDelete : State :=
  { withPart { openPart with rings := [(0, ringWith (entry 5 1 [])), (1, { state := .active })] } with
    dma := [{ id := 3, purpose := .fetch 0 1 0 1, addr := 0, len := 64, sent := true },
            { id := 4, purpose := .fetch 0 2 0 1, addr := 0, len := 64, sent := true }] }

theorem witness_RingsAreCreatedAndDeleted :
    (Ready (cmd eRing) 0 0 0x04 eRing true ringLayout (ringChecks eRing) ∧ ((cmd eRing).ring 0 (entryObject eRing)).state = .absent) ∧
    (Ready sDelete 0 0 0x05 (entry 5 1 []) true [] [objectCheck (entry 5 1 []) 1 15] ∧ (sDelete.ring 0 1).state ≠ .absent ∧
      (sDelete.ring 0 1).fetched = [] ∧ sDelete.heldOn 0 1 = 0 ∧ tblRising (sDelete.part 0).rings = true) := by
  repeat' apply And.intro
  all_goals decide +kernel

/-- A stream of partition 0 with index 3 on codec core 0, IDLE. -/
def str : Stream :=
  { part := 0, index := 3, codec := 2, profile := 1, level := 120, flags := 0, maxW := 1920, maxH := 1080, maxFps := 60000, dpb := 4, outFrames := 4,
    depth := 8, op := 0, inBuf := 65536, frameDur := 16666666, colourDefault := 0, alloc := 65536, q := 1000, firstCore := 0, cores := 1,
    coreList := [0] }
def unit1 : AccessUnit :=
  { bytes := 100, data := List.replicate 100 5, pts := 5100000000, discontinuity := false, endOfStream := false, readFailed := false, doneNs := 0 }
/-- The same running, with one access unit in its buffer. -/
def strRun : Stream := { str with state := .running, inUsed := 100, queue := [unit1], needRap := false }
/-- Ring 0 holds the command e and unit slot 5 the stream x. -/
def strCmd (e : BitVec 512) (x : Stream) : State := { cmd e with streams := [(5, x)] }

def eStream : BitVec 512 :=
  entry 0x10 3 [(0x10, 1), (0x11, 1), (0x12, 40), (0x14, 1280), (0x16, 720), (0x18, 25000), (0x1C, 4), (0x1D, 4), (0x1E, 8), (0x20, 65536),
    (0x24, 16666666)]
def sStream : State := { cmd eStream with plant := { up.plant with pool := 4000 } }

theorem witness_StreamsAreCreatedStartedAndEnded :
    (let u := sStream.atRing 0 0
     let x := { newStream 0 eStream with coreList := [0], firstCore := 0, cores := 1, firstUid := sStream.nextId }
     Ready sStream 0 0 0x10 eStream false streamLayout (streamChecks eStream) ∧ sStream.slotOf 0 (entryObject eStream) = none ∧
     sStream.freeSlot = some 0 ∧ u.fits x.alloc = true ∧ u.indexHeld 0 (entryObject eStream) = false ∧
     u.place x.q x.lowDelay = some [0] ∧ firstFail ((u.makeStream 0 x).admitStream 0) = none) ∧
    (let s := strCmd (entry 0x11 3 []) str
     s.slotOf 0 3 = some 5 ∧ s.stream 5 = some str ∧ Ready s 0 0 0x11 (entry 0x11 3 []) false [] (streamObject (entry 0x11 3 [])) ∧ str.state = .idle) ∧
    (let s := strCmd (entry 0x13 3 []) strRun
     s.slotOf 0 3 = some 5 ∧ s.stream 5 = some strRun ∧ Ready s 0 0 0x13 (entry 0x13 3 []) false [] (streamObject (entry 0x13 3 [])) ∧
       strRun.state = .running) ∧
    (let s := strCmd (entry 0x14 3 []) str
     s.slotOf 0 3 = some 5 ∧ s.stream 5 = some str ∧ Ready s 0 0 0x14 (entry 0x14 3 []) false [] (streamObject (entry 0x14 3 []))) := by
  repeat' apply And.intro
  all_goals decide +kernel

/-- An inline feed of 100 bytes; the stream with exactly 100 and with 36 bytes free. -/
def eFeed : BitVec 512 := entry 0x12 3 [(0x10, 6000000000), (0x18, 1), (0x20, 0x1000), (0x28, 100)]
def sFeed : State := strCmd eFeed { strRun with inUsed := 65436 }
def sFeedFull : State := strCmd eFeed { strRun with inUsed := 65500 }
/-- The same feed with its descriptor in a list, and the list of one descriptor of 100 bytes as its read brings it. -/
def eFeedList : BitVec 512 := entry 0x12 3 [(0x10, 6000000000), (0x18, 1), (0x19, 1), (0x20, 0x1000)]
def listBytes : List Byte := [0, 0x10, 0, 0, 0, 0, 0, 0, 100, 0, 0, 0, 0, 0, 0, 0]
def sFeedList : State := strCmd eFeedList strRun
def sListRead (x : Stream) : State := { waitR eFeedList (.reads [] [(7, listBytes)] false) with streams := [(5, x)] }
def sFeedSpace : State := { waitR eFeed (.feedSpace 5 100) (fun g => { g with descs := [(0x1000, 100)] }) with streams := [(5, strRun)] }
def sFeedRead : State :=
  { waitR eFeed (.reads [] [(7, List.replicate 100 5)] false) (fun g => { g with descs := [(0x1000, 100)] }) with streams := [(5, strRun)] }
/-- An image of 8 × 4 pixels and a write of 2 lines of 8 into it. -/
def img : HostImage := { format := 1, colour := 0, width := 8, height := 4, visible := List.replicate 32 0, pending := none, completed := false, uid := 9 }
def eWrite : BitVec 512 := entry 0x29 7 [(0x10, 0x100), (0x18, 32), (0x20, 8), (0x22, 2)]
def sImgRead : State :=
  withPart { openPart with images := [(7, img)],
                           rings := [(0, { ringWith eWrite with wait := some (.reads [] [(7, List.replicate 32 5), (8, List.replicate 32 6)] false) })] }

theorem witness_FeedsAndCommandReads :
    (Ready sFeed 0 0 0x12 eFeed false (feedLayout eFeed) (feedChecks sFeed 0 eFeed) ∧ feedIndirect eFeed = false ∧ sFeed.slotOf 0 3 = some 5 ∧
      sFeed.stream 5 = some { strRun with inUsed := 65436 } ∧ descBytes (feedDescs eFeed) = 65536 - 65436 ∧ (sFeed.part 0).dmaOk = true) ∧
    (Ready sFeedFull 0 0 0x12 eFeed false (feedLayout eFeed) (feedChecks sFeedFull 0 eFeed) ∧ 65536 - 65500 < descBytes (feedDescs eFeed) ∧
      sFeedFull.stream 5 = some { strRun with inUsed := 65500 }) ∧
    (Ready sFeedList 0 0 0x12 eFeedList false (feedLayout eFeedList) (feedChecks sFeedList 0 eFeedList) ∧ feedIndirect eFeedList = true ∧
      sFeedList.slotOf 0 3 = some 5 ∧ sFeedList.stream 5 = some strRun ∧ (sFeedList.part 0).dmaOk = true) ∧
    (∀ x ∈ [strRun, { strRun with inUsed := 65500 }],
      (sListRead x).Rising ∧ ((sListRead x).ring 0 0).wait = some (.reads [] [(7, listBytes)] false) ∧ (sListRead x).interprets 0 = true ∧
      ((sListRead x).ring 0 0).fetched = [{ index := 0, entry := eFeedList }] ∧ entryOpcode eFeedList = 0x12 ∧ (sListRead x).slotOf 0 3 = some 5 ∧
      (sListRead x).stream 5 = some x ∧ ((sListRead x).ring 0 0).descs = [] ∧ listDescs (gotBytes [(7, listBytes)]) (feedCount eFeedList) = some [(0x1000, 100)] ∧
      x.state = .running ∧ ((sListRead x).part 0).dmaOk = true) ∧
    descBytes [(0x1000, 100)] ≤ 65536 - 100 ∧ 65536 - 65500 < descBytes [(0x1000, 100)] ∧
    (sFeedSpace.Rising ∧ (sFeedSpace.ring 0 0).wait = some (.feedSpace 5 100) ∧ sFeedSpace.stream 5 = some strRun ∧ 100 ≤ strRun.inBuf - strRun.inUsed ∧
      (sFeedSpace.part 0).dmaOk = true) ∧
    (sFeedRead.Rising ∧ (sFeedRead.ring 0 0).wait = some (.reads [] [(7, List.replicate 100 5)] false) ∧
      (sFeedRead.ring 0 0).fetched = [{ index := 0, entry := eFeed }] ∧ entryOpcode eFeed = 0x12 ∧ sFeedRead.slotOf 0 (entryObject eFeed) = some 5 ∧
      sFeedRead.stream 5 = some strRun ∧ (sFeedRead.ring 0 0).descs ≠ []) ∧
    (sImgRead.Rising ∧ (sImgRead.ring 0 0).wait = some (.reads [] [(7, List.replicate 32 5), (8, List.replicate 32 6)] false) ∧
      (sImgRead.ring 0 0).fetched = [{ index := 0, entry := eWrite }] ∧ entryOpcode eWrite = 0x29 ∧
      (sImgRead.composeFirst 0).image 0 (entryObject eWrite) = some img) := by
  repeat' apply And.intro
  all_goals first
    | decide +kernel
    | (unfold State.Rising; decide +kernel)

/-- Partition 0 holds stream 5 and drop 0 and asks e. -/
def ask (e : BitVec 512) : State := { cmd e with streams := [(5, strRun)], drops := [(0, active)] }
def eAsk (op obj clear : Nat) : BitVec 512 := entry op obj [(0x10, 0x40), (0x18, clear)]

theorem witness_QueriesWriteRecordsOf64Bytes :
    Ready (ask (eAsk 6 0 0)) 0 0 0x06 (eAsk 6 0 0) false addrLayout [objectCheck (eAsk 6 0 0) 0 0, recordCheck (eAsk 6 0 0)] ∧
    (let s := ask (eAsk 0x15 3 1)
     Ready s 0 0 0x15 (eAsk 0x15 3 1) false [(bitPos 0x10 0, 64), (bitPos 0x18 0, 1)] [objectCheck (eAsk 0x15 3 1) 0 255, recordCheck (eAsk 0x15 3 1)] ∧
     s.slotOf 0 3 = some 5 ∧ s.stream 5 = some strRun) ∧
    (let s := ask (eAsk 0x32 0 1)
     Ready s 0 0 0x32 (eAsk 0x32 0 1) false [(bitPos 0x10 0, 64), (bitPos 0x18 0, 1)] [objectCheck (eAsk 0x32 0 1) 0 2047, recordCheck (eAsk 0x32 0 1)] ∧
     s.owns 0 0 = true ∧ (s.drop 0).restoring = false ∧
     (let s := { s with drops := [(0, { active with state := .retired, restoring := true })] }
      Ready s 0 0 0x32 (eAsk 0x32 0 1) false [(bitPos 0x10 0, 64), (bitPos 0x18 0, 1)] [objectCheck (eAsk 0x32 0 1) 0 2047, recordCheck (eAsk 0x32 0 1)] ∧
      s.owns 0 0 = true ∧ (s.drop 0).restoring = true)) ∧
    Ready (ask (eAsk 0x6A 0 1)) 0 0 0x6A (eAsk 0x6A 0 1) false [(bitPos 0x10 0, 64), (bitPos 0x18 0, 1)]
      [objectCheck (eAsk 0x6A 0 1) 0 0, recordCheck (eAsk 0x6A 0 1)] := by
  repeat' apply And.intro
  all_goals decide +kernel

def sDropAsk : State := { cmd (entry 0x20 0 []) with drops := [(0, { active with latched := 5 })] }
def sRestore : State := { cmd (entry 0x21 0 []) with drops := [(0, { active with state := .retired })] }
def sRestoring : State :=
  { waitR (entry 0x21 0 []) (.restore 0) with
    segs := [(0, { clk := true, enumerated := true })], drops := [(0, { active with state := .retired, restoring := true })] }

theorem witness_DropsAreQueriedAndRestored :
    (Ready sDropAsk 0 0 0x20 (entry 0x20 0 []) false [] (dropObject (entry 0x20 0 [])) ∧ sDropAsk.owns 0 0 = true ∧ sDropAsk.dropState 0 ≠ .absent ∧
      (sDropAsk.drop 0).desc = some panel) ∧
    (Ready sRestore 0 0 0x21 (entry 0x21 0 []) false [] (dropObject (entry 0x21 0 [])) ∧ sRestore.owns 0 0 = true ∧ (sRestore.drop 0).state = .retired ∧
      (sRestore.seg 0).retired = false ∧ (sRestore.drop 0).restoring = false) ∧
    ((sRestoring.ring 0 0).wait = some (.restore 0) ∧ (sRestoring.seg 0).retired = false ∧
      sRestoring.quietOver 0 = true ∧ (sRestoring.beginExchange 0 (sRestoring.discoverCost 0 silent)).isSome = true) ∧
    (let s : State := { sRestoring with segs := [(0, { enumerated := true })] }
     (s.seg 0).retired = false ∧ (s.beginExchange 0 (s.discoverCost 0 silent)).isNone = true) ∧
    (({ sRestoring with segs := [(0, { retired := true })] } : State).seg 0).retired = true := by
  repeat' apply And.intro
  all_goals decide +kernel

def eImage : BitVec 512 := entry 0x28 7 [(0x10, 1), (0x14, 16), (0x16, 8)]
/-- Partition 0 holds image 7 and commands e. -/
def imgCmd (e : BitVec 512) : State := cmdOn e fun p => { p with images := [(7, img)] }

theorem witness_ImagesAreCreatedWrittenAndDestroyed :
    (Ready (cmd eImage) 0 0 0x28 eImage false imageCreateLayout (imageCreateChecks eImage) ∧ (cmd eImage).image 0 7 = none ∧
      ((cmd eImage).atRing 0 0).fits (imageAlloc 16 8) = true) ∧
    (Ready (imgCmd eWrite) 0 0 0x29 eWrite false imageWriteLayout (imageWriteChecks (imgCmd eWrite) 0 eWrite) ∧ ((imgCmd eWrite).image 0 7).isSome ∧
      ((imgCmd eWrite).part 0).dmaOk = true) ∧
    (let s := imgCmd (entry 0x2A 7 [])
     Ready s 0 0 0x2A (entry 0x2A 7 []) false [] [objectCheck (entry 0x2A 7 []) 0 1023] ∧ (s.image 0 7).isSome ∧
     ((s.atRing 0 0).composeFirst 0).image 0 7 = some img) := by
  repeat' apply And.intro
  all_goals decide +kernel

def canvas : Canvas := { part := 0, width := 64, height := 32, members := [(0, 0, 0)] }
def eLayer (c : Nat) : BitVec 512 := entry 0x30 0 [(0x12, 3), (0x13, c), (0x16, 4096), (0x28, 64), (0x2A, 32), (0x2C, 100)]
def eSurface (c : Nat) : BitVec 512 := entry 0x31 0 [(0x10, 0xF), (0x11, 3), (0x14, 10), (0x15, c)]
/-- Drop 0 is active with power to spare. -/
def lit (e : BitVec 512) : State := { cmd e with drops := [(0, active)], plant := { up.plant with pool := 4000 } }
/-- The same with drop 0 on canvas 0. -/
def litCanvas (e : BitVec 512) : State := { lit e with drops := [(0, { active with canvas := some 0 })], canvases := [(0, canvas)] }

theorem witness_LayersAndSurfacesAreSet :
    (let s := litCanvas (eLayer 1)
     let u := (s.atRing 0 0).composeFirst 0
     u.canvasOf 0 0 = some canvas ∧ Ready s 0 0 0x30 (eLayer 1) false layerLayout (layerChecks (eLayer 1)) ∧ entryField (eLayer 1) 0x13 0 1 = 1 ∧
     u.sourceOwned 0 (layerPage (eLayer 1)) = true ∧
     firstFail ((u.onCanvas 0 fun c => { c with
         surface := c.surface.setPage (entryField (eLayer 1) 0x10 0 8) (entryField (eLayer 1) 0x11 0 8) (layerPage (eLayer 1)) }).admitCompose 0 0)
       = none) ∧
    (let s := litCanvas (eSurface 1)
     ((s.atRing 0 0).composeFirst 0).canvasOf 0 0 = some canvas ∧ Ready s 0 0 0x31 (eSurface 1) false surfaceLayout [targetCheck (eSurface 1) true] ∧
     entryField (eSurface 1) 0x15 0 1 = 1) ∧
    (let s := lit (eLayer 0)
     let u := (s.atRing 0 0).composeFirst 0
     s.owns 0 0 = true ∧ s.dropState 0 = .active ∧ Ready s 0 0 0x30 (eLayer 0) false layerLayout (layerChecks (eLayer 0)) ∧
     entryField (eLayer 0) 0x13 0 1 = 0 ∧ u.sourceOwned 0 (layerPage (eLayer 0)) = true ∧
     firstFail ((u.onSurf 0 fun f => f.setPage (entryField (eLayer 0) 0x10 0 8) (entryField (eLayer 0) 0x11 0 8) (layerPage (eLayer 0))).admitCompose 0 0)
       = none) ∧
    (let s := lit (eSurface 0)
     s.owns 0 0 = true ∧ s.dropState 0 = .active ∧ Ready s 0 0 0x31 (eSurface 0) false surfaceLayout [targetCheck (eSurface 0) false] ∧
     entryField (eSurface 0) 0x15 0 1 = 0) := by
  repeat' apply And.intro
  all_goals decide +kernel

def eCanvas : BitVec 512 := entry 0x33 1 [(0x10, 64), (0x12, 32), (0x14, 1), (0x18, 0x40)]
def eGates : BitVec 512 := entry 0x58 2 [(0x10, 1000000), (0x18, 0x40)]
def sCanvasEnd : State := { cmd (entry 0x34 1 []) with canvases := [(1, canvas)], drops := [(0, { active with canvas := some 1 })] }
def memberRead : List (Nat × List Byte) := [(0, [0, 0, 0, 0, 0, 0, 0, 0])]
def groupRead : List (Nat × List Byte) := [(0, 1 :: List.replicate 255 0)]
def sMembers : State := { waitR eCanvas (.reads [] memberRead false) with drops := [(0, active)], plant := { up.plant with pool := 4000 } }
def sGroup : State := waitR eGates (.reads [] groupRead false)

theorem witness_CanvasesAndGateListsAreCreated :
    ((cmd eCanvas).Rising ∧ (cmd eCanvas).bellsPass = true ∧ (cmd eCanvas).turn 0 0 0x33 = some eCanvas ∧ canvasReadable eCanvas = true ∧ ((cmd eCanvas).part 0).dmaOk = true) ∧
    ((cmd eGates).Rising ∧ (cmd eGates).bellsPass = true ∧ (cmd eGates).turn 0 0 0x58 = some eGates ∧ entryField eGates 0x18 0 3 = 0) ∧
    (Ready sCanvasEnd 0 0 0x34 (entry 0x34 1 []) false [] [objectCheck (entry 0x34 1 []) 0 63] ∧ sCanvasEnd.canvasOf 0 1 = some canvas) ∧
    (sMembers.Rising ∧ sMembers.bellsPass = true ∧ (sMembers.ring 0 0).wait = some (.reads [] memberRead false) ∧ (sMembers.ring 0 0).fetched = [{ index := 0, entry := eCanvas }] ∧
      (sMembers.part 0).session ≠ .closed ∧ sMembers.canvasOf 0 1 = none ∧ tblFind sMembers.canvases 1 = none ∧
      memberTable (gotBytes memberRead) 1 = ([(0, 0, 0)], true) ∧ sMembers.membersBad 64 32 [(0, 0, 0)] = false ∧
      badField canvasLayout (canvasChecks eCanvas) eCanvas = none ∧ sMembers.owns 0 0 = true ∧ sMembers.dropState 0 = .active ∧
      (sMembers.drop 0).canvas = none ∧
      firstFail (({ sMembers.composeFirst 0 with canvases := [(1, canvas)] } : State).onDrop 0 (fun d => { d with canvas := some 1 })
        |>.admitCompose 0 0) = none) ∧
    (sGroup.Rising ∧ (sGroup.ring 0 0).wait = some (.reads [] groupRead false) ∧ (sGroup.ring 0 0).fetched = [{ index := 0, entry := eGates }] ∧
      sGroup.gate 2 = none ∧ badField gateCreateLayout (gateObject eGates) eGates = none ∧ 1000000 = entryField eGates 0x10 0 64 ∧
      groupMap (gotBytes groupRead) = [0] ∧ sGroup.owns 0 0 = true) := by
  repeat' apply And.intro
  all_goals decide +kernel

/-- A host window of 4 KiB at BAR2 byte 0, DISABLED. -/
def win : Window := { state := .disabled, isSet := true, haddr := 0, sizeLog2 := 12 }
def eWin : BitVec 512 := entry 0x41 4 [(0x10, 0x1000), (0x18, 12 * 2 ^ 24), (0x1C, 0)]
/-- Partition 0 has windows l and commands e. -/
def wins (l : Tbl Window) (e : BitVec 512) : State := { cmdOn e fun p => { p with bridge := { p.bridge with windows := l } } with drops := [(0, active)] }
/-- A posted write of one word through window 4 to drop 0. -/
def item : Item :=
  { id := 9, arrival := 499000000,
    cmds := [{ op := .wr, window := 4, seg := 0, drop := 0, swap := 0, addr := 0, len := 1, data := [1], halves := [], fill := false }],
    issued := false, retries := 0, read := none, atomic := none, epoch := 0, windows := [4] }
def sDisable : State := wins [(4, { win with state := .enabled })] (entry 0x43 4 [])
def sDisableBusy : State := { sDisable with parts := [(0, { sDisable.part 0 with bridge := { (sDisable.part 0).bridge with items := [item] } })] }
def sEnableClash : State := wins [(3, { win with state := .enabled }), (4, win)] (entry 0x42 4 [])

theorem witness_WindowsAreSetAndNeverOverlap :
    (let s := cmd (entry 0x40 4 [])
     Ready s 0 0 0x40 (entry 0x40 4 []) false [(bitPos 0x10 0, 1)] (windowObject (entry 0x40 4 [])) ∧ s.win 0 4 = none ∧ s.windowBusy 0 4 = false) ∧
    (let s := wins [(4, {})] eWin
     Ready s 0 0 0x41 eWin false windowLayout (windowChecks s 0 eWin) ∧ s.win 0 4 = some {} ∧ ({} : Window).state = .disabled ∧
     s.owns 0 (winDrop eWin) = true ∧ s.dropState (winDrop eWin) = .active) ∧
    (let s := wins [(3, { win with haddr := 4096, state := .enabled }), (4, win)] (entry 0x42 4 [])
     Ready s 0 0 0x42 (entry 0x42 4 []) false [] (windowObject (entry 0x42 4 [])) ∧ s.win 0 4 = some win ∧
     ((s.bridge 0).windows.find? fun x => x.1 != 4 && x.2.state != .disabled && x.2.overlaps win) = none) ∧
    (Ready sDisable 0 0 0x43 (entry 0x43 4 []) false [] (windowObject (entry 0x43 4 [])) ∧ sDisable.win 0 4 = some { win with state := .enabled } ∧
      (((sDisable.atRing 0 0).invalidate 0 4).onWin 0 4 fun w => { w with state := .draining }).windowBusy 0 4 = false) ∧
    (Ready sDisableBusy 0 0 0x43 (entry 0x43 4 []) false [] (windowObject (entry 0x43 4 [])) ∧
      sDisableBusy.win 0 4 = some { win with state := .enabled } ∧
      (((sDisableBusy.atRing 0 0).invalidate 0 4).onWin 0 4 fun w => { w with state := .draining }).windowBusy 0 4 = true) ∧
    (let s := wins [(4, win)] (entry 0x44 4 [])
     Ready s 0 0 0x44 (entry 0x44 4 []) false [] (windowObject (entry 0x44 4 [])) ∧ s.win 0 4 = some win) ∧
    (Ready sEnableClash 0 0 0x42 (entry 0x42 4 []) false [] (windowObject (entry 0x42 4 [])) ∧ sEnableClash.win 0 4 = some win ∧
      ((sEnableClash.bridge 0).windows.find? fun x => x.1 != 4 && x.2.state != .disabled && x.2.overlaps win) =
        some (3, { win with state := .enabled })) := by
  repeat' apply And.intro
  all_goals decide +kernel

def eFence : BitVec 512 := entry 0x45 0 []
def sFence : State := cmdOn eFence fun p => { p with bridge := { p.bridge with fenceSeqs := [3, 4] } }
def sFenceBusy : State := { cmdOn eFence fun p => { p with bridge := { p.bridge with items := [item] } } with nextId := 10 }

theorem witness_FencesAndDrainsWait :
    (Ready sFence 0 0 0x45 eFence false [] [objectCheck eFence 0 0] ∧ sFence.postedBefore 0 sFence.nextId = []) ∧
    (Ready sFenceBusy 0 0 0x45 eFence false [] [objectCheck eFence 0 0] ∧
      sFenceBusy.postedBefore 0 (tblGet sFenceBusy.nextId (sFenceBusy.ring 0 0).announced 0) ≠ []) ∧
    ((waitR (entry 0x43 4 []) (.drain 4)).ring 0 0).wait = some (.drain 4) ∧ ((waitR eFence (.fence [9])).ring 0 0).wait = some (.fence [9]) := by
  repeat' apply And.intro
  all_goals decide +kernel

/-- A calendar entry's first word: kind k on drop 0, part 0, START 1,100, LEN 200, ring entry 0. -/
def calW (kind : Nat) : Nat := 200 * 2 ^ 41 + 1100 * 2 ^ 21 + kind * 2 ^ 13
def eCal : BitVec 512 := entry 0x50 0 [(0x10, 5), (0x18, calW 1)]
def sCal : State := { cmd eCal with drops := [(0, active)] }
/-- Segment 0 with a staged change of partition 0. -/
def segStaged : Segment := { clk := true, enumerated := true, staged := [(0, { state := .staged, changes := [(5, BitVec.ofNat 64 (calW 1))] })] }
def staged (e : BitVec 512) : State := { cmd e with drops := [(0, active)], segs := [(0, segStaged)], plant := { up.plant with pool := 4000 } }
def eCommit : BitVec 512 := entry 0x52 0 []

theorem witness_CalendarChangesAreStagedAndCommitted :
    (Ready sCal 0 0 0x50 eCal false calLayout (calChecks sCal 0 eCal) ∧ (entrySlot 5 (calEntry eCal)).kind ≠ 4 ∧ (entrySlot 5 (calEntry eCal)).kind ≠ 3 ∧
      sCal.owns 0 (entrySlot 5 (calEntry eCal)).drop = true ∧ ((sCal.atRing 0 0).settleCal 0).heldByOther 0 0 5 = false ∧ (sCal.seg 0).retired = false ∧
      sCal.dropState 0 ≠ .retired ∧ (((sCal.atRing 0 0).settleCal 0).staged 0 0).state ≠ .pending) ∧
    (let s : State := { sCal with segs := [(0, { segStaged with staged := [(0, { state := .pending, changes := [(6, BitVec.ofNat 64 (calW 1))], due := 4999999999 })] })] }
     (s.staged 0 0).state = .pending ∧ (((s.atRing 0 0).settleCal 0).staged 0 0).state ≠ .pending) ∧
    (Ready (staged (entry 0x51 0 [])) 0 0 0x51 (entry 0x51 0 []) false [] [objectCheck (entry 0x51 0 []) 0 63] ∧
      ((((staged (entry 0x51 0 [])).atRing 0 0).settleCal 0).staged 0 0).state = .staged) ∧
    (let s := staged eCommit
     let u := (s.atRing 0 0).settleCal 0
     let c := u.commitCal 0 0 (u.swapInstant 0)
     Ready s 0 0 0x52 eCommit false [] [objectCheck eCommit 0 63] ∧ (s.seg 0).retired = false ∧
     ((u.staged 0 0).changes.any fun w => (entrySlot w.1 w.2).kind != 0 && s.dropState (entrySlot w.1 w.2).drop == .retired) = false ∧
     (u.staged 0 0).state = .staged ∧
     firstFail (c.wordsSteps 0 ++ c.admitCalendar 0 0 (slotsOf ((c.seg 0).calendarAt (c.seg 0).lastDue).1)) = none) := by
  repeat' apply And.intro
  all_goals decide +kernel

def gates0 : GateList :=
  { part := 0, cycle := 1000000, group := [0],
    entries := [(0, { offset := 0, action := 1, target := 0, value := 1 }), (1, { offset := 500, action := 2, target := 0, value := 1 })] }
def eGate : BitVec 512 := entry 0x59 2 [(0x10, 0), (0x11, 1), (0x20, 5), (0x28, 1), (0x2A, 3)]
def eStart : BitVec 512 := entry 0x5A 2 [(0x10, 5002000000)]
def listCmd (e : BitVec 512) (g : GateList) : State := { cmd e with gates := [(2, g)] }
def listOn (g : GateList) : State := { withPart { openPart with gateSel := 0 } with gates := [(0, g)] }

theorem witness_GateListsAreCommandedAndRun :
    (Ready (listCmd eGate gates0) 0 0 0x59 eGate false (gateWriteLayout eGate) (gateWriteChecks (listCmd eGate gates0) 0 eGate) ∧
      (listCmd eGate gates0).gateOf 0 2 = some gates0 ∧ gates0.state = .idle) ∧
    (let s := listCmd eStart gates0
     Ready s 0 0 0x5A eStart false [(bitPos 0x10 0, 64), (bitPos 0x18 0, 1)] (gateObject eStart) ∧ gates0.startable = true ∧
     s.now + 2000000 = entryField eStart 0x10 0 64 ∧ entryField eStart 0x18 0 1 = 0) ∧
    Ready (listCmd (entry 0x5B 2 []) { gates0 with state := .running }) 0 0 0x5B (entry 0x5B 2 []) false [] (gateObject (entry 0x5B 2 [])) ∧
    Ready (listCmd (entry 0x5C 2 []) gates0) 0 0 0x5C (entry 0x5C 2 []) false [] (gateObject (entry 0x5C 2 [])) ∧
    (let g := { gates0 with state := .armed, base := 5000000000 }
     (listOn g).Rising ∧ (listOn g).gate 0 = some g ∧ g.base = (listOn g).now) ∧
    (let g := { gates0 with state := .running, next := 1, base := 4999999500 }
     (listOn g).Rising ∧ (listOn g).gate 0 = some g ∧ tblFind g.entries g.next = some { offset := 500, action := 2, target := 0, value := 1 } ∧
     g.base + g.rep * g.cycle + 500 = (listOn g).now ∧ (listOn g).hostOpen 0 = true ∧ (listOn g).linkHeld 0 true = false ∧ (listOn g).gateOf 0 ((listOn g).part 0).gateSel.toNat = some g ∧
     tblRising ((listOn g).part 0).gateBaseHi = true ∧ tblRising ((listOn g).part 0).gateNextHi = true) := by
  repeat' apply And.intro
  all_goals decide +kernel

theorem witness_RolledGateBaseIsTheFirstInTime : (0 < 1) ∧ gateBase 5 1000000 0 = 2000005 := by decide

def eShaper (op : Nat) : BitVec 512 := entry op 2 [(0x10, 100), (0x14, 200)]
def shaped (e : BitVec 512) : State := cmdOn e fun p => { p with shapers := [(2, { rate := 5, burst := 300, credit := 29999999 })] }

theorem witness_ShapersAreCreatedSetAndDestroyed :
    (Ready (cmd (eShaper 0x60)) 0 0 0x60 (eShaper 0x60) false shaperLayout (shaperChecks 1 (eShaper 0x60)) ∧
      (cmd (eShaper 0x60)).shaper 0 2 = none) ∧
    (Ready (shaped (eShaper 0x61)) 0 0 0x61 (eShaper 0x61) false shaperLayout (shaperChecks 0 (eShaper 0x61)) ∧
      ((shaped (eShaper 0x61)).shaper 0 2).isSome) ∧
    (Ready (shaped (entry 0x62 2 [])) 0 0 0x62 (entry 0x62 2 []) false [] [objectCheck (entry 0x62 2 []) 1 31] ∧
      ((shaped (entry 0x62 2 [])).shaper 0 2).isSome ∧ (shaped (entry 0x62 2 [])).shaperNamed 0 2 = none) := by
  repeat' apply And.intro
  all_goals decide +kernel

def eGuard : BitVec 512 := entry 0x68 3 [(0x10, 0x3B + 64 * 16), (0x18, 64 * 20)]
/-- The region of that entry: bytes 1,024 to 1,343 of space 3. -/
def region : GuardRegion := { base := 1024, last := 1343, space := 3, r := true, w := true, x := false }
/-- A pair whose inactive bank holds entry 1 with the 64 bytes right after that region. -/
def pairAfter : BankPair := { bankB := [(1, guardEntry (entry 0x68 1 [(0x10, 0x3B + 64 * 21), (0x18, 64 * 21)]))] }
def sGuardWrite : State := { cmd eGuard with pairs := [(0, pairAfter)] }

theorem witness_GuardEntriesAreWrittenAndSwapped :
    (Ready sGuardWrite 0 0 0x68 eGuard false (guardLayout eGuard) (guardChecks eGuard) ∧ regionOf (guardEntry eGuard) = some region ∧
      sGuardWrite.regionOwned 0 region = true ∧ bankOverlap (sGuardWrite.pair 0).inactive 3 region = none) ∧
    Ready (cmd (entry 0x69 0 [])) 0 0 0x69 (entry 0x69 0 []) false [] [objectCheck (entry 0x69 0 []) 0 0] := by
  repeat' apply And.intro
  all_goals decide +kernel

theorem witness_GuardLoadKeepsEntriesApart :
    tblRising pairAfter.inactive = true ∧ regionOf (guardEntry eGuard) = some region ∧ bankOverlap pairAfter.inactive 3 region = none ∧
    (∀ x ∈ regionsOf pairAfter.inactive, ∀ y ∈ regionsOf pairAfter.inactive, x.1 ≠ y.1 → x.2.meets y.2 = false) := by
  decide +kernel

/-! ### Timebase and references -/

/-- The running unit with one open partition that holds TB_WR, its timebase as f gives it. -/
def timed (f : Timebase → Timebase) : State :=
  { withPart openPart with tb := f up.tb, boot := { up.boot with map := { up.boot.map with tbWr := [(0, true)] } } }

theorem witness_UnitTimeAdvancesAndSteps :
    (timed id).tb.initStep = none ∧ (timed fun t => { t with initStep := some (-3) }).tb.initStep = some (-3) ∧
    (let s := timed fun t => { t with stepArmed := some (5, 5000000000) }
     s.tb.stepArmed = some (5, 5000000000) ∧ 5000000000 ≤ s.now ∧ s.bellsPass = true) ∧
    (let s := timed fun t => { t with stepArmed := some (5, 5000000001) }
     s.now < 5000000001) ∧
    (let s := timed fun t => { t with ppsOutEn := true, ppsOutSecond := 4 }
     s.now % 1000000000 < 20 ∧ s.tb.ppsOutSecond < s.now / 1000000000 ∧ s.tb.ppsOutEn = true) := by
  decide +kernel

theorem witness_TimebaseRegistersActForTheirWriter :
    ((timed id).hostOpen 0 = true ∧ (timed id).linkHeld 0 false = false ∧ (timed id).linkHeld 0 true = false ∧ (timed id).bellsPass = true ∧ tblGet false (timed id).map.tbWr 0 = true ∧ tblRising (timed id).tb.hiLatch = true) ∧
    (timed fun t => { t with src := 3 }).tb.src = 3 ∧ (timed fun t => { t with src := 1 }).tb.src = (0x11#32).extractLsb' 0 2 ∧
    (timed fun t => { t with src := 1 }).tb.src = (0x31#32).extractLsb' 0 2 ∧ (0x31#32).getLsbD 5 = true ∧ (0x31#32).getLsbD 4 = true ∧
    (let s : State := { withPart openPart with boot := { up.boot with map := { up.boot.map with tbWr := [(0, false)] } } }
     s.hostOpen 0 = true ∧ s.linkHeld 0 false = false ∧ tblGet false s.map.tbWr 0 = false) ∧
    (let s := timed fun t => { t with src := 1, ppsPresent := true }
     s.tb.src ≠ (3#32).extractLsb' 0 2 ∧ s.tb.src ≠ (2#32).extractLsb' 0 2 ∧ ({ s.tb with src := 2 } : Timebase).present = true) := by
  repeat' apply And.intro
  all_goals decide +kernel

def segOn : Segment := { clk := true, enumerated := true }
/-- The running unit with drop d and its segment g. -/
def drops (d : Drop) (g : Segment := segOn) : State := { withPart openPart with drops := [(0, d)], segs := [(0, g)] }

theorem witness_ReferencesAndDelaysAreMeasured :
    (let s := timed fun t => { t with transport := 1, master := some 7, domain := 0 }
     s.ptpCarried = true ∧ (0 : Byte).toNat = s.tb.domainUsed ∧ s.tb.master = some 7 ∧ s.tb.lastSyncTick = none) ∧
    (let s := timed fun t => { t with transport := 1, master := some 7, domain := 0, transit := some 3, syncUsed := true }
     s.ptpCarried = true ∧ s.tb.transit = some 3 ∧ s.tb.syncUsed = true) ∧
    (let s := timed fun t => { t with src := 1, ptpFix := some { off := 0, ns := 5000000000, tick := 500000000 } }
     s.tb.src = 1 ∧ s.ptpOffset = some 0 ∧ 1000 < ((5000001001 : Int) - s.tb.ppsInDelay.toNat - nearestSecond 5000001001).natAbs) ∧
    (let s := timed fun t => { t with src := 1, state := .locked, ppsTick := some 200000000 }
     tblRising s.flt.faults = true ∧ s.tb.state = .locked ∧ s.tb.masters = [] ∧ 200000000 + 300000000 = s.tb.tick) ∧
    (let s := timed fun t => { t with state := .locked, src := 2 }
     s.tb.src = 2 ∧ s.tb.state = .locked ∧ s.tb.badRun < 15) ∧
    (let s := drops { active with lastK := 0 } { segOn with started := true, cycleTick := 499998800, beginNs := 4999988000, cycleStartNs := 4999988000, endNs := 5019988000,
                                                                calendar := [(5, BitVec.ofNat 64 (packFields [(1000, 41), (20000, 21), (0, 16), (3, 13)]))] }
     s.Rising ∧ (s.drop 0).found = true ∧ (s.drop 0).state ≠ .retired ∧ (s.seg 0).started = true ∧
     (s.pair 10).active = [] ∧ ((s.settleWhistle 0).measureGrant 0).isSome = true) := by
  repeat' apply And.intro
  all_goals decide +kernel

theorem witness_InstantsAreWholeCyclesFromThePhase : 0 < up.cycleUs 0 ∧ up.phaseUs 0 < up.cycleUs 0 := by decide +kernel

/-! ### Segments, transactions, cycles -/

/-- A message of a drop: a C-word d, with good parity, as its last word. -/
def word (d : Nat) (c f : Bool) : ColWord :=
  { data := BitVec.ofNat 16 d, c := c, p := ((((BitVec.ofNat 16 d).toNat.toDigits 2).count '1' + c.toNat + f.toNat) % 2 == 0), f := f, rsv := false }

/-- The eleven descriptor words of the drop panel, as RDATA brings them, and an answer that is no good. -/
def panelWords : List W16 := [0x4444, 1, 0x8000, 64, 32, 0x4000, 0, 0, 0, 0, 0]
def good : Discovery := { attempts := [message (header opRdata 0 0 :: panelWords) false], turnaroundNs := some 300, telemetry := [], nego := silent.nego }
def bad : List ColWord := [word 5 true true]

/-- The state with no retirement threshold for segments and drops (R452). -/
def calm (s : State) : State :=
  { s with flt := { s.flt with winSeg := { s.flt.winSeg with thresh := 0 }, winDrop := { s.flt.winDrop with thresh := 0 } } }

theorem witness_SegmentsAreResetAndEnumerated :
    (let s := drops { active with colant2 := true, wafer := 2, qdelay := 5 } { segOn with resetDue := true }
     s.Rising ∧ (s.seg 0).retired = false ∧ (s.seg 0).resetDue = true) ∧
    (let s := drops active { segOn with noAnswerTick := some 400000000, causes := 2 }
     (s.seg 0).noAnswerTick = some 400000000 ∧ (s.seg 0).causes.getLsbD 1 = true ∧ 400000000 + 100000000 = s.tick) ∧
    (let s := drops { active with desc := none } { clkStopTick := some 499995000 }
     s.Rising ∧ (s.seg 0).retired = false ∧ (s.seg 0).clk = false ∧ (s.seg 0).clkStopTick = some 499995000 ∧ 499995000 + 5000 = s.tick ∧
     s.boot.phase = .running ∧ (s.drop 0).state ≠ .retired ∧ (calm s).flt.winSeg.thresh = 0 ∧ (calm s).flt.winDrop.thresh = 0 ∧ (calm s).Rising) ∧
    (readResult (good.attempts.map (attemptOf 0))).1 = .found panelWords ∧ (readResult ([] : List Attempt)).1 = .empty ∧
    (readResult ([bad, bad, bad].map (attemptOf 31))).1 = .conflict := by
  repeat' apply And.intro
  all_goals decide +kernel

/-- An acknowledged LEVEL write, and 16 good MEASURE answers. -/
def ack : List ColWord := message [header opAck 0 0] false
def measured : List ColWord := message (header opMrsp 0 0 :: 0 :: prbsWords 256 0x7FFF) true
def agreed : NegoAnswers := { level := ack, measures := List.replicate 16 measured, wafer := [message [header opAck 0 0] true] }
/-- A drop of LEVEL 0x2 in Colant-1 mode, in a cycle with room for an exchange. -/
def level2 : Drop := { active with desc := some { panel with caps := 0x8000 }, lastK := 0 }

set_option maxRecDepth 100000 in
theorem measured_passes : (measureAnswer 0 measured).passes = true := by decide +kernel

theorem witness_DropsAreNegotiatedAndRenewed :
    (let s := calm (drops level2)
     s.Rising ∧ s.flt.winDrop.thresh = 0 ∧ (s.beginExchange 0 (s.negotiationCost 0 ((s.drop 0).delay.getD 520))).isSome = true ∧ (s.drop 0).desc = some { panel with caps := 0x8000 } ∧ (s.drop 0).state ≠ .retired ∧
     (s.drop 0).colant2 = false ∧ (s.drop 0).negoFail = none ∧ Descriptor.level { panel with caps := 0x8000 } = 2 ∧ (s.drop 0).found = true) ∧
    acked 0 false agreed.level = true ∧ acked 0 false [] = false ∧ 16 ≤ agreed.measures.length ∧
    (agreed.measures.take 16).all (fun m => (measureAnswer 0 m).passes) = true ∧
    (let s := drops { active with negoFail := some 499700000 }
     s.Rising ∧ (s.drop 0).negoFail = some 499700000 ∧ 499700000 + 300000 = s.tick ∧
     (s.beginExchange 0 (costW2 opRd 0xFFFF05 1 [] false 520)).isSome = true ∧ (s.drop 0).state ≠ .retired) ∧
    (let s := calm (drops { active with renewDue := true })
     s.Rising ∧ (s.drop 0).renewDue = true ∧ (s.drop 0).found = true ∧ (s.drop 0).state ≠ .retired ∧ s.flt.winDrop.thresh = 0 ∧
     (s.beginExchange 0 (s.discoverCost 0 good)).isSome = true) := by
  repeat' apply And.intro
  case' right.right.right.right.left => exact (by simp [agreed, measured_passes])
  all_goals decide +kernel

/-- A poll of drop 0 on the wires, launched 1 µs ago and answered with BUSY three times so far. -/
def poll : Tx :=
  { who := .poll, requester := 0, drop := 0, op := 1, addr := 0, len := 1, data := [], colant2 := false, busy := 3, startTick := 499999900, predicted := 0,
    shaper := none }
def busyWord : ColWord := colWord (header opBusy 0 0) true false
def polled : State := drops active { segOn with tx := some poll }

theorem witness_TransactionsEnd :
    (polled.seg 0).tx = some poll ∧ polled.inSpan 0 poll 280 = true ∧ polled.inSpan 0 poll 20 = false ∧
    256 < poll.busy + ((List.replicate 254 busyWord).takeWhile (isBusy poll.drop)).length ∧
    poll.busy + ((List.replicate 253 busyWord).takeWhile (isBusy poll.drop)).length = 256 ∧
    ((List.replicate 253 busyWord).takeWhile (isBusy poll.drop)).length = (List.replicate 253 busyWord).length ∧
    [busyWord, word 0x1234 false true].drop ([busyWord, word 0x1234 false true].takeWhile (isBusy poll.drop)).length = word 0x1234 false true :: [] ∧
    (let s := drops active { segOn with tx := some { poll with startTick := 400000000 } }
     s.past 400000000 (s.responseSpan 0 { poll with startTick := 400000000 }) = true) ∧
    (let s := drops active { segOn with tx := some { poll with startTick := 500000000 } }
     s.past 500000000 (s.responseSpan 0 { poll with startTick := 500000000 }) = false) := by
  repeat' apply And.intro
  all_goals decide +kernel

theorem witness_AttentionAndStatus :
    (drops active).Rising ∧ ((drops active).seg 0).clk = true ∧ ((drops active).seg 0).attn = false ∧ ((drops active).seg 0).enumerated = true ∧
    (let s := drops active { segOn with attn := true, zeroSince := some 499900000 }
     (s.seg 0).zeroSince = some 499900000 ∧ (s.seg 0).stray = none ∧ (s.seg 0).attn = true ∧ 499900000 + 100000 = s.tick) ∧
    (let s := drops active { segOn with attn := true, stray := some 400000000, fullPollTick := 490000000 }
     (s.seg 0).stray = some 400000000 ∧ 400000000 + 100000000 = s.tick ∧ (s.seg 0).fullPollTick + 10000000 = s.tick) ∧
    ((drops active { segOn with stats := [(0, 0x8005), (1, 3)] }).seg 0).stats = (0, 0x8005) :: [(1, 3)] ∧ (0x8005 : W16) &&& 0x0F00 = 0 ∧
    (let s := drops active { segOn with stats := [(0, 0x0200)] }
     s.Rising ∧ s.bellsPass = true ∧ (0x0200 : W16) &&& 0x0C00 = 0 ∧ (0x0200 : W16).getLsbD 9 = true ∧ (s.drop 0).discardLoss = false ∧
     (((s.onSeg 0 fun x => { x with stats := [] }).stat 0 0x0200).drop 0).state ≠ .retired) := by
  repeat' apply And.intro
  all_goals decide +kernel

/-- A calendar entry's word, and a segment whose cycle began k ticks ago with calendar cal. -/
def calWord (start len drop kind rate part : Nat) : W64 := BitVec.ofNat 64 (packFields [(start, 41), (len, 21), (drop, 16), (kind, 13), (rate, 12), (part, 9)])
def runs (k : Nat) (cal : Tbl W64 := []) : Segment :=
  { segOn with started := true, cycleTick := 500000000 - k, cycleStartNs := 5000000000 - 10 * k, beginNs := 5000000000 - 10 * k,
               endNs := 5020000000 - 10 * k, calendar := cal }

theorem witness_CyclesStartAndSendTheirWords :
    (let s := drops active
     s.Rising ∧ (s.seg 0).whistleEnd = none ∧ s.nextStart 0 = some 5000000000 ∧ (s.seg 0).clk = true ∧ (s.seg 0).enumerated = true ∧
     (s.seg 0).retired = false ∧ (s.seg 0).tx = none ∧ (s.seg 0).tenure = none) ∧
    (let s := drops active { runs 150000 [(3, calWord 100000 200000 0 1 0 0)] with linkHold := 1, region := .slot 3 }
     s.Rising ∧ (s.seg 0).started = true ∧ s.holdDue 0 = true ∧ s.holdRoom 0 = true ∧ s.wordsOut 0 = false ∧ s.atBoundary 0 = true) ∧
    (let s := drops active (runs 834 [(3, calWord 1000 2000 0 6 0 0)])
     (s.seg 0).frozen = false ∧ s.slotAt 0 3 = some (entrySlot 3 (calWord 1000 2000 0 6 0 0)) ∧
     (entrySlot 3 (calWord 1000 2000 0 6 0 0)).start ≤ s.offsetNow 0 ∧ s.offsetNow 0 < (entrySlot 3 (calWord 1000 2000 0 6 0 0)).finish) ∧
    (∀ k ∈ [1, 2, 3, 5],
     let e := entrySlot 3 (calWord 1000 2000 0 k 0 0)
     let s := drops active (runs 1000 [(3, calWord 1000 2000 0 k 0 0)])
     s.slotAt 0 3 = some e ∧ e.kind = k ∧ e.start ≤ s.offsetNow 0 ∧ s.offsetNow 0 < e.finish ∧ (s.seg 0).region ≠ .slot 3 ∧
     (k = 1 → s.slotIdle 0 e = false ∧ (s.seg 0).arb.freeze = false ∧ (s.drop 0).found = true ∧ (s.drop 0).state ≠ .retired)) ∧
    (let s := drops { active with wafer := 2, colant2 := true } (runs 1000 [(3, calWord 1000 2000 0 2 1 0)])
     s.slotIdle 0 (entrySlot 3 (calWord 1000 2000 0 2 1 0)) = false) ∧
    (let s := drops { active with crcEn := true } (runs 1000 [(3, calWord 1000 2000 0 5 0 0)])
     s.slotIdle 0 (entrySlot 3 (calWord 1000 2000 0 5 0 0)) = false) ∧
    (let e := entrySlot 3 (calWord 1000 2000 0 3 0 0)
     let s := drops active (runs 1000 [(3, calWord 1000 2000 0 3 0 0)])
     s.slotAt 0 3 = some e ∧ s.slotIdle 0 e = false ∧ e.kind = 3) ∧
    (let s := drops active { runs 1000 with syncNow := true }
     (s.seg 0).frozen = false ∧ (s.seg 0).syncNs = none ∧ s.boot.phase ≠ .service ∧ s.syncFree 0 = true) ∧
    (let s := drops active (runs 1994955)
     (s.seg 0).syncNs = none ∧ s.boot.phase ≠ .service ∧ s.cycS 0 ≤ s.offsetNow 0 ∧ s.offsetNow 0 ≤ s.cycS 0 + 6) := by
  repeat' apply And.intro
  all_goals decide +kernel

theorem witness_BoundariesSwapCalendarsAndPresent :
    (let s := drops active { runs 100 with
       staged := [(0, { state := .pending, changes := [(5, calWord 1000 2000 0 3 0 0)], due := 4999999000 }),
                  (1, { state := .pending, changes := [(6, calWord 5000 2000 0 3 0 0)], due := 5999999000 })] }
     s.Rising ∧ (s.seg 0).started = true ∧ s.offsetNow 0 = 120 ∧
     (s.seg 0).calDue (s.seg 0).cycleStartNs = true) ∧
    (let s := drops { active with state := .fallback, activeAt := some 5000000000 } (runs 2000000)
     s.Rising ∧ (s.seg 0).syncNs = none ∧ 0 ∈ s.segDrops 0 ∧ (s.drop 0).state = .fallback ∧ (s.drop 0).activeAt = some s.now) ∧
    (let s := drops { active with state := .fallback, activeAt := some 5000000000, backFor := some 5000000000, back := [1], third := [2] }
       { runs 2000000 with syncNs := some 5000000000 }
     s.Rising ∧ (s.seg 0).syncNs = some s.now ∧ 0 ∈ s.segDrops 0 ∧ (s.drop 0).backFor = some s.now ∧ (s.drop 0).lateFor ≠ some s.now ∧
     (s.drop 0).handedBack = true ∧ (s.drop 0).state = .fallback ∧ (s.drop 0).activeAt = some s.now) ∧
    (drops { active with backFor := some 5000000000, lateFor := some 5000000000 }).drop 0 =
      { active with backFor := some 5000000000, lateFor := some 5000000000 } ∧ active.handedBack = false ∧ active.backFor ≠ some 5000000000 := by
  repeat' apply And.intro
  all_goals decide +kernel

/-- An arbiter whose last winner of the lowest class is requester 8 and whose Leash limit of 9 is reached, as its class register's reset has it. -/
def arb8 : Arb := { lastWin := [(codeEmg, codeEmg)] }
/-- A control slot with a poll queued, as an arbitration phase finds it. -/
def asking (k : Nat) : State :=
  let s := drops active { runs k [(3, calWord 1000 9000 0 3 0 0)] with region := if k = 1000 then .slot 3 else .openTime, hk := [pollItem 0] }
  ((s.settleIdle 0).queueRefreshes 0).onArb 0 fun a => a.clampWaits

theorem witness_ArbiterPhasesAndRegisters :
    ([0x1, 0x2, 0x8, 0xF].Pairwise (· < ·) ∧ tblRising arb8.wait = true ∧ tblRising arb8.lastWin = true ∧ (arb8.pick [0x1, 0x2, 0x8, 0xF]).isSome = true ∧
      (arb8.pick [0x8, 0xF]).isSome = true ∧ (arb8.pick [codeEmg]).isSome = true ∧ (0x8 : Nat) ∈ arbCodes) ∧
    (let u := (asking 1000).claimWires 0
     let v := u.onArb 0 fun a => { a with phaseTick := some u.tick }
     (u.seg 0).tx = none ∧ (u.seg 0).arb.holder = codeNone ∧ u.wordsOut 0 = false ∧ (u.seg 0).arb.phaseTick ≠ some u.tick ∧
     (u.seg 0).arb.next = none ∧ u.holdDue 0 = false ∧ (v.phaseRegion 0).any (·.2) = true ∧
     (v.phaseRegion 0).any (fun r => ((v.seg 0).arb.pick (v.requests 0 r.1)).isSome) = true) ∧
    (let u := (asking 833).claimWires 0
     let v := u.onArb 0 fun a => { a with phaseTick := some u.tick }
     (u.seg 0).tx = none ∧ (u.seg 0).arb.holder = codeNone ∧ u.wordsOut 0 = false ∧ (u.seg 0).arb.phaseTick ≠ some u.tick ∧
     (u.seg 0).arb.next = none ∧ u.holdDue 0 = false ∧ (v.phaseRegion 0).any (fun r => !r.2) = true ∧
     (v.phaseRegion 0).any (fun r => ((v.seg 0).arb.pick (v.requests 0 r.1)).isSome) = true) ∧
    (let s := drops active (runs 1000)
     (s.seg 0).whistleEnd = none ∧ (s.seg 0).started = true ∧ (s.pair 10).active = []) ∧
    (let s := drops { active with desc := some { panel with keepalive := 10 }, refreshTick := 499500000 } (runs 1000)
     (s.drop 0).desc = some { panel with keepalive := 10 } ∧ (s.drop 0).found = true ∧ (s.drop 0).state ≠ .retired ∧ (s.drop 0).negoFail = none ∧
     (s.seg 0).clk = true ∧ (s.drop 0).refreshTick + 10 * 100000 / 2 = s.tick ∧
     ((s.seg 0).hk.any fun h => h.who == .keepalive && h.drop == 0 && h.emg) = false) ∧
    (let s := withPart { openPart with shapers := [(0, { rate := 5, burst := 300, bucket := some 5000000000 })] }
     s.shaper 0 0 = some { rate := 5, burst := 300, bucket := some 5000000000 } ∧ 5000000000 = s.now) := by
  repeat' apply And.intro
  all_goals decide +kernel

/-- The guest drop 0's tenure of 1,000 words, counted from 1 µs ago. -/
def tenure0 : Tenure :=
  { drop := 0, part := 0, colant2 := false, startTick := 499999900, words := 1000, returned := false, frozen := false, wait := none }

theorem witness_TenuresAreGrantedReturnedAndEnded :
    (let e := entrySlot 0 (calWord 1000 2000 0 4 0 0)
     let s := drops active (runs 1000 [(0, calWord 1000 2000 0 4 0 0)])
     s.Rising ∧ (s.seg 0).whistleEnd = none ∧ (s.seg 0).clk = true ∧ (s.seg 0).started = true ∧ (s.seg 0).retired = false ∧ (s.seg 0).tx = none ∧
     (s.seg 0).tenure = none ∧ (s.seg 0).region ≠ .slot 0 ∧ s.slotAt 0 0 = some e ∧ e.kind = 4 ∧ e.start ≤ s.offsetNow 0 ∧ s.offsetNow 0 < e.finish ∧
     s.slotIdle 0 e = false ∧ (s.seg 0).frozen = false ∧ (s.seg 0).arb.freeze = false ∧ (s.drop 0).state ≠ .retired ∧ (s.drop 0).negoFail = none ∧
     s.wordsOut 0 = false ∧ (s.windowFirst 0 e && s.holdRoom 0) = false) ∧
    (let e := entrySlot 0 (calWord 1000 2000 0 4 0 0)
     let s := drops active (runs 1000 [(0, calWord 1000 2000 0 4 0 0)])
     e.start + 72 ≤ s.offsetNow 0 ∧ s.offsetNow 0 < e.finish) ∧
    (let s := drops active { runs 1000 with tenure := some tenure0 }
     (s.seg 0).tenure = some tenure0 ∧ tenure0.open s.tick = true ∧ tenure0.wait = none) ∧
    (let x := { tenure0 with startTick := 500000000 - tenure0.ticks 1000 }
     let s := drops active { runs 100000 with tenure := some x }
     (s.seg 0).tenure = some x ∧ x.startTick + x.ticks x.words = s.tick) := by
  repeat' apply And.intro
  all_goals decide +kernel

/-! ### Guests and the host -/

/-- A guest window of partition 0 at 0x10000, a guest read of one word through it at tick a, and the read of host memory made for it. -/
def guestWin : Window := { state := .enabled, guest := true, isSet := true, haddr := 0x10000, sizeLog2 := 12, cbase := 0, seg := 0, drop := 0, hold := 100 }
def guestPart : Partition := { openPart with bridge := { openPart.bridge with windows := [(4, guestWin)] } }
def guestRd (a : Nat) : GuestCmd :=
  { op := opRd, drop := 0, addr := 0, len := 1, window := 4, arrival := a, hold := 100, swap := 0, base := 0, bus := 0x10000, busLen := 2, early := [],
    pieces := [], refused := false }
def guestDma : DmaRead := { id := 7, purpose := .guest 0 0, addr := 0x10000, len := 2, sent := true, read := 7 }
def post : GuestPost := { pieces := [(0x10000, [1, 2])], seg := 0, drop := 0, window := 4, word := 0, len := 1, unlock := none, epoch := 0 }
/-- Guest drop 0 in tenure x. -/
def guesting (x : Tenure) (p : Partition := guestPart) : State := { withPart p with drops := [(0, active)], segs := [(0, { runs 1000 with tenure := some x })] }
/-- A header of a guest command, and words after it. -/
def gHead (op : Nat) (f : Bool := false) : ColWord := colWord (header op 0 0) true f
def gWord (d : Nat) (f : Bool) : ColWord := colWord (BitVec.ofNat 16 d) false f
def badParity : ColWord := { gWord 0x100 true with p := !(gWord 0x100 true).p }

theorem witness_GuestCommandsAreJudgedAndAnswered :
    ((guesting tenure0).seg 0).tenure = some tenure0 ∧ tenure0.open (guesting tenure0).tick = true ∧ tenure0.wait = none ∧
    (goodWord (gHead opReturn true) = true ∧ (gHead opReturn true).c = true ∧ headOp (gHead opReturn true).data = opReturn) ∧
    (goodWord (gHead opRd) = true ∧ headOp (gHead opRd).data ≠ opReturn ∧ guestLen (headOp (gHead opRd).data) (headParam (gHead opRd).data) = some 2) ∧
    [gWord 0 false, badParity].all goodWord = false ∧
    ([gWord 0 false, gWord 0x100 true].all goodWord = true ∧ [gWord 0 false, gWord 0x100 true].length = 2 ∧
      (gHead opRd :: [gWord 0 false, gWord 0x100 true]).zipIdx.all (fun y => y.1.f == (y.2 + 1 == 3)) = true) ∧
    [gWord 0 false, gWord 0x100 false, gWord 9 true].length ≠ 2 ∧
    (let x := { tenure0 with wait := some (.read (guestRd 499999990) 7) }
     let s := { guesting x with dma := [guestDma] }
     (s.seg 0).tenure = some x ∧ s.guestRead 0 = some (0, guestDma) ∧ s.guestWaits 0 guestDma.read = some (x, guestRd 499999990) ∧
     (∀ y ∈ [.data [1, 2], .unsupported, .poisoned, .timeout], s.endsWith guestDma y = true ∧ (s.endRequest guestDma y).2 = some y) ∧
     s.endsWith guestDma (.data [1]) = false ∧
     ((({ s with dma := [guestDma, { guestDma with id := 8 }] } : State).endRequest guestDma (.data [1, 2])).2 = none) ∧
     (guestRd 499999990).refused = false ∧ s.tick < (guestRd 499999990).arrival + (guestRd 499999990).hold * 10) ∧
    (guestRd 499999000).arrival + (guestRd 499999000).hold * 10 = (guesting tenure0).tick ∧
    ((guesting { tenure0 with wait := some (.posted (guestRd 499999000)) }).seg 0).tenure = some { tenure0 with wait := some (.posted (guestRd 499999000)) } ∧
    ((guesting { tenure0 with wait := some (.semaphore (guestRd 499999000)) }).seg 0).tenure =
      some { tenure0 with wait := some (.semaphore (guestRd 499999000)) } ∧
    (let s := guesting tenure0 { guestPart with bridge := { guestPart.bridge with guestPosted := [post] } }
     let u := ((s.onBridge 0 fun b => { b with guestPosted := [] }).sendPost 0 post).grantSem 0
     s.postOwner 0 = some 0 ∧ (s.bridge 0).guestPosted = post :: [] ∧ u.waitingPost 0 = none) ∧
    (let x := { tenure0 with wait := some (.posted (guestRd 499999990)) }
     let s := guesting x { guestPart with bridge := { guestPart.bridge with guestPosted := [post] } }
     let u := ((s.onBridge 0 fun b => { b with guestPosted := [] }).sendPost 0 post).grantSem 0
     u.waitingPost 0 = some (0, x, guestRd 499999990) ∧ (u.bridge 0).postRoom = true) := by
  repeat' apply And.intro
  all_goals decide +kernel

/-- A guest command at Colant-2 rate whose last word is no CRC of the others. -/
theorem witness_wrong_crc :
    let data := [gWord 0 false, gWord 0x100 false, gWord 0 true]
    let all := (gHead opRd :: data).map (·.data)
    data.all goodWord = true ∧ data.length = 2 + 1 ∧ (all.getLast?.getD 0 == crc16 all.dropLast) = false ∧
    (gHead opRd :: data).zipIdx.all (fun y => y.1.f == (y.2 + 1 == 4)) = true := by decide +kernel

/-- Window 4 of partition 0 stands open for the host at BAR2's first 4 KiB. -/
def hosted : State :=
  { withPart { openPart with bridge := { openPart.bridge with windows := [(4, { win with state := .enabled })] } } with
    drops := [(0, active)], segs := [(0, segOn)] }

/-- A journal entry of a word outside every window. -/
def jrnNone : JrnEntry :=
  { seq := 1, cause := 5, nowin := true, dir := false, seg := 0, drop := 0, window := 0, words := 1, nak := 0, addr := 2048, time := 0 }

/-- The same with both classes' buffers full. -/
def full : State :=
  withPart { openPart with bridge := { openPart.bridge with
    items := List.replicate 512 item ++ List.replicate 128 { item with read := some { off := 0, dwords := 1, tag := 0, got := [], fails := [] } } } }

theorem witness_HostRequestsAreTakenOrRefused :
    (withPart { openPart with mse := false }).hostOpen 0 = false ∧ (withPart { openPart with dstate := .d3hot }).hostOpen 0 = false ∧
    hosted.hostOpen 0 = true ∧ (4092 : BitVec 34).toNat < hosted.bar2Size 0 ∧
    (hosted.acceptWrite 0 (requestHalves 4092 1 [5] 15 0)).isSome ∧ (hosted.acceptRead 0 4092 1 1 (requestHalves 4092 1 [] 15 0)).isSome ∧
    hosted.linkHeld 0 false = false ∧ hosted.linkHeld 0 true = false ∧ (withPart { openPart with mse := false }).linkHeld 0 true = false ∧
    (withPart { openPart with mse := false }).linkHeld 0 false = false ∧ full.linkHeld 0 false = true ∧ full.linkHeld 0 true = true ∧
    (hosted.bridge 0).windowAt (4092 / 2) = some (4, { win with state := .enabled }) ∧ hosted.postedTo 0 0 = [] ∧
    (hosted.acceptAtomic 0 4088 .fetchAdd 8 1 1 1).isSome := by
  repeat' apply And.intro
  all_goals decide +kernel

/-- Window 4 at drop address 0x020000 under swap mode m, all of it in the guard table. -/
def swapped (m : BitVec 2) : State :=
  let w := { win with state := .enabled, cbase := 0x020000, swap := m }
  { withPart { openPart with bridge := { openPart.bridge with windows := [(4, w)] } } with
    drops := [(0, active)], segs := [(0, segOn)], pairs := [(0, { bankA := [(0, BitVec.ofNat 128 (0x33 + (2 ^ 58 - 1) * 2 ^ 70))] })] }

theorem witness_HostRequestsBecomeCommands :
    ∀ m ∈ [(0 : BitVec 2), 1, 2],
    let s := swapped m
    let w := { win with state := .enabled, cbase := 0x020000, swap := m }
    s.Rising ∧ s.hostOpen 0 = true ∧ (4092 : BitVec 34).toNat < s.bar2Size 0 ∧ (4092 : BitVec 34).toNat % 4 = 0 ∧ s.linkHeld 0 false = false ∧
    s.linkHeld 0 true = false ∧ (s.bridge 0).windowAt (4092 / 2) = some (4, w) ∧ (s.bridge 0).windowAt (4092 / 2 + 1) = some (4, w) ∧
    s.win 0 4 = some w ∧ w.haddr.toNat % 4 = 0 ∧ w.cbase % 2 = 0 ∧ w.swap ≠ 3 ∧ s.dropState (w.seg * 32 + w.drop) = .active ∧
    (∀ k ∈ [AccKind.read, .write, .locked], ∀ n ∈ [0, 1],
      ((s.pair 0).user 2 (colantAddr w.seg w.drop (w.cbase + (4092 - w.haddr.toNat) / 4 * 2 + n)) k).2 = true) ∧
    s.readsAhead w = false ∧ (s.bridge 0).semOwner = .none ∧ (s.bridge 0).semWaiting = [] := by
  unfold State.Rising; decide +kernel

theorem witness_WriteOutsideWindowsIsJournalled :
    (let s := withPart { openPart with bridge := { openPart.bridge with jrnNext := 257, journal := (List.range 256).map fun k => (k, jrnNone) } }
     s.Rising ∧ s.hostOpen 0 = true ∧ s.linkHeld 0 false = false ∧ ((s.bridge 0).jrnNext - 1 - (s.bridge 0).jrnAck).toNat = 256) ∧
    ((withPart { openPart with session := .closed, bridge := { openPart.bridge with kept := List.replicate 256 jrnNone } }).bridge 0).kept.length = 256 ∧
    (hosted.bridge 0).windowAt (4096 / 2) = none ∧ (hosted.bridge 0).windowAt (4096 / 2 + 1) = none ∧
    let s := withPart openPart
    s.Rising ∧ s.hostOpen 0 = true ∧ (1073741820 : BitVec 34).toNat + 4 = s.bar2Size 0 ∧ (s.bridge 0).windows = [] ∧ (s.bridge 0).items = [] ∧
    (s.bridge 0).guestPosted = [] ∧ (s.part 0).session = .opened ∧ (s.bridge 0).jrnNext = 1 ∧ (s.bridge 0).jrnAck = 0 ∧ (s.bridge 0).journal = [] ∧
    s.linkHeld 0 false = false := by
  repeat' apply And.intro
  all_goals decide +kernel

def fetch1 : DmaRead := { id := 7, purpose := .fetch 0 0 0 1, addr := 0, len := 64, sent := true, read := 7 }
/-- A fetch of ring 0 is outstanding; r says whether it has been tried before. -/
def fetching (r : Bool) : State := { withPart { openPart with rings := [(0, { state := .active, sqTail := 2, retried := r })] } with dma := [fetch1] }

theorem witness_PoisonAndFetchReads :
    ((withPart openPart).Rising ∧ (withPart openPart).linkHeld 0 false = false) ∧
    (∀ r ∈ [false, true], ((fetching r).dma.find? fun x => x.id == fetch1.id && x.open) = some fetch1 ∧ (fetching r).Rising ∧
      tblRising ((fetching r).part 0).rings = true ∧ ((fetching r).ring 0 0).state = .active ∧ ((fetching r).ring 0 0).retried = r ∧
      ((fetching r).part 0).dev.timeoutOff = false ∧ ((fetching r).endRequest fetch1 .timeout).2.isSome = true ∧
      ((fetching r).endRequest fetch1 (.data (List.replicate 64 1))).2 = some (.data (List.replicate 64 1))) ∧
    (({ fetching false with dma := [fetch1, { fetch1 with id := 8 }] } : State).endRequest fetch1 (.data (List.replicate 64 1))).2 = none ∧
    (let d : DmaRead := { id := 8, purpose := .command 0 1, addr := 0, len := 64, sent := true, read := 8 }
     (({ withPart openPart with dma := [d] } : State).dma.find? fun x => x.id == d.id && x.open) = some d ∧ (List.replicate 64 (0 : Byte)).length = d.len ∧
     (({ withPart openPart with dma := [d] } : State).endRequest d (.data (List.replicate 64 0))).2 = some (.data (List.replicate 64 0))) := by
  refine ⟨?_, ?_, ?_, ?_⟩
  · repeat' apply And.intro
    all_goals decide +kernel
  · unfold State.Rising; decide +kernel
  · decide +kernel
  · decide +kernel

theorem witness_LinkAndPowerEvents :
    (let s := withPart {}
     s.Rising ∧ s.map.hasPart 0 = true ∧ s.boot.phase = .running ∧ (s.part 0).ready = false ∧ s.held 0 = false) ∧
    ((withPart openPart).part 0).ready = true ∧ (withPart openPart).linkHeld 0 true = false ∧ (withPart {}).linkHeld 0 true = false ∧
    ((withPart openPart).part 0).dstate = .d0 ∧
    (let s := withPart { openPart with dstate := .d3hot, pmeTick := some 490000000, pmeStatus := true }
     (s.part 0).pmeTick = some 490000000 ∧ (s.part 0).dstate = .d3hot ∧ (s.part 0).pmeStatus = true ∧
     490000000 + 10000000 = s.tick) ∧
    (let s := withPart { openPart with aspmEn := true, idleTick := 499996800 }
     s.map.partsOf 0 = [0] ∧ (s.part 0).linkUp = true ∧ (s.part 0).aspmEn = true ∧ (s.part 0).idleTick + 3200 = s.tick ∧ s.dma = [] ∧
     (s.bridge 0).guestPosted = []) := by
  repeat' apply And.intro
  all_goals decide +kernel

theorem witness_ResetsAndHeldWrites :
    (let s := withPart { openPart with rings := [(0, { state := .active })], shapers := [(1, {})],
                                       vectors := [(255, { pending := true, addr := 4, data := 9 })] }
     s.Rising ∧ s.map.partsOf 0 = [0] ∧ s.map.hasPart 0 = true ∧ (s.part 0).ready = true ∧ s.linksLive = true ∧ s.held 0 = false ∧ s.hostOpen 0 = true ∧ s.bellsPass = true ∧
     s.linkHeld 0 false = false ∧ s.linkHeld 0 true = false ∧ (4092 : BitVec 13).toNat = 16 * (255 : Fin 256).val + 12 ∧ (s.part 0).dmaOk = true ∧ (s.part 0).funcMask = false ∧
     (s.part 0).vectors = [((255 : Fin 256).val, { pending := true, addr := 4, data := 9 })] ∧ (2 : W32).getLsbD 0 = false) ∧
    linkFalls .hotReset = true ∧ linkFalls (.perst true) = true ∧ linkFalls (.perst false) = false := by
  repeat' apply And.intro
  all_goals decide +kernel

/-- Ring 0 with four completions not yet released, of which none is held. -/
def ringed : State := withPart { openPart with rings := [(0, { state := .active, cqHead := 3, unreleased := 4 })] }

theorem witness_DoorbellsRingZeroAndHeartbeat :
    ringed.Rising ∧ ringed.hostOpen 0 = true ∧ ringed.linkHeld 0 false = false ∧ (ringed.ring 0 0).state ≠ .absent ∧
    (field (15 : W32).toNat 11 0 + 1 = (ringed.ring 0 0).size) ∧ (ringed.ring 0 0).size ≤ field (16 : W32).toNat 11 0 ∧
    ((ringed.ring 0 0).cqSize = 16 ∧ (7 + 16 - 3) % 16 = ringed.written 0 0 ∧ ringed.written 0 0 < (8 + 16 - 3) % 16) ∧
    (let s := withPart { openPart with rings := [(0, { state := .active, retryTick := some 499999000 })] }
     (s.ring 0 0).retryTick = some 499999000 ∧ 499999000 + 1000 = s.tick) ∧
    (((withPart openPart).part 0).admEn = false ∧ (0x80000404 : W32).getLsbD 31 = true ∧
      logsOk (field (0x80000404 : W32).toNat 3 0) (field (0x80000404 : W32).toNat 11 8) = true ∧ ((withPart openPart).part 0).session ≠ .closed) ∧
    (let s := { withPart { openPart with hbTick := 0, hbMs := 5000 } with drops := [(0, active)] }
     s.heartbeatDue 0 = true ∧ s.boot.coreDown = [] ∧ s.owns 0 0 = true ∧ (s.drop 0).state = .active) := by
  repeat' apply And.intro
  all_goals decide +kernel

theorem witness_BridgeEventsHappen :
    (let s := withPart openPart
     s.Rising ∧ s.hostOpen 0 = true ∧ s.linkHeld 0 false = false ∧ (s.bridge 0).semOwner = .none ∧ (s.bridge 0).semWaiting = [] ∧ s.staleItem 0 = none) ∧
    (let s := withPart { openPart with bridge := { openPart.bridge with semOwner := .host, semExpiry := some 500000000 } }
     (s.bridge 0).semOwner ≠ .none ∧ (s.bridge 0).semOwner = .host ∧ (s.bridge 0).semExpiry = some s.tick) ∧
    (let a : ReadAhead := { words := [(1, 2)], destructive := true, tick := 499990000 }
     let s := withPart { openPart with bridge := { openPart.bridge with windows := [(0, { win with ahead := some a })] } }
     s.win 0 0 = some { win with ahead := some a } ∧ a.tick + 10000 = s.tick) ∧
    (let it := { item with arrival := 0 }
     let s : State := { withPart { openPart with bridge := { openPart.bridge with items := [it] } } with segs := [(0, segOn)], drops := [(0, active)] }
     s.staleItem 0 = some it ∧ (s.bridge 0).items = [it] ∧ it.cmds.length = 1 ∧ it.staleSeen = false) := by
  repeat' apply And.intro
  all_goals decide +kernel

/-! ### Event controller, guard registers, faults -/

/-- The event controller with sources l, groups g and core states c. -/
def events (l : Tbl Source) (g : Tbl Group := []) (c : Tbl EvcCore := []) (p : Partition := openPart) : State :=
  { withPart p with evc := { up.evc with sources := l, groups := g, cores := c } }

theorem witness_ArrivalsCommitsAndDeliveries :
    (let s := events [(3062, { mask := true, count := 255 })]
     s.Rising ∧ (0 : CtlCore).val < 2 ∧ (s.pair 10).active = [] ∧ (0xBF6 : W32).getLsbD 31 = false ∧ field (0xBF6 : W32).toNat 11 0 = 3062 ∧
     reservedSource 3062 = false ∧ (s.source 3062).mask = true ∧ field (0xBFF : W32).toNat 11 0 = 3071 ∧ reservedSource 3071 = true) ∧
    (let s := events [(5, { mask := false, pending := true })] [(0, { expiry := some 500000000 })]
     (s.group 0).expiry = some s.tick ∧ groupOf 5 = 0 ∧ (s.source 5).pending = true ∧ (s.source 5).mask = false ∧ (s.source 5).window = none) ∧
    (let x : Source := { mask := false, window := some (500000000, .vector 0 3), fired := true }
     let s := events [(1, x)] [] [] { openPart with vectors := [(3, { mask := false, addr := 4, data := 9 })] }
     s.evc.sources = [(1, x)] ∧ x.window = some (s.tick, .vector 0 3) ∧ x.pending = false ∧ s.evc.cores = [] ∧ (s.part 0).dstate = .d0 ∧
     (s.part 0).bme = true ∧ (s.part 0).funcMask = false ∧ (tblGet {} (s.part 0).vectors 3).mask = false) := by
  repeat' apply And.intro
  all_goals decide +kernel

theorem witness_EventRegistersAreWritten :
    let s := events [(2816, { count := 3 })] [] [(0, { delivered := [3, 9] })] { openPart with evcSel := 2816 }
    s.Rising ∧ (s.pair 10).active = [] ∧ s.hostOpen 0 = true ∧ s.linkHeld 0 false = false ∧ s.sourceOwner (s.part 0).evcSel.toNat = some 0 ∧ groupOf 2816 = 88 + 0 ∧
    s.evc.routeSel.toNat < 3072 ∧ (s.evcCore 0).priv = [] ∧ (s.evcCore 0).delivered = 3 :: [9] := by
  repeat' apply And.intro
  all_goals decide +kernel

theorem witness_GuardRegistersAct :
    (let s : State := { withPart openPart with pairs := [(0, { buffer := guardEntry eGuard, index := 5 })] }
     s.Rising ∧ tblRising s.flt.faults = true ∧ tblRising (s.pair 0).addrHi = true ∧ (s.pair 10).active = [] ∧ (1 : W32).getLsbD 0 = true ∧ regionOf (s.pair 0).buffer = some region ∧
     s.loadError 0 (s.pair 0).index.toNat (s.pair 0).buffer region = none) ∧
    (let s : State := { withPart openPart with pairs := [(0, { buffer := guardEntry eGuard, index := 5, bankB := [(3, guardEntry eGuard)] })] }
     (s.loadError 0 (s.pair 0).index.toNat (s.pair 0).buffer region).isSome) ∧
    (({} : BankPair).buffer.getLsbD 5 = false) ∧ (0xC0000000 : W32).getLsbD 31 = true := by
  repeat' apply And.intro
  all_goals decide +kernel

/-- An entry of bank pair 10 that grants reads alone in the 64 bytes of control space where EVC_DOORBELL stands. -/
def noBells : BitVec 128 := guardEntry (entry 0x68 0 [(0x10, 0x29 + 0x10010000), (0x18, 0x10010000)])

def belled (v : Bool) : State :=
  { withPart openPart with pairs := [(10, { bankA := [(0, noBells)], cap := { valid := v } })], cc := [(0, { state := .running, wdogTick := 450000000 })] }

theorem witness_ViolationsAreCapturedOnce :
    (withPart openPart).Rising ∧ tblRising (withPart openPart).flt.faults = true ∧ ((withPart openPart).pair 0).cap.valid = false ∧
    (({ withPart openPart with pairs := [(0, { cap := { valid := true, count := 65535 } })] } : State).pair 0).cap.valid = true ∧
    (∀ v ∈ [false, true],
     let s := belled v
     s.Rising ∧ tblRising s.flt.faults = true ∧ s.bellsPass = false ∧ (s.pair 10).cap.valid = v ∧ (s.cust 0).state = .running ∧
     (s.cust 0).wdogHalf = false ∧ (s.cust 0).wdogTick + s.wdogMs 0 * 100000 / 2 = s.tick) := by
  refine ⟨?_, ?_, ?_, ?_, ?_⟩
  · repeat' apply And.intro
    all_goals decide +kernel
  · decide +kernel
  · decide +kernel
  · decide +kernel
  · unfold State.Rising; decide +kernel

/-- The open partition's unit with fault state f. -/
def faulted (f : Flt → Flt) : State := { withPart openPart with flt := f up.flt }

theorem witness_FaultRegistersAndIntervals :
    (let s := faulted fun f => { f with faults := [(0x10, { sticky := true, rep := 3, firstTime := 77 })] }
     s.Rising ∧ tblRising s.flt.faults = true ∧ tblRising s.flt.firstHi = true ∧ (s.pair 10).active = [] ∧ s.hostOpen 0 = true ∧ s.linkHeld 0 false = false ∧ (1 : W32).getLsbD 0 = true ∧ (1 : W32).getLsbD 1 = false ∧
     (s.faultRec 0x010).live = false ∧ (s.faultRec 0x010).sticky = true) ∧
    ((faulted fun f => { f with faults := [(0x10, { sticky := true, live := true })] }).faultRec 0x010).live = true ∧
    (let s := faulted fun f => { f with winDrop := { thresh := 3, bucketMs := 5, next := some (5000000000, 9, 8) } }
     (s.flt.winCfg 4).next = some (s.now, 9, 8)) ∧
    (let s := faulted fun f => { f with coalesce := [(coalesceKey 0 3, { until_ := 500000000, count := 0, detail := 0 }),
                                                     (coalesceKey 4 3, { until_ := 500000000, count := 2, detail := 0 })] }
     tblFind s.flt.coalesce (coalesceKey 0 3) = some { until_ := s.tick, count := 0, detail := 0 } ∧
     tblFind s.flt.coalesce (coalesceKey 4 3) = some { until_ := s.tick, count := 2, detail := 0 }) ∧
    (({ withPart openPart with segs := [(0, { retired := true })] } : State).seg 0).retired = true ∧
    (({ withPart openPart with cores := [(0, { retired := true })] } : State).core 0).retired = true ∧
    (((withPart openPart).part 0).logRing.en = false ∧ 6 = field (0x80000006 : W32).toNat 3 0 ∧ field (0x8000000E : W32).toNat 3 0 = 14) ∧
    (let s := withPart { openPart with logRing := { en := true, log2 := 6, head := 2, tail := 7 } }
     ((s.part 0).logRing.releases (field (7 : W32).toNat 13 0)).isSome ∧ ((s.part 0).logRing.releases (field (8 : W32).toNat 13 0)).isSome = false) := by
  repeat' apply And.intro
  all_goals decide +kernel

theorem witness_FaultsStickWithTheirFirstRecord :
    tblRising (withPart openPart).flt.faults = true ∧ ((withPart openPart).faultRec 0x20).sticky = false ∧
    ((faulted fun f => { f with faults := [(0x20, { sticky := true, rep := 65535 })] }).faultRec 0x20).sticky = true := by decide +kernel

/-! ### Plant, network, composition, decoding -/

theorem witness_SupplyTemperatureAndFailures :
    (up.Rising ∧ tblRising up.flt.faults = true ∧ up.powered = true ∧ up.plant.warn = false) ∧
    (let s : State := { up with plant := { up.plant with warn := true, halted := true, restoreTick := some 490000000 } }
     s.powered = true ∧ s.plant.warn = true ∧ s.plant.halted = true ∧ s.plant.restoreTick = some 490000000 ∧ 490000000 + 10000000 = s.tick) ∧
    959 < 960 ∧ 960 ≤ up.plant.psuLimit.toNat ∧ (up.faultRec 0x003).live = false ∧
    ({ up with boot := { up.boot with phase := .tripped } } : State).boot.phase = .tripped ∧
    (tblRising up.plant.fans = true ∧ tblGet false up.plant.fans 3 ≠ true) ∧ tblFind up.boot.coreDown 0 = none ∧ up.inTrial = false ∧
    (let s : State := { up with boot := { up.boot with coreDown := [(0, 5)] } }
     tblRising s.boot.coreDown = true ∧ tblFind s.boot.coreDown 0 = some 5) ∧
    ({ up with out := [.memWrite 0 0 [1]] } : State).out[0]? = some (.memWrite 0 0 [1]) := by
  repeat' apply And.intro
  all_goals decide +kernel

theorem witness_PowerGrantsFitThePool :
    [0, 100, 0, 0, 0, 0].length = 6 ∧ sumNat [50, 50, 0, 0, 0, 0] ≤ 100 ∧ up.powered = true ∧ up.plant.grantTick = none := by decide

theorem witness_NetworkPortsFollowDhcp :
    up.powered = true ∧
    (let s : State := { up with plant := { up.plant with timing := { requestTick := some 5, lastRequest := some 5 } }, tb := { up.tb with tick := 1000000005 } }
     s.plant.timing.requestTick = some 5 ∧ s.plant.timing.lastRequest = some 5 ∧ 5 + 1000000000 = s.tick ∧ s.plant.timing.addr = none) ∧
    (let s : State := { up with plant := { up.plant with service := { requestTick := some 5, lastRequest := some 2000000005 } },
                                tb := { up.tb with tick := 3000000005 } }
     s.plant.service.requestTick = some 5 ∧ s.plant.service.addr = none ∧ s.plant.service.lastRequest = some 2000000005 ∧
     2000000005 + 1000000000 = s.tick ∧ 5 + 3000000000 = s.tick) ∧
    (let s : State := { up with plant := { up.plant with timing := { addr := some (0x0A000001, 24, 0x0A0000FE), leased := true } } }
     s.plant.timing.leased = true ∧ s.plant.timing.addr.isSome) ∧
    (let s : State := { up with plant := { up.plant with service := { addr := some (1, 2, 3) } } }
     s.plant.svcClient = false ∧ s.plant.service.addr.isSome) := by
  repeat' apply And.intro
  all_goals decide +kernel

/-- Drop 0, 2 × 2 pixels, is composed for the cycle that starts at 5 s: its compose instant is 2 ms before. -/
def small : Descriptor := { panel with width := 2, height := 2 }
def composing (d : Drop) : State :=
  drops { d with desc := some small }
    { segOn with started := true, cycleTick := 500000000, cycleStartNs := 5000000000, beginNs := 5000000000, endNs := 5020000000,
                 calendar := [(5, calWord 24000 24000 0 1 0 0)] }
/-- A pass of drop 0 for T = 5.04 s with a black surface, and the unit k ticks later with that pass. -/
def noCal : CalSet := { width := 2, height := 2, chan := false, reservedZero := true, matrix := [], oetf := [], gains := [] }
def pass0 : Pass :=
  { kNs := 5018000000, tNs := 5040000000, surface := {}, frames := [], images := [], imageIds := [], size := (2, 2), origin := (0, 0), fbImage := none, cal := noCal }
def later (s : State) (k : Nat) : State := { s with tb := { s.tb with tick := s.tb.tick + k, acc := s.tb.acc + BitVec.ofNat 96 (10 * k * 4294967296) } }
def passing (k : Nat) : State :=
  let s := later (composing { active with passes := [pass0] }) k
  s.onSeg 0 fun x => { x with cycleStartNs := 5020000000, beginNs := 5020000000, endNs := 5040000000 }

theorem witness_PassesAreComposed :
    ((composing active).Rising ∧ tblRising (composing active).flt.faults = true ∧ (composing active).composed 0 = true ∧
      ((composing active).drop 0).canvas = none ∧ (composing active).instantDue 0 = true) ∧
    (let s := drops active { runs 0 with calendar := [(5, calWord 24000 24000 0 3 0 0)] }
     s.instantDue 0 = true ∧ s.composed 0 = false) ∧
    (let s := composing { active with instantT := some ((composing active).composeT 0) }
     s.instantDue 0 = false) ∧
    (((passing 4000000).drop 0).passes = pass0 :: [] ∧ (passing 4000000).passLate 0 pass0 = true) ∧
    (((passing 2000000).drop 0).passes = pass0 :: [] ∧ (passing 2000000).passLate 0 pass0 = false ∧ (passing 2000000).backFree 0 pass0 = true ∧
      (passing 2000000).passServed 0 pass0 = true ∧ ((passing 2000000).drop 0).activeAt = none) ∧
    (((passing 4000000).drop 0).passes = pass0 :: [] ∧
      ((passing 4000000).passEnd 0 pass0.tNs).map (fun d => decide (((pass0.tNs - (passing 4000000).cycleNs 0 : Nat) : Int) * 12 + d ≤
        ((passing 4000000).now : Int) * 12)) = some true) := by
  repeat' apply And.intro
  all_goals decide +kernel

/-- A Wafer drop of 2 × 2 pixels in Colant-2 mode with a Wafer slot at index 5, in a cycle k ticks old. -/
def wafered (k : Nat) : State :=
  let s := drops { active with desc := some small, colant2 := true, wafer := 2, back := List.replicate 12 0,
                               waf := { ref := List.replicate 12 0, prevCodes := List.replicate 12 0 } }
    (runs k [(5, calWord 24000 24000 0 2 1 0)])
  { s with waf := { s.waf with released := [(0, 5)] } }
def jobOut : WafOut := { index := 5, ver := 2, slices := [], budget := 24000, sent := false }

theorem witness_WaferJobsRunOnLanes :
    (let s := wafered 19000
     let e := entrySlot 5 (calWord 24000 24000 0 2 1 0)
     s.Rising ∧ tblRising s.flt.faults = true ∧ tblRising s.waf.running = true ∧ s.freeLane = some 0 ∧ s.slotAt 0 5 = some e ∧
     s.waf.released.contains (0, 5) = true ∧ s.jobOpen 0 5 = true ∧ s.jobFirst 0 5 = true) ∧
    (let s : State := { wafered 1000 with waf := { running := [(2, { drop := 0, index := 5, out := some jobOut })] } }
     tblFind s.waf.running 2 = some { drop := 0, index := 5, out := some jobOut }) ∧
    ((wafered 20000).seg 0).started = true ∧ (entrySlot 5 (calWord 24000 24000 0 2 1 0)).start ≤ (wafered 20000).offsetNow 0 ∧
    ((wafered 1000).pair 10).active = [] := by
  repeat' apply And.intro
  all_goals decide +kernel

/-- A picture of 64 × 32 pixels that is output at once and needs no random access point. -/
def picture : PictureInfo :=
  { randomAccess := false, leadingSkipped := false, refs := [], refsAfter := [0], field := none, bottom := false, forOutput := true, outputs := [0], profile := 1, width := 64,
    height := 32, depth := 8, chroma := 1, framesNeeded := 2, colour := { primaries := 1, transfer := 1, matrix := 1, full := none, siting := none }, errors := [], pictureTicks := 100,
    sequenceStart := false, setsUsed := [0], setsValid := [], hidden := [], existing := none }
def frame (n t : Nat) : Frame :=
  { uid := n, slot := 5, n := n, codec := 2, op := 0, grain := true, pictures := [], pts := t, width := 64, height := 32, depth := 8, mono := false,
    colour := { prim := 0, trans := 0, matrix := 0, full := false, topLeft := false }, concealed := false, tainted := false, chosen := false, availTick := 0 }
/-- Slot 0 holds stream x; the core error window does not act. -/
def decoding (x : Stream) (f : Flt → Flt := id) : State :=
  { withPart openPart with streams := [(0, x)], flt := f { up.flt with winCore := { up.flt.winCore with thresh := 0 } } }

theorem witness_PicturesAreDecoded :
    (let s := decoding strRun
     s.Rising ∧ s.stream 0 = some strRun ∧ strRun.state = .running ∧ strRun.queue = unit1 :: [] ∧ strRun.paused = false ∧
     s.outranked 0 strRun picture.pictureTicks picture.field.isSome = false ∧ unit1.readFailed = false ∧ unit1.discontinuity = false ∧ unit1.endOfStream = false ∧
     strRun.fieldOpen = none ∧ strRun.needRap = false ∧ (∀ n ∈ picture.setsUsed, n ∉ strRun.badSets) ∧ picture.hidden = [] ∧ picture.existing = none ∧ strRun.failure picture = none ∧ strRun.lowDelay = false ∧ picture.outputs = [strRun.frames] ∧
     strRun.heldForEos = [] ∧ bitOf strRun.flags 1 = false ∧ unitErrorCount picture = 0 ∧ strRun.failure { picture with width := 1921 } = some 2) ∧
    ((decoding { strRun with needRap := true }).stream 0 = some { strRun with needRap := true }) ∧
    (let x := { strRun with paused := true, avail := [frame 1 10, frame 2 20] }
     (decoding x).stream 0 = some x ∧ x.paused = true) ∧
    (let s := decoding strRun fun f => { f with retryCore := 0 }
     strRun.pictureOn 0 < strRun.queue.length ∧ 0 ∈ strRun.coreList ∧ s.flt.winCore.thresh = 0 ∧
     s.flt.retryCore ≤ ((strRun.queue.drop (strRun.pictureOn 0)).head?.map (·.retries)).getD 0) ∧
    (((strRun.queue.drop (strRun.pictureOn 0)).head?.map (·.retries)).getD 0 < (decoding strRun).flt.retryCore) ∧
    (let s : State := { decoding strRun with flt := { up.flt with winCore := { up.flt.winCore with thresh := 1 } } }
     s.flt.winCore.thresh ≠ 0 ∧ (s.addError 2 0).windowCount 2 0 = s.flt.winCore.thresh) := by
  repeat' apply And.intro
  all_goals decide +kernel

/-! ### The Retriever and telemetry -/

/-- An answer of drop 0 is in, its drop as f gives it; the drop error window does not act. -/
def answer (who : TxFor) (ws : List W16) : RtvIn := { who := who, drop := 0, words := ws, tick := 0 }
def answered (a : RtvIn) (f : Drop → Drop := id) : State :=
  { drops (f active) { segOn with rtvIn := [a] } with flt := { up.flt with winDrop := { up.flt.winDrop with thresh := 0 } } }
def crcs (d : Drop) : Drop := { d with expected := [(7, List.replicate 64 0)], thumb := { seq := some 7 } }
/-- The drop's one telemetry descriptor: FORMAT 1, QUANT 3, VALUE 4, E 7. -/
def tlm : List W16 := [0x1347, 2, 3]

def thumbJob : ThumbJob := { drop := 0, seq := 7, words := [] }

theorem witness_RetrieverAnswersAndRegisters :
    (let a := answer .rtvCrc [0]
     (answered a).Rising ∧ ((answered a).seg 0).rtvIn = [a] ∧ (answered a).owner 0 = some 0 ∧ a.valid = false) ∧
    (∀ ws ∈ [List.replicate 128 0, 1 :: List.replicate 127 0],
     let a := answer .rtvCrc (0x0780 :: ws)
     ((answered a crcs).seg 0).rtvIn = [a] ∧ a.valid = true ∧ ((answered a crcs).drop 0).expected.find? (fun e => e.1 == a.seq) = some (7, List.replicate 64 0) ∧
     (((List.range 64).filter fun n => (List.replicate 64 (0 : W32)).getD n 0 != (reportedCrcs (a.words.drop 1)).getD n 0) = [] ↔ ws.headD 1 = 0) ∧
     (answered a crcs).flt.winDrop.thresh = 0) ∧
    (let a := answer (.rtvChunk 3) [0]
     ∀ r ∈ [answer .rtvCrc [0], answer .telemetry [5]], r.who ≠ a.who ∧ (a.who.chunk.isSome = true → r.who.chunk = none)) ∧
    ((answer .rtvCapture [0x0780]).valid = true ∧ (answer .rtvCapture [0]).valid = false) ∧
    (let a := answer (.rtvChunk 0) (0x0780 :: List.replicate active.chunkWords 3)
     a.valid = true ∧ ((answered a crcs).drop 0).thumb.seq = some a.seq ∧ (a.words.headD 0).toNat % 16 = 0 ∧ a.words.length = 1 + active.chunkWords ∧
     ((answered a crcs).drop 0).thumb.chunks = [] ∧ ((answered a).drop 0).thumb.seq ≠ some a.seq) ∧
    (let a := answer (.rtvChunk 8) (0x0788 :: List.replicate active.chunkWords 3)
     let d := (answered a fun d => { d with thumb := { seq := some 7, chunks := (List.range 8).map fun c => (c, []) } }).drop 0
     a.valid = true ∧ d.thumb.seq = some a.seq ∧ (a.words.headD 0).toNat % 16 = 8 ∧ a.words.length = 1 + d.chunkWords ∧
     d.thumb.chunks.length = 8 ∧ ∀ e ∈ d.thumb.chunks, e.1 < 8) ∧
    (((drops { active with thumb := { next := some 500000000 } }).drop 0).thumb.next = some up.tick) ∧
    (let s : State := { withPart openPart with encoder := [thumbJob], drops := [(0, active)] }
     s.encoder = thumbJob :: [] ∧ thumbJob.drop = (0 : DropId).val ∧ s.owner 0 = some 0 ∧ encodeAt (min 51 (s.part 0).rtv.qp) [] = none ∧
     (encodeAt (min 51 (s.part 0).rtv.qp) [16320]).isSome = true ∧ encodeAt 30 [16321] = none ∧ encodeAt 46 [20000, 17000] = some (51, 17000) ∧ (s.part 0).rtv.freeSlot = none) ∧
    (let s : State := { withPart { openPart with rtvRing := { en := true, log2 := 6, head := 2, tail := 7 }, rtv := { usedSlots := [(0, 3)], slots := 5 } } with
       encoder := [thumbJob], drops := [(0, active)] }
     (s.part 0).rtv.freeSlot = some 1 ∧ (s.part 0).rtvRoom = true ∧ (s.part 0).rtvRing.lostSince = 0) ∧
    (let s := drops { active with tlmDue := some 500000000, tlmInt := 5, tlmStatic := tlm }
     ((List.range 1).all fun w => s.blockOk .read 2 (colantAddr 0 0 (0xFFFF50 + w))) = true ∧ (s.drop 0).tlmStatic.length / 3 = 1 ∧
     (let t : State := { s with pairs := [(10, { bankA := [(0, guardEntry (entry 0x68 0 [(0x10, 0x30 + 0x1FFFE80), (0x18, 0x1FFFEC0)]))] })] }
      t.Rising ∧ ((List.range 1).all fun w => t.blockOk .read 2 (colantAddr 0 0 (0xFFFF50 + w))) = false) ∧
     (s.drop 0).tlmDue = some s.tick ∧ (s.drop 0).found = true ∧ (s.drop 0).state ≠ .retired ∧ (s.drop 0).tlmInt ≠ 0 ∧ 3 ≤ (s.drop 0).tlmStatic.length) ∧
    (let a := answer .telemetry [5]
     let s := answered a fun d => { d with tlmStatic := tlm }
     s.Rising ∧ (s.seg 0).rtvIn = [a] ∧ a.words.length ≤ 8 ∧ (tlmValue 0x1347 2 3 5).sat = false) ∧
    ((withPart openPart).hostOpen 0 = true ∧ (withPart openPart).linkHeld 0 false = false ∧ ((withPart openPart).part 0).rtvRing.en = false ∧ field (5 : W32).toNat 3 0 < 6 ∧
      14 < field (15 : W32).toNat 3 0) ∧
    (let ring := (withPart { openPart with rtvRing := { en := true, log2 := 6, head := 2, tail := 7 } }).part 0 |>.rtvRing
     ring.en = true ∧ field (7 : W32).toNat 13 0 < ring.size ∧ (7 + ring.size - ring.head) % ring.size = (ring.tail + ring.size - ring.head) % ring.size) ∧
    ((drops active).owns 0 ((drops active).part 0).rtv.dropSel.toNat = true ∧
      ({ drops active with boot := { up.boot with map := { up.boot.map with owner := [] } } } : State).owns 0 0 = false) := by
  repeat' apply And.intro
  all_goals decide +kernel

theorem witness_TelemetryValuesAreRoundedOnce :
    (1 = field (0x1447 : W16).toNat 15 12 ∧ field (0x1447 : W16).toNat 11 8 = 4) ∧ (field (0x5447 : W16).toNat 15 12 = 5) ∧
    field (0x0447 : W16).toNat 15 12 = 0 ∧ 5 < field (0x6447 : W16).toNat 15 12 ∧ field (0x1047 : W16).toNat 11 8 = 0 ∧
    6 < field (0x1747 : W16).toNat 11 8 := by decide

/-! ### Customer cores, start-up, service, registers -/

/-- A bare image for customer core 0: version 3, 4 bytes of code, ENTRY 0, KEY_ID 0, TARGET 2. -/
def image0 : CustImage :=
  { bytes := [0x57, 0x4B, 0x46, 0x43, 1, 0, 0, 0, 3, 0, 0, 0, 4] ++ List.replicate 16 0 ++ [2] ++ List.replicate 226 0 ++ [1, 2, 3, 4] }
/-- Customer core 0 as f gives it, with 1 MiB of memory and key 5, serving drop 0. -/
def custom (f : CustomerCore → CustomerCore) : State :=
  { up with cc := [(0, f {})], drops := [(0, active)],
            boot := { up.boot with map := { up.boot.map with ccKeys := [(0, [5])], cmemMiB := [(0, 1)], assigned := [(0, 0)] } } }

theorem witness_CustomerCoresRunAndPublish :
    (let s := custom fun x => { x with startDue := true, slotA := some image0 }
     s.Rising ∧ (s.cust 0).startDue = true ∧ s.cmemBytes 0 ≠ 0 ∧ s.boot.phase = .running ∧
     (s.cust 0).activatedTick = none ∧ tblRising (s.evcCore 2).priv = true) ∧
    (let s := custom fun x => { x with startDue := true }
     s.loadErr 0 (s.cust 0).image ≠ 0 ∧ (s.cust 0).activatedTick = none) ∧
    (let s := custom fun x => { x with state := .running, wdogTick := 450000000 }
     (s.cust 0).task = false ∧ (s.cust 0).state = .running ∧ (s.cust 0).wdogHalf = false ∧ (s.cust 0).wdogTick + s.wdogMs 0 * 100000 / 2 = s.tick) ∧
    (let s := custom fun x => { x with state := .running, task := true }
     let a : TaskAccess := { kind := 1, space := 1, addr := 0x10010000 }
     s.Rising ∧ (s.cust 0).task = true ∧ ((s.pair 8).user 1 0x10010000 (TaskAccess.acc a)).2 = false ∧ (s.pair 8).cap.valid = false ∧
     (let t : State := { s with pairs := [(8, { bankA := [(0, guardEntry (entry 0x68 0 [(0x10, 0x2B + 0x10010000), (0x18, 0x10010000)]))],
                                                cap := { valid := true, count := 65535 } })] }
      t.Rising ∧ ((t.pair 8).user 1 0x10010000 (TaskAccess.acc a)).2 = true ∧ ((t.pair 8).user 1 0x10010040 (TaskAccess.acc a)).2 = false ∧
      (t.pair 8).cap.valid = true)) ∧
    (let s := custom fun x => { x with state := .running, wdogTick := 400000000 }
     (s.cust 0).wdogTick + s.wdogMs 0 * 100000 = s.tick ∧
     ((s.tick :: (s.cust 0).expiries).filter fun k => decide (s.tick ≤ k + 60000000000)).length < 4) ∧
    (let s := custom fun x => { x with state := .running, wdogTick := 400000000, expiries := [490000000, 480000000, 470000000] }
     ((s.tick :: (s.cust 0).expiries).filter fun k => decide (s.tick ≤ k + 60000000000)).length = 4 ∧ (s.cust 0).activatedTick = none) ∧
    (let s := custom fun x => { x with restartAt := some 500000000, slotA := some image0 }
     (s.cust 0).restartAt = some s.tick ∧ (s.cust 0).activatedTick = none) ∧
    (let s := custom fun x => { x with state := .running, tmrEn := 8, timers := [(3, { cmp := 5000000000 })] }
     s.servedBy 0 = some 0 ∧ ((s.composeDue [0]).drop 0).fb.queued = false ∧ s.servedBy 1 ≠ some 0 ∧ (s.cust 0).tmrEn.getLsbD 3 = true ∧
     ((s.cust 0).timer 3).cmp.toNat = s.now ∧ tblRising (s.cust 0).timers = true) := by
  repeat' apply And.intro
  all_goals decide +kernel

/-- The unit with its boot state as f gives it. -/
def booting (f : Boot → Boot) : State := { up with boot := f up.boot }

theorem witness_StartUpRuns :
    (up.Rising ∧ tblRising up.flt.faults = true) ∧ (booting fun b => { b with phase := .off }).boot.phase = .off ∧
    (up.boot.trialFails false = false ∧ ({ up.boot with fwB := .trial, fuse := 1 } : Boot).trialFails false = true ∧
      ({ up.boot with fwB := .trial, fuse := 1 } : Boot).trialFails true = false) ∧
    (let cal := [(5, calWord 24000 24000 0 1 0 0)]
     let s : State := { booting fun b => { b with phase := .starting, map := { b.map with bootCal := [(0, cal)] } } with
       segs := [(0, segOn)], drops := [(0, active)], plant := { up.plant with pool := 60000 } }
     let b := s.onBoot fun x => { x with bootCalDone := insertAsc x.bootCalDone 0 }
     s.boot.phase = .starting ∧ (s.seg 0).enumerated = true ∧ s.bootSegs.contains 0 = true ∧ s.boot.bootCalDone.contains 0 = false ∧
     (s.bootSegs.filter fun k => decide (k < 0)).all (fun k => s.boot.bootCalDone.contains k) = true ∧
     (b.decideBoot 0 (b.swapInstant 0) cal).bootRefused 0 cal = false) ∧
    (booting fun b => { b with copyDue := true }).boot.copyDue = true ∧
    (let s : State := { booting fun b => { b with phase := .starting, pagesCopied := true, bootCalDone := List.range 64 } with
       segs := (List.range 64).map fun i => (i, segOn), drops := [(0, active)] }
     s.Rising ∧ s.boot.phase = .starting ∧ s.startUpDone = true ∧ s.boot.fwFaultDue = false) ∧
    (let s := booting fun b => { b with phase := .starting, fwB := .trial, startTick := 300000000 }
     s.boot.trial = some true ∧ s.boot.phase = .starting ∧ s.boot.startTick + 200000000 = s.tick) ∧
    (let s : State := { booting fun b => { b with doneTick := some 100, fwB := .trial } with tb := { up.tb with tick := 60000000100 } }
     s.boot.trial = some true ∧ s.boot.phase = .running ∧ s.boot.doneTick = some 100 ∧ 100 + 60000000000 = s.tick) := by
  repeat' apply And.intro
  all_goals decide +kernel

/-- A state with a client on the service port. -/
def served (s : State) : State := { s with plant := { s.plant with svcClient := true } }
def set2 : CalSet :=
  { width := 64, height := 32, chan := false, reservedZero := true, matrix := List.replicate 9 0, oetf := [List.range 1025],
    gains := List.replicate (5 * 3) 2048 }
def page1 : Image := { format := 1, colour := 7, width := 1, height := 1, pixels := [0] }

/-- A CRC-32 that is not the set's. -/
theorem witness_wrong_set_crc : ∃ crc : W32, crc ≠ crc32 (calBytes set2) := by
  generalize crc32 (calBytes set2) = x
  exact ⟨x + 1, by bv_omega⟩

theorem witness_ServiceConfiguration :
    ((served up).powered = true ∧ (served up).plant.svcClient = true ∧ (served up).plant.svcBusy = false ∧ (served up).plant.warn = false) ∧
    (mapRanged PartMap.factory = true ∧ (served up).mapRefusal PartMap.factory = none) ∧
    ((served up).mapRefusal { PartMap.factory with owner := [(0, 511, 0), (512, 515, 1)] }) = some 116 ∧
    mapRanged { PartMap.factory with owner := [(5, 4, 0)] } = false ∧
    (let m : PartMap := { (served up).boot.stored with
       bootCal := ((List.range 64).map fun i => (i, bareCalendar ((served up).seg i).calendar)).filter fun x => !x.2.isEmpty }
     (served up).mapRefusal m = none) ∧
    ({ version := 0, signatureOk := true } : FwImage).signatureOk = true ∧ (served up).boot.fuse = 0 ∧
    ((served (booting fun b => { b with fwB := .good })).boot.slot (!up.boot.useB) = .good) ∧
    ((served (booting fun b => { b with doneTick := some 100, fwB := .trial })).boot.trial = some true ∧ (served up).boot.trial = none) ∧
    (let s := served (custom id)
     headerOk image0 = true ∧ (tblGet [] s.map.ccKeys 0)[image0.keyId]? = some 5 ∧ targetOk 0 image0 = true ∧ headerOk { bytes := image0.bytes.dropLast } = false ∧
     s.cmemBytes 0 ≠ 0 ∧ (served up).cmemBytes 0 = 0) ∧
    (let d := (served (drops { active with calPrev := some none })).drop 0
     d.calMatches set2 = true ∧ calLayoutOk set2 = true ∧ d.calMatches { set2 with width := 65 } = false ∧ calLayoutOk { set2 with gains := [] } = false ∧
     d.calPrev = some none) ∧
    (page1.sized = true ∧ page1.colour = 7 ∧ libraryBytes (tblPut (served up).boot.library 255 page1) ≤ 268435456 ∧ (served up).map.page = []) := by
  repeat' apply And.intro
  all_goals decide +kernel

theorem witness_ServiceRestartsAccessesAndRecords :
    let s := served (drops active)
    s.Rising ∧ s.powered = true ∧ s.plant.svcClient = true ∧ s.plant.svcBusy = false ∧ (s.seg 0).retired = false ∧
    (served ({ up with segs := [(0, { retired := true })] } : State)).seg 0 = { retired := true } ∧
    (s.seg 0).clk = true ∧ (s.drop 0).state ≠ .retired ∧ (s.pair 10).active = [] := by
  repeat' apply And.intro
  all_goals decide +kernel

theorem witness_RegisterAccessesAreWholeDWords :
    (withPart { openPart with mse := false }).hostOpen 0 = false ∧ (withPart openPart).hostOpen 0 = true ∧ (65532 : W32).toNat % 4 = 0 ∧
    (withPart openPart).linkHeld 0 false = false ∧ (withPart openPart).linkHeld 0 true = false ∧ full.linkHeld 0 false = true ∧
    (withPart { openPart with mse := false }).linkHeld 0 false = false ∧ (7 : BitVec 4) ≠ 15 ∧ (2 : W32).toNat % 4 ≠ 0 ∧ ((withPart openPart).pair 10).active = [] := by decide +kernel

theorem witness_EveryStepKeepsTablesRising :
    ({ up with pending := [.ppsOut] } : State).Rising ∧ ∃ t, step { up with pending := [.ppsOut] } = .next t := by
  refine ⟨?_, _, rfl⟩
  repeat' apply And.intro
  all_goals decide +kernel

/-! ### Single steps, with results from the spec -/

/-- The state an outcome leads to. -/
def after (s : State) (i : Instr) : State :=
  match exec i s with
  | .next t => t
  | _ => s

-- R157: the session number starts at 1, the level is the lower of the unit's 2 and LEVEL_MAX
theorem test_open_session : let t := (after sOpen (.openSession 0 0)).part 0
    t.session = .opened ∧ t.level = 1 ∧ t.sessNum = 1 := by decide +kernel
-- R141: a created ring's SQ of 2^4 entries
theorem test_ring_create : ((after (cmd eRing) (.ringCreate 0 0)).ring 0 15).state = .active ∧ ((after (cmd eRing) (.ringCreate 0 0)).ring 0 15).size = 16 := by
  decide +kernel
-- R149: OPCODE, STATUS and RESULT0 of a completion entry: the entry is the first write to host memory
theorem test_completion_of_image_create :
    ((after (cmd eImage) (.imageCreate 0 0)).out.head?.map fun o => match o with
      | .memWrite _ a b => (a, b.getD 7 0, b.getD 6 0)
      | _ => (0, 0, 0)) = some (0, 0x28, 0) := by decide +kernel
-- R54: one tick is 10 ns and RATE × 2^-32 ns
theorem test_tick : (after (timed fun t => { t with rate := 429497 }) .timebaseTick).tb.acc = up.tb.acc + 10 * 4294967296 + 429497 := by decide +kernel
-- R145: a tail outside the ring sets bit r of HST_DB_ERR
theorem test_tail_too_high : ((after ringed (.sqTailDoorbell 0 0 16)).part 0).dbErr = 1 := by decide +kernel
-- R145: a head that releases more than was written sets bit 16 + r
theorem test_head_too_far : ((after ringed (.cqHeadDoorbell 0 0 8)).part 0).dbErr = 0x10000 := by decide +kernel
-- R187: the lower half of a DWord is the first word of two to the drop, where the guard lets it pass
theorem test_host_write_is_two_words :
    let s : State := { hosted with pairs := [(0, { bankA := [(0, BitVec.ofNat 128 (0x33 + (2 ^ 58 - 1) * 2 ^ 70))] })] }
    ((after s (.hostWrite 0 0 [0x00060005] 15 0)).bridge 0).items.map (fun x => x.cmds.map fun c => (c.len, c.data)) = [[(2, [5, 6])]] := by
  decide +kernel
-- R416: COUNT saturates at 255
theorem test_count_saturates : ((after (events [(5, { count := 255 })]) (.doorbell (.core 0) 5)).source 5).count = 255 := by decide +kernel
-- R253: a shaper's credit grows by RATE with each tick, up to its BURST
theorem test_credit_stops_at_burst :
    (((after (withPart { openPart with shapers := [(1, { rate := 5, burst := 300, credit := 29999999 })] }) .timebaseTick).part 0).shapers.map
      fun x => x.2.credit) = [30000000] := by decide +kernel
-- R447: REPEATS holds at 0xFFFF
theorem test_repeats_hold : (((faulted fun f => { f with faults := [(0x20, { sticky := true, rep := 65535 })] }).stick 0x20 9).faultRec 0x20).rep = 65535 := by
  decide +kernel
-- R431: a swap adds 1 to the epoch
theorem test_guard_epoch : ((after (cmd (entry 0x69 0 [])) (.guardSwap 0 0)).pair 0).epoch = 1 := by decide +kernel
-- R129: posted writes are dropped, reads answered Unsupported Request in D3hot
theorem test_d3hot_read :
    (after (withPart { openPart with dstate := .d3hot }) (.hostRead 0 0 1 15 0 9)).out = [.cpl 0 9 .ur false []] := by decide +kernel
-- R45: every 10 s a DHCP request, after 30 s the factory setting of the service port
theorem test_dhcp_fallback :
    (after { up with plant := { up.plant with service := { requestTick := some 5, lastRequest := some 2000000005 } }, tb := { up.tb with tick := 3000000005 } }
      (.dhcpRequestTimer .service)).plant.service.addr = some factoryAddr := by decide +kernel
-- R374: reservations are met first
theorem test_power_grants : grantsOf 100 [0, 60, 0, 0, 0, 0] [0, 80, 0, 0, 0, 30] = [0, 70, 0, 0, 0, 30] := by decide

/-! ### Worked examples of the spec -/

-- 00_scope.md, narrowing: ties go to the even neighbour
theorem test_rounding_ties : (roundHalfEven 10 4, roundHalfEven 14 4, roundHalfEven 11 4, roundHalfEven 1048574 4) = (2, 4, 3, 262144) := by decide
-- 08, ROLL on a one-minute list: three cycles further
theorem test_roll_example : gateBase 1750000200000000000 60000000000 1750000345123456789 = 1750000380000000000 := by decide
-- 13, two channels of SEG12.D5: 24.421875 V by a tie to even, and 12.5 °C
theorem test_telemetry_example :
    ((tlmValue 0x3107 5 0 0x09C5).v, (tlmValue 0x1208 32 6400 0x0F9C).v, (tlmValue 0x3107 5 0 0x09C5).bad) = (0x186C, 0xC80, false) := by decide
/-- What a write of 0x11223344 at offset 0x10 leaves for the drop, as (address, words in address order) of each command. -/
def wordsOf (m : BitVec 2) : List (Nat × List W16) :=
  ((after (swapped m) (.hostWrite 0 0x10 [0x11223344] 15 0)).bridge 0).items.flatMap fun x => x.cmds.map fun c => (c.addr, c.data)
-- 07, one DWord under each mode: NONE, SWAP16, SWAP32
theorem test_swap_none : wordsOf 0 = [(0x020008, [0x3344, 0x1122])] := by decide +kernel
theorem test_swap16 : wordsOf 1 = [(0x020008, [0x4433, 0x2211])] := by decide +kernel
theorem test_swap32 : wordsOf 2 = [(0x020008, [0x1122, 0x3344])] := by decide +kernel
-- 10, one pixel from bitstream to wire: input matrix, interpolation, gamut, uniformity
theorem test_input_matrix :
    ((stage3 (videoMatrix (colourOf 0) 8) [2880, 1600, 2560]).1) = [3989, 2889, 2117] := by
  decide +kernel
theorem test_uniformity : (stage8 #[2200, 2210, 2205, 2216] 2 1 0 8 4 46128).1 = 49687 := by decide +kernel
-- 11, one block, bit for bit: the transform of block 0 and its quantised coefficients
theorem test_block_transform :
    fwd2 [100, 102, 104, 106, 100, 102, 104, 106, 110, 110, 120, 120, 110, 110, 120, 120] =
      [109, -7, -1, -1, -12, 6, -2, -2, 0, 0, 0, 0, 0, 0, 0, 0] := by decide +kernel
theorem test_block_quantised : ([-7, -12, 6, -1].map fun c => quant c 2) = [-1, -3, 1, 0] := by decide
-- 11, the floor of a 1,920 × 1,080 drop: bits of a full group of eight tiles, and of band 67's
theorem test_group_floor :
    let p : Panel := { w := 1920, h := 1080, ch := 3, d := 8, ver := 2, csh := 0 }
    8 * p.floorBits 0 0 = 3640 ∧ 8 * p.floorBits 67 0 = 1848 ∧ p.groups = 15 ∧ p.nb = 68 := by decide
-- 17, FIPS 180-4's example: the digest of "abc"
theorem test_sha384 : sha384 [0x61, 0x62, 0x63] =
    0xcb00753f45a35e8bb5a03d699ac65007272c32ab0eded1631a8b605a43ff5bed8086072ba1e7cc2358baeca134c825a7 := by decide +kernel

end Sys2Proof.Tests
end

section
/-! The reset of a function and the canvases of other partitions (O39). A compose instant that a reset finds due latches the canvas that the drop is a
member of, and the latch publishes the images of the canvas's own partition. Rising tables do not tie a canvas to the owner of its members. -/

namespace Sys2Proof.Machine

open Sys2Proof

/-- A configuration write reaches the function where it is ready and its link takes requests. -/
theorem State.cfgWrite_taken (s : State) (p : Nat) (f : State → State) (hp : s.map.hasPart p = true) (hr : (s.part p).ready = true)
    (hl : s.linkHeld p true = false) : s.cfgWrite p f = .next (f (s.onPart p fun x => { x with inL1 := false, idleTick := s.tick })) := by
  simp [State.cfgWrite, hp, hr, hl]

/-- A picture slot for drop 0 of segment 0. -/
def slotOfDrop0 : Slot := { idx := 0, start := 24000, len := 24000, drop := 0, kind := 1, rate := 0, part := 0, shaper := 0 }

/-- An image of one pixel whose completed copy waits for a compose instant. -/
def completedImage : HostImage :=
  { format := 1, colour := 0, width := 1, height := 1, visible := [0], pending := some [1], completed := true, uid := 0 }

/-- A running unit where drop 0 of partition 0, due for its compose instant, is a member of a canvas of partition 2. -/
def foreignCanvas : State :=
  { State.reset with
    boot := { State.reset.boot with phase := .running }
    tb := { tick := 500000000, acc := 5000000000 * 4294967296 }
    parts := [(0, { ready := true }), (2, { images := [(0, completedImage)] })]
    segs := [(0, { calendar := [(0, slotOfDrop0.word)] })]
    drops := [(0, { state := .active, canvas := some 0 })]
    canvases := [(0, { part := 2, width := 1, height := 1, members := [(0, 0, 0)] })] }

/-- The unit once the configuration write that resets function 0 has arrived. -/
def foreignCanvasTaken : State := foreignCanvas.onPart 0 fun x => { x with inL1 := false, idleTick := foreignCanvas.tick }

theorem foreignCanvas_rising : foreignCanvas.Rising := by
  unfold State.Rising
  decide +kernel

theorem foreignCanvas_reset :
    exec (.functionLevelReset 0) foreignCanvas = .next ((foreignCanvasTaken.composeFirst 0).resetPartition 0) :=
  foreignCanvas.cfgWrite_taken 0 (fun s => (s.composeFirst 0).resetPartition 0) (by decide +kernel) (by decide +kernel)
    (by decide +kernel)

/-- The reset of function 0 makes partition 2's pending image visible. -/
theorem foreignCanvas_published :
    (((foreignCanvasTaken.composeFirst 0).resetPartition 0).part 2).images =
      [(0, { completedImage with visible := [1], pending := none, completed := false })] := by
  decide +kernel

/-- Refutes O39: with the guard letting every doorbell pass, the reset of partition 0's function still changes partition 2 in `foreignCanvas`, where a
drop of partition 0 is a member of partition 2's canvas: the compose instant that comes before the reset publishes partition 2's image. -/
theorem not_resetsAndHeldWrites : ¬ Obligations.ResetsAndHeldWrites := by
  rintro ⟨hlinks, -⟩
  obtain ⟨-, hreset, -⟩ := hlinks 0 0 foreignCanvas foreignCanvas_rising (by decide +kernel) (by decide +kernel)
  obtain ⟨t, ht, -, -, -, -, -, -, -, hothers⟩ := hreset (by decide +kernel) (by decide +kernel)
  have hsame : t.part 2 = foreignCanvas.part 2 := hothers (by decide +kernel) 2 (by decide)
  rw [foreignCanvas_reset] at ht
  injection ht with ht
  have himages := foreignCanvas_published
  rw [ht, hsame] at himages
  exact absurd himages (by decide +kernel)

end Sys2Proof.Machine
end

section
/-! What the unit does beside a command's own effect (doorbells, fault records, compose instants that come first) and what it leaves as it is. -/

namespace Sys2Proof.Machine

open Sys2Proof

/-- A partition's record without what doorbells, records and compose instants write there: the log ring, the link's idle state, AER's report and the
images' visible copies. -/
def noteView (x : Partition) : Partition := { x with logRing := {}, inL1 := false, idleTick := 0, aer := {}, images := [] }

/-- A view of the partitions' records that shows nothing of what `noteView` leaves out. -/
def Deaf {β : Type} (v : Nat → Partition → β) : Prop := ∀ q x, v q (noteView x) = v q x

/-- From s to t only matters aside have gone on: time, supply, segments and the map are as they were, the view v shows each partition's record as it
was, of the unit's fault records only the guard's can have changed, what has been sent stays sent, and doorbells that pass the guard still do. -/
structure Spares {β : Type} (v : Nat → Partition → β) (s t : State) : Prop where
  tb : t.tb = s.tb
  plant : t.plant = s.plant
  segs : t.segs = s.segs
  boot : t.boot = { s.boot with lapsesDue := t.boot.lapsesDue }
  out : s.out <+: t.out
  parts : tblRising s.parts = true → tblRising t.parts = true ∧ ∀ q, v q (t.part q) = v q (s.part q)
  faultsRising : tblRising s.flt.faults = true → tblRising t.flt.faults = true
  unitFault : ∀ i, i < 16 → i ≠ 10 → t.faultRec i = s.faultRec i
  bells : s.bellsPass = true → t.bellsPass = true

/-- The components of the state that `Spares` speaks of. -/
def State.told (s : State) : Timebase × Plant × Tbl Segment × Boot × List Output × Tbl Partition × Flt × Tbl BankPair :=
  (s.tb, s.plant, s.segs, s.boot, s.out, s.parts, s.flt, s.pairs)

variable {β : Type} {v : Nat → Partition → β}

theorem Deaf.eq_of_noteView (hv : Deaf v) (q : Nat) {x y : Partition} (h : noteView x = noteView y) : v q x = v q y := by
  rw [← hv q x, h, hv q y]

namespace Spares

theorem refl (s : State) : Spares v s s :=
  ⟨rfl, rfl, rfl, rfl, List.prefix_refl _, fun h => ⟨h, fun _ => rfl⟩, id, fun _ _ _ => rfl, id⟩

theorem trans {a b c : State} (h : Spares v a b) (k : Spares v b c) : Spares v a c where
  tb := k.tb.trans h.tb
  plant := k.plant.trans h.plant
  segs := k.segs.trans h.segs
  boot := by rw [k.boot, h.boot]
  out := h.out.trans k.out
  parts := fun hr => ⟨(k.parts (h.parts hr).1).1, fun q => ((k.parts (h.parts hr).1).2 q).trans ((h.parts hr).2 q)⟩
  faultsRising := fun hr => k.faultsRising (h.faultsRising hr)
  unitFault := fun i hi hg => (k.unitFault i hi hg).trans (h.unitFault i hi hg)
  bells := fun hb => k.bells (h.bells hb)

/-- The same with the last step first, which says what state it begins in. -/
theorem after {a b c : State} (k : Spares v b c) (h : Spares v a b) : Spares v a c := h.trans k

/-- A change of nothing that is told of spares every view. -/
theorem of_told {s t : State} (h : t.told = s.told) : Spares v s t := by
  simp only [State.told, Prod.mk.injEq] at h
  obtain ⟨htb, hplant, hsegs, hboot, hout, hparts, hflt, hpairs⟩ := h
  refine ⟨htb, hplant, hsegs, by rw [hboot], by rw [hout], fun hr => ⟨by rwa [hparts], fun q => ?_⟩, by rw [hflt]; exact id,
    fun i _ _ => ?_, ?_⟩
  · unfold State.part; rw [hparts]
  · unfold State.faultRec; rw [hflt]
  · unfold State.bellsPass State.blockOk State.pair; rw [hpairs]; exact id

theorem ite {c : Prop} [Decidable c] {s t u : State} (ht : Spares v s t) (hu : Spares v s u) : Spares v s (if c then t else u) := by
  split
  · exact ht
  · exact hu

theorem foldl {α : Type} (f : State → α → State) (l : List α) (s : State) (hf : ∀ t x, x ∈ l → Spares v s t → Spares v t (f t x)) :
    Spares v s (l.foldl f s) := by
  suffices h : ∀ t, Spares v s t → Spares v s (l.foldl f t) from h s (refl s)
  induction l with
  | nil => exact fun t h => h
  | cons x l ih =>
    intro t h
    exact ih (fun t y hy => hf t y (List.mem_cons_of_mem x hy)) _ (h.trans (hf t x List.mem_cons_self h))

/-- A fold of steps each of which spares the view wherever it is taken. -/
theorem foldl_of {α : Type} (f : State → α → State) (hf : ∀ t x, Spares v t (f t x)) (l : List α) (s : State) : Spares v s (l.foldl f s) :=
  foldl f l s fun t x _ _ => hf t x

theorem onPart (s : State) (p : Nat) (f : Partition → Partition) (hf : v p (f (s.part p)) = v p (s.part p)) : Spares v s (s.onPart p f) where
  tb := rfl
  plant := rfl
  segs := rfl
  boot := rfl
  out := List.prefix_refl _
  parts := fun hr => by
    refine ⟨s.rising_onPart p f hr, fun q => ?_⟩
    by_cases hq : q = p
    · subst hq; rw [s.part_onPart_same q f hr, hf]
    · rw [s.part_onPart_other p q f hq]
  faultsRising := id
  unitFault := fun _ _ _ => rfl
  bells := id

/-- What is written to a partition's record where no deaf view looks. -/
theorem onNotes (hv : Deaf v) (s : State) (p : Nat) (f : Partition → Partition) (hf : noteView (f (s.part p)) = noteView (s.part p)) :
    Spares v s (s.onPart p f) := onPart s p f (hv.eq_of_noteView p hf)

theorem sent (s : State) (o : Output) : Spares v s { s with out := s.out ++ [o] } :=
  ⟨rfl, rfl, rfl, rfl, List.prefix_append _ _, fun h => ⟨h, fun _ => rfl⟩, id, fun _ _ _ => rfl, id⟩

theorem emit (hv : Deaf v) (s : State) (o : Output) : Spares v s (s.emit o) := by
  unfold State.emit
  dsimp only
  split
  · exact (sent s o).trans (onNotes hv _ _ _ rfl)
  · exact sent s o

theorem onFlt (s : State) (f : Flt → Flt) (hf : (f s.flt).faults = s.flt.faults) : Spares v s (s.onFlt f) where
  tb := rfl
  plant := rfl
  segs := rfl
  boot := rfl
  out := List.prefix_refl _
  parts := fun h => ⟨h, fun _ => rfl⟩
  faultsRising := fun h => by show tblRising (f s.flt).faults = true; rwa [hf]
  unitFault := fun i _ _ => by show tblGet {} (f s.flt).faults i = _; rw [hf]; rfl
  bells := id

end Spares

/-! ### Fault records -/

theorem State.faultRec_setFault_other (s : State) (i j : Nat) (x : FaultRec) (h : j ≠ i) : (s.setFault i x).faultRec j = s.faultRec j :=
  tblGet_set_other _ _ _ _ _ h

theorem State.faultRec_setFault_same (s : State) (i : Nat) (x : FaultRec) (h : tblRising s.flt.faults = true) :
    (s.setFault i x).faultRec i = x := tblGet_set_same _ _ _ _ h

theorem State.faultsRising_setFault (s : State) (i : Nat) (x : FaultRec) (h : tblRising s.flt.faults = true) :
    tblRising (s.setFault i x).flt.faults = true := tblRising_set _ _ _ _ h

theorem Spares.setFault (s : State) (i : Nat) (x : FaultRec) (hi : 16 ≤ i ∨ i = 10) : Spares v s (s.setFault i x) where
  tb := rfl
  plant := rfl
  segs := rfl
  boot := rfl
  out := List.prefix_refl _
  parts := fun h => ⟨h, fun _ => rfl⟩
  faultsRising := s.faultsRising_setFault i x
  unitFault := fun j hj hg => s.faultRec_setFault_other i j x (by omega)
  bells := id

theorem Spares.setLive (s : State) (i : Nat) (b : Bool) (hi : 16 ≤ i ∨ i = 10) : Spares v s (s.setLive i b) := Spares.setFault s i _ hi

/-! ### Doorbells that the guard refuses -/

theorem State.bellsPass_of_pair {s t : State} (h : (t.pair 10).active = (s.pair 10).active) (hb : s.bellsPass = true) : t.bellsPass = true := by
  have hfind : ∀ space addr, (t.pair 10).find space addr = (s.pair 10).find space addr := fun space addr => by
    unfold BankPair.find; rw [h]
  unfold State.bellsPass State.blockOk at hb ⊢
  rw [hfind]
  exact hb

/-- A change of pairs that leaves the active bank of pair 10 spares every view. -/
theorem Spares.onPair (s : State) (n : Nat) (f : BankPair → BankPair)
    (h : ((s.onPair n f).pair 10).active = (s.pair 10).active) : Spares v s (s.onPair n f) :=
  ⟨rfl, rfl, rfl, rfl, List.prefix_refl _, fun h => ⟨h, fun _ => rfl⟩, id, fun _ _ _ => rfl, State.bellsPass_of_pair h⟩

theorem Spares.onPair_other (s : State) (n : Nat) (f : BankPair → BankPair) (h : n ≠ 10) : Spares v s (s.onPair n f) :=
  Spares.onPair s n f (congrArg BankPair.active (tblGet_set_other _ _ _ _ _ h.symm))

/-- A violation that is captured or counted changes the pair's capture alone, which is then valid. -/
theorem State.capture_pair (s : State) (n : Nat) (split level : Bool) (k : AccKind) (space req addr : Nat) :
    ∃ c : BankPair → Capture, (s.capture n split level k space req addr).1 = s.onPair n (fun b => { b with cap := c b }) ∧
      (c (s.pair n)).valid = true := by
  unfold State.capture
  split
  · next hvalid => exact ⟨fun b => { b.cap with count := satInc b.cap.count }, rfl, hvalid⟩
  · exact ⟨fun b => { valid := true, partialAcc := split, level := level, kind := BitVec.ofNat 2 k.code, space := BitVec.ofNat 2 space,
                      req := BitVec.ofNat 8 req, count := 1, addr := BitVec.ofNat 64 addr, time := BitVec.ofNat 32 s.now, epoch := b.epoch },
      rfl, rfl⟩

theorem Spares.capture (s : State) (split level : Bool) (k : AccKind) (space req addr : Nat) :
    Spares v s (s.capture 10 split level k space req addr).1 := by
  obtain ⟨c, heq, hvalid⟩ := s.capture_pair 10 split level k space req addr
  rw [heq]
  refine Spares.onPair s 10 _ ?_
  have hne : ({ s.pair 10 with cap := c (s.pair 10) } : BankPair) ≠ {} := fun h => by
    have hcap : c (s.pair 10) = {} := congrArg BankPair.cap h
    rw [hcap] at hvalid; cases hvalid
  have hpair : (s.onPair 10 fun b => { b with cap := c b }).pair 10 = { s.pair 10 with cap := c (s.pair 10) } :=
    tblGet_set_ne _ _ _ _ hne
  rw [hpair]
  rfl

/-! ### Records -/

/-- What the two functions of a link send in turns comes after what was sent before. -/
theorem State.fairly_eq (s t : State) : s.fairly t = t ∨ ∃ l, s.fairly t = { t with out := s.out ++ l } := by
  unfold State.fairly
  dsimp only
  split
  · exact .inl rfl
  · exact .inr ⟨_, rfl⟩

theorem Spares.fairly {s t : State} (h : Spares v s t) : Spares v s (s.fairly t) := by
  rcases s.fairly_eq t with heq | ⟨l, heq⟩ <;> rw [heq]
  · exact h
  · exact { h with out := List.prefix_append _ _ }

section
variable {ring : Ringer}

theorem Spares.writeLog (hv : Deaf v) (hring : ∀ s b, Spares v s (ring s b)) (s : State) (p : Nat) (l : LogRec) :
    Spares v s (s.writeLog ring p l) :=
  ((Spares.onNotes hv s p _ rfl).trans (Spares.emit hv _ _)).trans (hring _ _)

theorem Spares.putLog (hv : Deaf v) (hring : ∀ s b, Spares v s (ring s b)) (s : State) (p : Nat) (l : LogRec) :
    Spares v s (s.putLog ring p l) := by
  unfold State.putLog
  dsimp only
  split
  · exact Spares.writeLog hv hring s p l
  · exact Spares.onNotes hv s p _ rfl

theorem Spares.putGap (hv : Deaf v) (hring : ∀ s b, Spares v s (ring s b)) (s : State) (p : Nat) : Spares v s (s.putGap ring p) := by
  unfold State.putGap
  dsimp only
  split
  · exact Spares.refl s
  · exact (Spares.onNotes hv s p _ rfl).trans (Spares.putLog hv hring _ p _)

theorem Spares.logTo (hv : Deaf v) (hring : ∀ s b, Spares v s (ring s b)) (s : State) (l : LogRec) (p : Nat) :
    Spares v s (s.logTo ring l p) := by
  unfold State.logTo
  dsimp only
  split
  · exact (Spares.putGap hv hring s p).trans (Spares.putLog hv hring _ p l)
  · exact (Spares.putGap hv hring s p).trans (Spares.onNotes hv _ p _ rfl)

theorem Spares.decideBy (hv : Deaf v) (hring : ∀ s b, Spares v s (ring s b)) (s : State) (l : LogRec) (ps : List Nat) :
    Spares v s (s.decideBy ring l ps) :=
  Spares.fairly (Spares.foldl_of _ (fun t p => Spares.logTo hv hring t _ p) ps s)

theorem Spares.endIntervalBy (hv : Deaf v) (hring : ∀ s b, Spares v s (ring s b)) (s : State) (cls i : Nat) :
    Spares v s (s.endIntervalBy ring cls i) := by
  unfold State.endIntervalBy
  dsimp only
  split
  · exact Spares.refl s
  · split
    · exact Spares.refl s
    · split
      · exact Spares.onFlt s _ rfl
      · exact (Spares.decideBy hv hring s _ _).trans (Spares.onFlt _ _ rfl)

theorem Spares.traceRec (s : State) (l : LogRec) : Spares v s (s.traceRec l) := Spares.onFlt s _ rfl

theorem Spares.storeRec (s : State) (l : LogRec) : Spares v s (s.storeRec l) := by
  unfold State.storeRec
  exact Spares.ite (Spares.refl s) (Spares.onFlt s _ rfl)

theorem Spares.occurBy (hv : Deaf v) (hring : ∀ s b, Spares v s (ring s b)) (s : State) (type cls i : Nat) (detail : W32) (window : Nat)
    (ps : List Nat) : Spares v s (s.occurBy ring type cls i detail window ps) := by
  have htrace := fun l => (Spares.endIntervalBy hv hring s cls i).trans (Spares.traceRec _ l)
  unfold State.occurBy
  dsimp only
  split
  · exact (htrace _).trans (Spares.onFlt _ _ rfl)
  · exact ((htrace _).trans (Spares.decideBy hv hring _ _ ps)).trans (Spares.onFlt _ _ rfl)

theorem Spares.ringVendor (hring : ∀ s b, Spares v s (ring s b)) (s : State) (k : Nat) : Spares v s (s.ringVendor ring k) :=
  Spares.foldl_of _ (fun t _ => hring t _) _ s

/-- What a fault's record holds once it has occurred (R445, R447). -/
def FaultRec.occurred (x : FaultRec) (now : Nat) (detail : W32) : FaultRec :=
  if x.sticky then { x with rep := satInc x.rep } else { x with sticky := true, firstTime := BitVec.ofNat 64 now, firstDetail := detail }

theorem FaultRec.occurred_sticky (x : FaultRec) (now : Nat) (detail : W32) : (x.occurred now detail).sticky = true := by
  unfold FaultRec.occurred
  split
  · assumption
  · rfl

theorem FaultRec.occurred_live (x : FaultRec) (now : Nat) (detail : W32) : (x.occurred now detail).live = x.live := by
  unfold FaultRec.occurred
  split <;> rfl

/-- A fault that occurs writes its own record, and signals. -/
theorem Spares.stickBy (hring : ∀ s b, Spares v s (ring s b)) (s : State) (i : Nat) (detail : W32) :
    Spares v (s.setFault i ((s.faultRec i).occurred s.now detail)) (s.stickBy ring i detail) := by
  unfold State.stickBy FaultRec.occurred
  dsimp only
  split
  · exact Spares.refl _
  · have hvendor := fun u => Spares.foldl_of (v := v) (fun (s : State) k => s.ringVendor ring k) (Spares.ringVendor hring) (vendorKinds i) u
    have hviews := fun ps u =>
      Spares.foldl_of (v := v) (fun (s : State) p => ring s (.shared (2816 + 32 * p + 19))) (fun t _ => hring t _) ps u
    split
    · exact ((hvendor _).trans (hviews _ _)).trans (hring _ _)
    · exact (hvendor _).trans (hviews _ _)

/-- A fault is raised: its own record changes, and beside it only matters aside. -/
theorem Spares.raiseBy (hv : Deaf v) (hring : ∀ s b, Spares v s (ring s b)) (s : State) (i : Nat) (detail : W32) :
    Spares v (s.setFault i ((s.faultRec i).occurred s.now detail)) (s.raiseBy ring i detail) := by
  have hoccur := (Spares.stickBy hring s i detail).trans
    (Spares.occurBy hv hring _ 1 0 i detail 0 ((s.stickBy ring i detail).faultParts i))
  unfold State.raiseBy
  dsimp only
  split
  · exact hoccur.trans (Spares.storeRec _ _)
  · exact hoccur

end

/-! ### Doorbells -/

theorem Spares.ringPriv (s : State) (c n : Nat) : Spares v s (s.ringPriv c n) := by
  unfold State.ringPriv
  split
  · exact Spares.refl s
  · exact Spares.of_told rfl

theorem Spares.strike (s : State) (b : Bell) : Spares v s (s.strike b) := by
  cases b with
  | shared n => exact Spares.of_told (by rw [State.strike, (EvcOnly.ringShared n s).frame]; rfl)
  | priv c n => exact Spares.ringPriv s c n
  | vendor c k => exact Spares.ringPriv s c _

theorem Spares.refuseBell (hv : Deaf v) (s : State) (b : Bell) : Spares v s (s.refuseBell b) := by
  have hcapture : Spares v s (s.capture 10 false false .write 1 b.code doorbellAddr).1 := Spares.capture s _ _ _ _ _ _
  unfold State.refuseBell
  dsimp only
  split
  · have hlive := hcapture.trans (Spares.setLive _ 10 true (.inr rfl))
    exact (hlive.trans (Spares.setFault _ 10 _ (.inr rfl))).trans
      (Spares.raiseBy hv (fun s b => Spares.capture s _ _ _ _ _ _) _ 10 _)
  · exact hcapture

theorem Spares.bell (hv : Deaf v) (s : State) (b : Bell) : Spares v s (s.bell b) := by
  unfold State.bell
  split
  · exact Spares.strike s b
  · exact Spares.refuseBell hv s b

theorem Spares.signal (hv : Deaf v) (s : State) (n : Nat) : Spares v s (s.signal n) := Spares.bell hv s _
theorem Spares.signalPriv (hv : Deaf v) (s : State) (c n : Nat) : Spares v s (s.signalPriv c n) := Spares.bell hv s _
theorem Spares.signalUnit (hv : Deaf v) (s : State) (p k : Nat) : Spares v s (s.signalUnit p k) := Spares.bell hv s _

theorem Spares.raise (hv : Deaf v) (s : State) (i : Nat) (detail : W32) :
    Spares v (s.setFault i ((s.faultRec i).occurred s.now detail)) (s.raise i detail) := Spares.raiseBy hv (Spares.bell hv) s i detail

/-- A fault above the unit's, or the guard's, is raised aside. -/
theorem Spares.raise_aside (hv : Deaf v) (s : State) (i : Nat) (detail : W32) (hi : 16 ≤ i ∨ i = 10) : Spares v s (s.raise i detail) :=
  (Spares.setFault s i _ hi).trans (Spares.raise hv s i detail)

end Sys2Proof.Machine
end

section
/-! Compose instants that come before a change (R296), and what the end of a partition's session does beside the session's own record (R29, R159–R163). -/

namespace Sys2Proof.Machine

open Sys2Proof

variable {β : Type} {v : Nat → Partition → β}

namespace Spares

/-! ### The latch of a compose pass -/

theorem onDrop (s : State) (g : Nat) (f : Drop → Drop) : Spares v s (s.onDrop g f) := of_told rfl

theorem onSurf (s : State) (g : Nat) (f : Surface → Surface) : Spares v s (s.onSurf g f) := of_told rfl

theorem markUnknown (s : State) (g : Nat) : Spares v s (s.markUnknown g) := of_told rfl

theorem setCanvases (s : State) (c : Tbl Canvas) : Spares v s { s with canvases := c } := of_told rfl

theorem setGates (s : State) (g : Tbl GateList) : Spares v s { s with gates := g } := of_told rfl

theorem setStreams (s : State) (l : Tbl Stream) : Spares v s { s with streams := l } := of_told rfl

theorem resetSource (s : State) (n : Nat) : Spares v s (s.resetSource n) := of_told rfl

theorem gatesTaken (s : State) (key t : Nat) (gs : List Nat) : Spares v s (s.gatesTaken key t gs) := of_told rfl

theorem onCanvas (s : State) (k : Nat) (f : Canvas → Canvas) : Spares v s (s.onCanvas k f) := by
  unfold State.onCanvas
  split
  · exact of_told rfl
  · exact refl s

theorem onStream (s : State) (slot : Nat) (f : Stream → Stream) : Spares v s (s.onStream slot f) := by
  unfold State.onStream
  split
  · exact of_told rfl
  · exact refl s

theorem publishImages (hv : Deaf v) (s : State) (p : Nat) : Spares v s (s.publishImages p) := onNotes hv s p _ rfl

theorem takeCal (s : State) (g : Nat) : Spares v s (s.takeCal g) := by
  unfold State.takeCal
  split
  · exact refl s
  · exact ite (refl s) ((onDrop s g _).trans (markUnknown _ g))

theorem takePublication (hv : Deaf v) (s : State) (g : Nat) : Spares v s (s.takePublication g) := by
  unfold State.takePublication
  dsimp only
  split
  · exact refl s
  · exact ite (refl s) (((of_told rfl : Spares v s s.draw.2).trans (onDrop _ g _)).trans (signalPriv hv _ _ _))

theorem markChosen (s : State) (p idx uid : Nat) : Spares v s (s.markChosen p idx uid) := by
  unfold State.markChosen
  split
  · exact refl s
  · exact onStream s _ _

theorem chooseFrames (s : State) (p : Nat) (f : Surface) (last : Tbl Frame) (t : Nat) : Spares v s (s.chooseFrames p f last t).1 := by
  unfold State.chooseFrames
  suffices h : ∀ (l : List Nat) (a : State × List (Nat × Frame)), Spares v s a.1 → Spares v s (l.foldl _ a).1 from h _ _ (refl s)
  intro l
  induction l with
  | nil => exact fun a h => h
  | cons k l ih =>
    intro a h
    refine ih _ ?_
    dsimp only
    split
    · split
      · split
        · exact h.trans (markChosen _ _ _ _)
        · exact h
      · exact h
    · exact h

theorem latchLayers (hv : Deaf v) (s : State) (p key t : Nat) (gs : List Nat) (f : Surface) (last : Tbl Frame) :
    Spares v s (s.latchLayers p key t gs f last).1 := (publishImages hv s p).trans (chooseFrames _ p _ _ _)

theorem latchCanvas (hv : Deaf v) (s : State) (k t : Nat) : Spares v s (s.latchCanvas k t) := by
  unfold State.latchCanvas
  split
  · exact refl s
  · exact ite (refl s) (((latchLayers hv s _ _ _ _ _ _).trans (gatesTaken _ _ _ _)).trans (onCanvas _ k _))

theorem latchDrop (hv : Deaf v) (s : State) (g t : Nat) : Spares v s (s.latchDrop g t).1 := by
  unfold State.latchDrop
  dsimp only
  split
  · have hcanvas := fun k h => ((latchCanvas hv s k t).trans (onSurf _ g h)).trans (gatesTaken _ g t [g])
    split
    · exact hcanvas _ _
    · exact hcanvas _ _
  · exact ((latchLayers hv s _ _ _ _ _ _).trans (onDrop _ g _)).trans (gatesTaken _ g t [g])

theorem releaseFrames (s : State) (slot : Nat) : Spares v s (s.releaseFrames slot) := by
  unfold State.releaseFrames
  split
  · exact refl s
  · exact onStream s slot _

theorem releaseAll (s : State) (p : Nat) : Spares v s (s.releaseAll p) := foldl_of _ (fun t _ => releaseFrames t _) _ s

theorem latchPass (hv : Deaf v) (s : State) (g : Nat) : Spares v s (s.latchPass g) :=
  ((latchDrop hv s g _).trans (onDrop _ g _)).trans (releaseAll _ _)

theorem latchInstant (hv : Deaf v) (s : State) (g : Nat) : Spares v s (s.latchInstant g) := by
  have hcome := fun p f => (((takeCal s g).trans (takePublication hv _ g)).trans (publishImages hv _ p)).trans (onDrop _ g f)
  unfold State.latchInstant
  exact ite ((hcome _ _).trans (latchPass hv _ g)) (hcome _ _)

theorem composeDue (hv : Deaf v) (s : State) (gs : List Nat) : Spares v s (s.composeDue gs) :=
  foldl_of _ (fun t g => ite (latchInstant hv t g) (refl t)) gs s

/-- The compose instants that come before a change spare every deaf view. -/
theorem composeFirst (hv : Deaf v) (s : State) (p : Nat) : Spares v s (s.composeFirst p) := composeDue hv s _

/-! ### The Sheepdog -/

theorem updateTakeover (hv : Deaf v) (s : State) : Spares v s s.updateTakeover := by
  refine foldl_of _ (fun t c => ?_) _ s
  dsimp only
  refine ite (refl t) ?_
  have hsignals := fun (n : Nat) (ps : List Nat) (u : State) =>
    foldl_of (v := v) (fun s _ => s.signalPriv (c + 2) n) (fun u _ => signalPriv hv u _ _) ps u
  exact after (hsignals 5 _ _) (after (hsignals 4 _ _) (of_told rfl))

theorem returnDrops (s : State) (p t : Nat) : Spares v s (s.returnDrops p t) := foldl_of _ (fun u _ => onDrop u _ _) _ s

/-- The Sheepdog's takeover changes of the partition's own record the choice of fallback content alone. -/
theorem sheepdog (hv : Deaf v) (s : State) (p : Nat) (hp : ∀ x b, v p { x with fallback := b } = v p x) : Spares v s (s.sheepdog p) := by
  have hchoice : Spares v s (if (s.part p).session = .closed then s else s.onPart p fun x => { x with fallback := x.sessFallback }) :=
    ite (refl s) (onPart s p _ (hp _ _))
  exact (hchoice.trans (foldl_of _ (fun u _ => onDrop u _ _) _ _)).trans (updateTakeover hv _)

end Spares

/-! ### The end of a partition's objects -/

/-- A partition's record without its objects: what the end of a session removes besides rings. -/
def objectView (x : Partition) : Partition := { noteView x with fallback := false, memGone := [], bridge := {}, shapers := [] }

/-- The view shows nothing of partition p's objects. -/
def BlindToObjects (v : Nat → Partition → β) (p : Nat) : Prop := ∀ x, v p (objectView x) = v p x

theorem BlindToObjects.eq {p : Nat} (hp : BlindToObjects v p) {x y : Partition} (h : objectView x = objectView y) : v p x = v p y := by
  rw [← hp x, h, hp y]

namespace Spares

theorem orphanPages (s : State) (p : Nat) (src : PageSource) (idx : Nat) : Spares v s (s.orphanPages p src idx) :=
  after (setCanvases _ _) (foldl_of _ (fun u _ => onSurf u _ _) (s.liveDropsOf p) s)

theorem dropStream (s : State) (slot : Nat) : Spares v s (s.dropStream slot) := by
  have hsources := fun u : State => (resetSource (v := v) u (2048 + 2 * slot)).trans (resetSource _ (2049 + 2 * slot))
  unfold State.dropStream
  refine after (setStreams _ _) (after (hsources _) ?_)
  split
  · exact orphanPages s _ _ _
  · exact refl s

theorem vanishStream (s : State) (slot : Nat) (x : Stream) (hp : BlindToObjects v x.part) : Spares v s (s.vanishStream slot x) :=
  (onPart s x.part _ (hp.eq rfl)).trans (dropStream _ slot)

theorem onBridge (s : State) (p : Nat) (f : Bridge → Bridge) (hp : BlindToObjects v p) : Spares v s (s.onBridge p f) :=
  onPart s p _ (hp.eq rfl)

theorem invalidate (hv : Deaf v) (s : State) (p w : Nat) (hp : BlindToObjects v p) : Spares v s (s.invalidate p w) := by
  unfold State.invalidate
  split
  · exact refl s
  · have hahead := fun f => onBridge s p f hp
    exact ite ((hahead _).trans (signalUnit hv _ _ _)) (hahead _)

theorem invalidateAll (hv : Deaf v) (s : State) (p : Nat) (f : Window → Bool) (hp : BlindToObjects v p) : Spares v s (s.invalidateAll p f) :=
  foldl_of _ (fun u _ => invalidate hv u p _ hp) _ s

/-- The end of a partition's objects clears its shapers and windows last, in a state that spares a view which shows nothing of them. -/
theorem destroyObjects_eq (hv : Deaf v) (s : State) (p : Nat) (hp : BlindToObjects v p) :
    ∃ u, Spares v s u ∧
      s.destroyObjects p = u.onPart p fun x => { x with shapers := [], bridge := { x.bridge with windows := [] } } := by
  have hstreams : Spares v s ((s.streams.filter fun e => e.2.part == p).foldl (fun s e => s.vanishStream e.1 e.2) s) := by
    refine foldl _ _ s fun t e he _ => vanishStream t e.1 e.2 ?_
    have hpart : e.2.part = p := by simpa using (List.mem_filter.mp he).2
    rwa [hpart]
  have hwindows := hstreams.trans (invalidateAll hv _ p (fun _ => true) hp)
  exact ⟨_, hwindows.trans (setGates _ _), rfl⟩

theorem destroyObjects (hv : Deaf v) (s : State) (p : Nat) (hp : BlindToObjects v p) : Spares v s (s.destroyObjects p) := by
  obtain ⟨u, hu, heq⟩ := destroyObjects_eq hv s p hp
  rw [heq]
  exact hu.trans (onPart u p _ (hp.eq rfl))

theorem endRestores (s : State) (p : Nat) : Spares v s (s.endRestores p) := foldl_of _ (fun u _ => onDrop u _ _) _ s

theorem sendRead (hv : Deaf v) (s : State) (p : Nat) : Spares v s (s.sendRead p) := by
  unfold State.sendRead
  split
  · exact ite (after (emit hv _ _) (of_told rfl)) (refl s)
  · exact refl s

theorem sendReads (hv : Deaf v) (s : State) (p : Nat) : Spares v s (s.sendReads p) := foldl_of _ (fun u _ => sendRead hv u p) _ s

theorem dropReads (hv : Deaf v) (s : State) (p : Nat) (rings : Nat → Bool) : Spares v s (s.dropReads p rings) :=
  (of_told rfl : Spares v s (s.dropReadsOf _)).trans (sendReads hv _ p)

theorem clearPair (s : State) (p : Nat) (hp : p < 8) : Spares v s (s.clearPair p) := by
  have hfault : pairFault p = some (0x011 + 2 * p) := if_pos hp
  unfold State.clearPair State.clearCapture
  rw [hfault]
  exact ((onPair_other s p _ (by omega)).trans (onPair_other _ p _ (by omega))).trans (setLive _ _ _ (.inl (by omega)))

theorem onLapses (s : State) (f : Boot → List Nat) : Spares v s (s.onBoot fun b => { b with lapsesDue := f b }) :=
  ⟨rfl, rfl, rfl, rfl, List.prefix_refl _, fun h => ⟨h, fun _ => rfl⟩, id, fun _ _ _ => rfl, id⟩

/-- A session's end changes of the partition's own record the session's state and level alone. -/
theorem closeSession (s : State) (p : Nat) (hp : p < 8) (hpart : v p { s.part p with session := .closed, level := 0 } = v p (s.part p)) :
    Spares v s (s.closeSession p) := by
  have hclosed := (onLapses s fun b => b.lapsesDue.filter (· != p)).trans
    (onPart (v := v) _ p (fun x => { x with session := .closed, level := 0 }) hpart)
  have hpair : Spares v s (if (s.part p).session = .closed then _ else _) := ite hclosed (hclosed.trans (clearPair _ p hp))
  exact hpair.trans (setLive _ _ _ (.inl (by omega)))

/-- The end of a session under R160 spares a view that shows nothing of its partition. -/
theorem endSession (hv : Deaf v) (s : State) (p : Nat) (hp : p < 8) (hblind : ∀ x y, v p x = v p y) : Spares v s (s.endSession p) := by
  have hobjects := ((sheepdog hv s p fun _ _ => hblind _ _).trans (destroyObjects hv _ p fun _ => hblind _ _)).trans (endRestores _ p)
  have hreads := hobjects.trans (dropReads hv _ p fun _ => true)
  exact after (closeSession _ p hp (hblind _ _)) (after (onPart _ p _ (hblind _ _)) hreads)

end Spares

end Sys2Proof.Machine
end

section
/-! Completions and lapses of a partition, whether or not the guard lets doorbells pass (R149, R161). -/

namespace Sys2Proof.Machine

open Sys2Proof

variable {β : Type} {v : Nat → Partition → β}

namespace Spares

/-! ### Completions -/

theorem startRequest (hv : Deaf v) (s : State) (p : Nat) (w : DmaFor) (read a n : Nat) (keep : Bool) :
    Spares v s (s.startRequest p w read a n keep) := by
  rcases s.startRequest_eq p w read a n keep with heq | heq <;> rw [heq]
  · exact after (emit hv _ _) (of_told rfl)
  · exact of_told rfl

theorem startRead (hv : Deaf v) (s : State) (p : Nat) (w : DmaFor) (a n : Nat) : Spares v s (s.startRead p w a n) :=
  foldl_of _ (fun t _ => startRequest hv t p w _ _ _ _) _ s

theorem fetch (hv : Deaf v) (s : State) (p r : Nat) (hblind : ∀ x y, v p x = v p y) : Spares v s (s.fetch p r) := by
  unfold State.fetch
  exact ite (refl s) (after (startRead hv _ p _ _ _) (onPart s p _ (hblind _ _)))

theorem writeEntry (hv : Deaf v) (s : State) (p r a : Nat) (b : List Byte) (hblind : ∀ x y, v p x = v p y) :
    Spares v s (s.writeEntry p r a b) := by
  unfold State.writeEntry
  exact ite (emit hv s _) (onPart s p _ (hblind _ _))

theorem complete (hv : Deaf v) (s : State) (p r : Nat) (x : Reply) (valid : Nat) (hblind : ∀ x y, v p x = v p y) :
    Spares v s (s.complete p r x valid) := by
  cases hf : (s.ring p r).fetched with
  | nil =>
    have hnone : s.complete p r x valid = s := by unfold State.complete; simp only [hf]
    rw [hnone]
    exact refl s
  | cons c rest =>
    have hentered : Spares v s (s.entered p r x valid c rest) :=
      after (writeEntry hv _ p r _ _ hblind) (onPart s p _ (hblind _ _))
    rw [s.complete_eq p r x valid c rest hf]
    exact after (fetch hv _ p r hblind) (ite (hentered.trans (signalUnit hv _ p r)) hentered)

theorem drainUnknown (hv : Deaf v) (n : Nat) (s : State) (p : Nat) (hblind : ∀ x y, v p x = v p y) : Spares v s (s.drainUnknown n p) := by
  induction n generalizing s with
  | zero => exact refl s
  | succ n ih =>
    unfold State.drainUnknown
    split
    · exact refl s
    · split
      · exact refl s
      · exact ite (refl s) (after (ih _) (after (complete hv _ p _ _ _ hblind) (onPart s p _ (hblind _ _))))

theorem settleRings (hv : Deaf v) (s : State) (p : Nat) (hblind : ∀ x y, v p x = v p y) : Spares v s (s.settleRings p) :=
  drainUnknown hv _ s p hblind

/-- A lapse spares a view that shows nothing of its partition. -/
theorem lapse (hv : Deaf v) (s : State) (p : Nat) (hblind : ∀ x y, v p x = v p y) : Spares v s (s.lapse p) := by
  have hlive := (onPart (v := v) s p (fun x => { x with session := .lapsed }) (hblind _ _)).trans (setLive _ (0x010 + 2 * p) true (.inl (by omega)))
  exact after (sheepdog hv _ p fun _ _ => hblind _ _) (hlive.trans (raise_aside hv _ _ _ (.inl (by omega))))

end Spares

end Sys2Proof.Machine
end

section
/-! What a raised fault and a change of the pool leave, and what FREEZE does to the segments (R101, R372, R445). -/

namespace Sys2Proof.Machine

open Sys2Proof

/-- The view that shows nothing of any partition. -/
def noView : Nat → Partition → Unit := fun _ _ => ()

theorem deaf_noView : Deaf noView := fun _ _ => rfl

theorem noView_eq (p : Nat) (x y : Partition) : noView p x = noView p y := rfl

/-! ### A raised fault -/

/-- The record of a unit fault that is raised. -/
theorem State.faultRec_raise_same (s : State) (i : Nat) (d : W32) (hi : i < 16) (hg : i ≠ 10) (hr : tblRising s.flt.faults = true) :
    (s.raise i d).faultRec i = (s.faultRec i).occurred s.now d := by
  rw [(Spares.raise deaf_noView s i d).unitFault i hi hg, s.faultRec_setFault_same i _ hr]

theorem State.faultRec_raise_other (s : State) (i j : Nat) (d : W32) (hj : j < 16) (hg : j ≠ 10) (hne : j ≠ i) :
    (s.raise i d).faultRec j = s.faultRec j := by
  rw [(Spares.raise deaf_noView s i d).unitFault j hj hg, s.faultRec_setFault_other i j _ hne]

theorem State.raise_sticky (s : State) (i : Nat) (d : W32) (hi : i < 16) (hg : i ≠ 10) (hr : tblRising s.flt.faults = true) :
    ((s.raise i d).faultRec i).sticky = true := by
  rw [s.faultRec_raise_same i d hi hg hr]
  exact FaultRec.occurred_sticky _ _ _

theorem State.raise_live (s : State) (i : Nat) (d : W32) (hi : i < 16) (hg : i ≠ 10) (hr : tblRising s.flt.faults = true) :
    ((s.raise i d).faultRec i).live = (s.faultRec i).live := by
  rw [s.faultRec_raise_same i d hi hg hr]
  exact FaultRec.occurred_live _ _ _

theorem State.faultsRising_raise (s : State) (i : Nat) (d : W32) (hr : tblRising s.flt.faults = true) :
    tblRising (s.raise i d).flt.faults = true :=
  (Spares.raise deaf_noView s i d).faultsRising (s.faultsRising_setFault i _ hr)

theorem State.raise_plant (s : State) (i : Nat) (d : W32) : (s.raise i d).plant = s.plant := (Spares.raise deaf_noView s i d).plant

theorem State.raise_segs (s : State) (i : Nat) (d : W32) : (s.raise i d).segs = s.segs := (Spares.raise deaf_noView s i d).segs

theorem State.raise_tb (s : State) (i : Nat) (d : W32) : (s.raise i d).tb = s.tb := (Spares.raise deaf_noView s i d).tb

theorem State.raise_out (s : State) (i : Nat) (d : W32) : s.out <+: (s.raise i d).out := (Spares.raise deaf_noView s i d).out

theorem State.faultRec_setLive_same (s : State) (i : Nat) (b : Bool) (hr : tblRising s.flt.faults = true) :
    (s.setLive i b).faultRec i = { s.faultRec i with live := b } := s.faultRec_setFault_same i _ hr

theorem State.faultRec_setLive_other (s : State) (i j : Nat) (b : Bool) (hne : j ≠ i) : (s.setLive i b).faultRec j = s.faultRec j :=
  s.faultRec_setFault_other i j _ hne

theorem State.faultsRising_setLive (s : State) (i : Nat) (b : Bool) (hr : tblRising s.flt.faults = true) :
    tblRising (s.setLive i b).flt.faults = true := s.faultsRising_setFault i _ hr

/-- A fault whose live bit is set as it is raised is live and sticky. -/
theorem State.setLive_raise (s : State) (i : Nat) (d : W32) (hi : i < 16) (hg : i ≠ 10) (hr : tblRising s.flt.faults = true) :
    (((s.setLive i true).raise i d).faultRec i).live = true ∧ (((s.setLive i true).raise i d).faultRec i).sticky = true := by
  have hrising := s.faultsRising_setLive i true hr
  refine ⟨?_, State.raise_sticky _ i d hi hg hrising⟩
  rw [State.raise_live _ i d hi hg hrising, s.faultRec_setLive_same i true hr]

/-- Of the flash fault store a power fail and a thermal trip are the newest record, whatever came before (R463). -/
theorem State.raise_stored (s : State) (i : Nat) (d : W32) (hi : i = 0 ∨ i = 4) :
    ∃ r, (s.raise i d).flt.store.head? = some r ∧ r.cls = 0 ∧ r.index = i := by
  have hstored : ∀ (u : State) (l : LogRec), l.index = i → (u.storeRec l).flt.store.head? = some l := fun u l hl => by
    rcases hi with rfl | rfl <;> simp [State.storeRec, hl]
  have hkept : (decide (i ≤ 0x00C) && (!(s.faultRec i).sticky || i == 0x000 || i == 0x004)) = true := by
    rcases hi with rfl | rfl <;> simp
  unfold State.raise State.raiseBy
  simp only [hkept, if_true]
  exact ⟨_, hstored _ _ rfl, rfl, rfl⟩

/-! ### The pool -/

/-- What computing the pool again leaves (R372, R373): of the plant the pool and SHORT can change, of the unit's faults POWER_MARGIN's record and the
guard's. -/
structure Repooled (s t : State) : Prop where
  tb : t.tb = s.tb
  segs : t.segs = s.segs
  boot : t.boot = { s.boot with lapsesDue := t.boot.lapsesDue }
  plant : t.plant = { s.plant with pool := t.plant.pool, short := t.plant.short }
  faultsRising : tblRising s.flt.faults = true → tblRising t.flt.faults = true
  unitFault : ∀ i, i < 16 → i ≠ 10 → i ≠ 1 → t.faultRec i = s.faultRec i

namespace Repooled

theorem refl (s : State) : Repooled s s := ⟨rfl, rfl, rfl, rfl, id, fun _ _ _ _ => rfl⟩

theorem after {a b c : State} (k : Repooled b c) (h : Repooled a b) : Repooled a c where
  tb := k.tb.trans h.tb
  segs := k.segs.trans h.segs
  boot := by rw [k.boot, h.boot]
  plant := by rw [k.plant, h.plant]
  faultsRising := fun hr => k.faultsRising (h.faultsRising hr)
  unitFault := fun i hi hg h1 => (k.unitFault i hi hg h1).trans (h.unitFault i hi hg h1)

theorem ite {c : Prop} [Decidable c] {s t u : State} (ht : Repooled s t) (hu : Repooled s u) : Repooled s (if c then t else u) := by
  split
  · exact ht
  · exact hu

theorem onPlant (s : State) (f : Plant → Plant) (hf : f s.plant = { s.plant with pool := (f s.plant).pool, short := (f s.plant).short }) :
    Repooled s (s.onPlant f) := ⟨rfl, rfl, rfl, hf, id, fun _ _ _ _ => rfl⟩

theorem setLive (s : State) (b : Bool) : Repooled s (s.setLive 1 b) :=
  ⟨rfl, rfl, rfl, rfl, s.faultsRising_setLive 1 b, fun _ _ _ h1 => s.faultRec_setLive_other 1 _ b h1⟩

theorem raise (s : State) (d : W32) : Repooled s (s.raise 1 d) where
  tb := s.raise_tb 1 d
  segs := s.raise_segs 1 d
  boot := (Spares.raise deaf_noView s 1 d).boot
  plant := by rw [s.raise_plant 1 d]
  faultsRising := s.faultsRising_raise 1 d
  unitFault := fun _ hi hg h1 => s.faultRec_raise_other 1 _ d hi hg h1

end Repooled

theorem State.recomputePool_repooled (s : State) : Repooled s s.recomputePool := by
  have hshort := fun (u : State) b => Repooled.after (Repooled.setLive (u.onPlant fun x => { x with short := b }) b) (Repooled.onPlant u _ rfl)
  have hpool := fun n : BitVec 16 => Repooled.onPlant s (fun x => { x with pool := n }) rfl
  unfold State.recomputePool
  exact .ite (hpool _) (.ite (.after (.raise _ _) (.after (hshort _ _) (hpool _))) (.after (hshort _ _) (hpool _)))

/-- The pool is 0 while a power-fail warning is asserted (R372). -/
theorem State.recomputePool_warned (s : State) (h : s.plant.warn = true) : s.recomputePool.plant.pool = 0 := by
  unfold State.recomputePool
  simp [h]

/-! ### The wires of the segments -/

theorem State.seg_onSeg_same (s : State) (i : Nat) (f : Segment → Segment) (h : tblRising s.segs = true) : (s.onSeg i f).seg i = f (s.seg i) :=
  tblGet_set_same _ _ _ _ h

theorem State.seg_onSeg_other (s : State) (i j : Nat) (f : Segment → Segment) (h : j ≠ i) : (s.onSeg i f).seg j = s.seg j :=
  tblGet_set_other _ _ _ _ _ h

/-- From s to t only the segments of k have gone on, with what their words do to drops, bridges and outputs. -/
structure Wires (k : Set Nat) (s t : State) : Prop where
  plant : t.plant = s.plant
  boot : t.boot = s.boot
  flt : t.flt = s.flt
  rising : tblRising s.segs = true → tblRising t.segs = true
  others : ∀ j, j ∉ k → t.seg j = s.seg j

namespace Wires

variable {k : Set Nat}

theorem refl (s : State) : Wires k s s := ⟨rfl, rfl, rfl, id, fun _ _ => rfl⟩

theorem trans {a b c : State} (h : Wires k a b) (g : Wires k b c) : Wires k a c :=
  ⟨g.plant.trans h.plant, g.boot.trans h.boot, g.flt.trans h.flt, fun hr => g.rising (h.rising hr),
    fun j hj => (g.others j hj).trans (h.others j hj)⟩

theorem after {a b c : State} (g : Wires k b c) (h : Wires k a b) : Wires k a c := h.trans g

theorem mono {k' : Set Nat} (hk : k ⊆ k') {s t : State} (h : Wires k s t) : Wires k' s t :=
  { h with others := fun j hj => h.others j fun hin => hj (hk hin) }

theorem ite {c : Prop} [Decidable c] {s t u : State} (ht : Wires k s t) (hu : Wires k s u) : Wires k s (if c then t else u) := by
  split
  · exact ht
  · exact hu

/-- What changes neither segments nor supply, map and faults. -/
theorem of_eq {s t : State} (hplant : t.plant = s.plant) (hboot : t.boot = s.boot) (hflt : t.flt = s.flt) (hsegs : t.segs = s.segs) :
    Wires k s t :=
  ⟨hplant, hboot, hflt, fun h => by rwa [hsegs], fun j _ => by unfold State.seg; rw [hsegs]⟩

theorem emit (s : State) (o : Output) : Wires k s (s.emit o) :=
  of_eq (s.emit_plant o) (s.emit_boot o) (s.emit_flt o) (s.emit_segs o)

theorem onSeg (s : State) (i : Nat) (f : Segment → Segment) (hi : i ∈ k) : Wires k s (s.onSeg i f) :=
  ⟨rfl, rfl, rfl, fun h => tblRising_set _ _ _ _ h, fun j hj => s.seg_onSeg_other i j f fun h => hj (h ▸ hi)⟩

theorem onBridge (s : State) (p : Nat) (f : Bridge → Bridge) : Wires k s (s.onBridge p f) := of_eq rfl rfl rfl rfl

theorem onWaf (s : State) (g : Nat) (f : WaferDrop → WaferDrop) : Wires k s (s.onWaf g f) := of_eq rfl rfl rfl rfl

theorem foldl {α : Type} (f : State → α → State) (hf : ∀ s x, Wires k s (f s x)) (l : List α) (s : State) : Wires k s (l.foldl f s) := by
  induction l generalizing s with
  | nil => exact refl s
  | cons x l ih => exact (hf s x).trans (ih _)

theorem sendWords (s : State) (i : Nat) (c2 : Bool) (ws : List ColWord) (hi : i ∈ k) : Wires k s (s.sendWords i c2 ws) := by
  have halign : ∀ up : Bool, Wires k s (if up then s.emit (.colant i 2 [alignWord, alignWord]) else s) :=
    fun up => ite (emit s _) (refl s)
  have hrate := fun (u : State) f => (ite (refl u) (onSeg u i f hi) : Wires k u (if (u.seg i).rate2 == c2 then u else u.onSeg i f))
  unfold State.sendWords
  exact after (emit _ _) (after (hrate _ _) (halign _))

theorem busySince (s : State) (i : Nat) (t : Tenure) : Wires k s (s.busySince i t) := by
  unfold State.busySince
  split
  · exact ite (refl s) (emit s _)
  · exact refl s

theorem dropRun (s : State) (i : Nat) (hi : i ∈ k) : Wires k s (s.dropRun i) := by
  unfold State.dropRun
  split
  · exact refl s
  · dsimp only
    split
    · exact (onWaf s _ _).trans (onSeg _ i _ hi)
    · exact onSeg s i _ hi

theorem dropTenure (s : State) (i : Nat) (hi : i ∈ k) : Wires k s (s.dropTenure i) := by
  unfold State.dropTenure
  split
  · exact refl s
  · exact (onSeg s i _ hi).trans (onBridge _ _ _)

theorem sendFreeze (s : State) (i : Nat) (hi : i ∈ k) : Wires k s (s.sendFreeze i) := by
  unfold State.sendFreeze
  dsimp only
  split
  · exact ((((busySince s i _).trans (sendWords _ i _ _ hi)).trans (onBridge _ _ _)).trans (dropRun _ i hi)).trans (onSeg _ i _ hi)
  · exact ((sendWords s i _ _ hi).trans (dropRun _ i hi)).trans (onSeg _ i _ hi)

theorem closeWhistle (s : State) (i : Nat) (hi : i ∈ k) : Wires k s (s.closeWhistle i) := by
  have hclosed := fun f => (onSeg s i f hi).trans (sendWords _ i false [idleWord] hi)
  unfold State.closeWhistle
  exact ite ((hclosed _).trans (sendWords _ i _ _ hi)) (hclosed _)

theorem settleWhistle (s : State) (i : Nat) (hi : i ∈ k) : Wires k s (s.settleWhistle i) := by
  unfold State.settleWhistle
  dsimp only
  split
  · exact ite (refl s) (closeWhistle s i hi)
  · exact refl s

theorem freezeSegment (s : State) (i : Nat) (hi : i ∈ k) : Wires k s (s.freezeSegment i) := by
  unfold State.freezeSegment
  exact ite (refl s) (ite (onSeg s i _ hi) ((settleWhistle s i hi).trans (sendFreeze _ i hi)))

theorem closeTenure (s : State) (i : Nat) (hi : i ∈ k) : Wires k s (s.closeTenure i) := by
  have hended := fun f => ((dropTenure s i hi).trans (onSeg _ i f hi)).trans (settleWhistle _ i hi)
  unfold State.closeTenure
  exact ite (hended _) (((hended _).trans (sendWords _ i _ _ hi)).trans (onSeg _ i _ hi))

theorem freezeAll (s : State) : Wires Set.univ s s.freezeAll := foldl _ (fun t i => freezeSegment t i (Set.mem_univ i)) _ s

theorem freezeRest (s : State) : Wires Set.univ s s.freezeRest := by
  refine foldl _ (fun t i => ?_) _ s
  have hi : i ∈ Set.univ := Set.mem_univ i
  have hfreeze : ∀ u : State, Wires Set.univ u (if (t.seg i).freezeDue then u.sendFreeze i else u) := fun u => ite (sendFreeze u i hi) (refl u)
  have htenure : ∀ u : State, Wires Set.univ u (if (u.seg i).tenure.isSome then u.closeTenure i else u) :=
    fun u => ite (closeTenure u i hi) (refl u)
  have hwhistle : ∀ u : State, Wires Set.univ u (if (u.seg i).whistleEnd.isSome then u.closeWhistle i else u) :=
    fun u => ite (closeWhistle u i hi) (refl u)
  have hended := ((hfreeze t).trans (htenure _)).trans (hwhistle _)
  exact ite (refl t) (ite ((hended.trans (onSeg _ i _ hi)).trans (sendWords _ i _ _ hi)) hended)

theorem stopClocks (s : State) : Wires k s s.stopClocks := foldl _ (fun t _ => ite (emit t _) (refl t)) _ s

end Wires

theorem Wires.foldl_mem {step : State → Nat → State} (hstep : ∀ s i, Wires {i} s (step s i)) (l : List Nat) (s : State) :
    Wires {i | i ∈ l} s (l.foldl step s) := by
  induction l generalizing s with
  | nil => exact refl s
  | cons j l ih =>
    have hhead : ({j} : Set Nat) ⊆ {i | i ∈ j :: l} := fun i hi => by rw [Set.mem_singleton_iff.mp hi]; exact List.mem_cons_self
    exact ((hstep s j).mono hhead).trans ((ih _).mono fun i hi => List.mem_cons_of_mem j hi)

/-- Steps that each act on one segment act on each of a list's segments once, from what that segment was. -/
theorem State.foldl_segs {step : State → Nat → State} {R : Segment → Segment → Prop} (hstep : ∀ s i, Wires {i} s (step s i))
    (hR : ∀ s i, tblRising s.segs = true → R (s.seg i) ((step s i).seg i)) (l : List Nat) (hl : l.Nodup) (s : State)
    (hs : tblRising s.segs = true) (i : Nat) (hi : i ∈ l) : R (s.seg i) ((l.foldl step s).seg i) := by
  induction l generalizing s with
  | nil => cases hi
  | cons j l ih =>
    obtain ⟨hj, hl⟩ := List.nodup_cons.mp hl
    rw [List.foldl_cons]
    rcases List.mem_cons.mp hi with rfl | hi
    · rw [(Wires.foldl_mem hstep l _).others i hj]
      exact hR s i hs
    · have hne : i ∉ ({j} : Set Nat) := fun h => hj (Set.mem_singleton_iff.mp h ▸ hi)
      rw [← (hstep s j).others i hne]
      exact ih hl (step s j) ((hstep s j).rising hs) hi

/-- FREEZE on a segment whose clock runs: at once, or after the response of the transaction on the wires (R83, R101). -/
def FreezesTo (x y : Segment) : Prop := x.clk = true → (x.tx = none → y.frozen = true) ∧ (x.tx ≠ none → y.freezeDue = true)

theorem State.sendFreeze_frozen (s : State) (i : Nat) (hs : tblRising s.segs = true) : ((s.sendFreeze i).seg i).frozen = true := by
  have hlast : ∃ u f, s.sendFreeze i = State.onSeg u i f ∧ tblRising u.segs = true ∧ ∀ x : Segment, (f x).frozen = true := by
    have hk : i ∈ ({i} : Set Nat) := rfl
    unfold State.sendFreeze
    dsimp only
    split
    · exact ⟨_, _, rfl, ((((Wires.busySince s i _).trans (Wires.sendWords _ i _ _ hk)).trans (Wires.onBridge _ _ _)).trans
        (Wires.dropRun _ i hk)).rising hs, fun _ => rfl⟩
    · exact ⟨_, _, rfl, ((Wires.sendWords s i _ _ hk).trans (Wires.dropRun _ i hk)).rising hs, fun _ => rfl⟩
  obtain ⟨u, f, heq, hu, hf⟩ := hlast
  rw [heq, u.seg_onSeg_same i f hu]
  exact hf _

theorem State.freezeSegment_freezes (s : State) (i : Nat) (hs : tblRising s.segs = true) : FreezesTo (s.seg i) ((s.freezeSegment i).seg i) := by
  intro hclk
  unfold State.freezeSegment
  simp only [hclk, Bool.not_true, Bool.false_eq_true, if_false]
  cases htx : (s.seg i).tx with
  | none =>
    refine ⟨fun _ => ?_, fun h => absurd rfl h⟩
    exact State.sendFreeze_frozen _ i ((Wires.settleWhistle s i (k := {i}) rfl).rising hs)
  | some t =>
    refine ⟨fun h => (Option.some_ne_none t h).elim, fun _ => ?_⟩
    simp [s.seg_onSeg_same i _ hs]

/-- Every segment freezes (R31, R101). -/
theorem State.freezeAll_freezes (s : State) (i : SegId) (hs : tblRising s.segs = true) : FreezesTo (s.seg i) (s.freezeAll.seg i) :=
  State.foldl_segs (fun t j => Wires.freezeSegment t j rfl) (fun t j ht => t.freezeSegment_freezes j ht) (List.range 64) List.nodup_range s hs i
    (List.mem_range.mpr i.isLt)

end Sys2Proof.Machine
end

section
/-! Mains, supply, temperature, fans, memory and vendor cores of a powered unit (O48). -/

namespace Sys2Proof.Machine

open Sys2Proof

theorem State.past_iff (s : State) (a t : Nat) : s.past a t = true ↔ a + t ≤ s.tick := decide_eq_true_iff

/-! ### Mains and supply (R38, R39, R372, R373) -/

/-- The plant once the supply's warning has come, before the pool is computed again. -/
def State.warned (s : State) (dv : Nat) : State := s.onPlant fun x => { x with warn := true, lineDv := dv, halted := true, restoreTick := none }

/-- The fault of a power-fail warning, once the pool is empty. -/
def State.warningRaised (s : State) (dv : Nat) : State :=
  ((s.warned dv).recomputePool.setLive 0x000 true).raise 0x000 (BitVec.ofNat 32 dv)

theorem State.assertWarning_eq (s : State) (dv : Nat) :
    s.assertWarning dv = if !s.powered || s.plant.warn then s else (s.warningRaised dv).freezeAll := rfl

theorem State.warningRaised_plant (s : State) (dv : Nat) : (s.warningRaised dv).plant =
    { s.plant with warn := true, lineDv := dv, halted := true, restoreTick := none, pool := 0, short := (s.warned dv).recomputePool.plant.short } := by
  have hpool := State.recomputePool_warned (s.warned dv) rfl
  unfold State.warningRaised
  rw [State.raise_plant]
  refine (State.recomputePool_repooled (s.warned dv)).plant.trans ?_
  rw [hpool]
  rfl

/-- A power-fail warning halts the output, empties the pool, is fault 0x000 and freezes every segment. -/
theorem State.assertWarning_halts (s : State) (dv : Nat) (hs : tblRising s.segs = true) (hf : tblRising s.flt.faults = true)
    (hp : s.powered = true) (hw : s.plant.warn = false) :
    (s.assertWarning dv).plant.warn = true ∧ (s.assertWarning dv).plant.halted = true ∧ (s.assertWarning dv).plant.pool = 0 ∧
      ((s.assertWarning dv).faultRec 0x000).live = true ∧ ((s.assertWarning dv).faultRec 0x000).sticky = true ∧
      ∀ i : SegId, FreezesTo (s.seg i) ((s.assertWarning dv).seg i) := by
  have hpooled := (s.warned dv).recomputePool_repooled
  have hsegs : (s.warningRaised dv).segs = s.segs := (State.raise_segs _ _ _).trans hpooled.segs
  have hwires := Wires.freezeAll (s.warningRaised dv)
  have hfault : (s.warningRaised dv).freezeAll.faultRec 0x000 = (s.warningRaised dv).faultRec 0x000 := by
    unfold State.faultRec; rw [hwires.flt]
  obtain ⟨hlive, hsticky⟩ :=
    State.setLive_raise (s.warned dv).recomputePool 0x000 (BitVec.ofNat 32 dv) (by omega) (by omega) (hpooled.faultsRising hf)
  rw [s.assertWarning_eq dv, if_neg (by simp [hp, hw]), hwires.plant, hfault, s.warningRaised_plant dv]
  refine ⟨rfl, rfl, rfl, hlive, hsticky, fun i => ?_⟩
  have hseg : (s.warningRaised dv).seg i = s.seg i := by unfold State.seg; rw [hsegs]
  rw [← hseg]
  exact State.freezeAll_freezes _ i (by rw [hsegs]; exact hs)

/-- The end of a power-fail warning clears the fault's live bit. -/
theorem powerFailWarningClear_clears (s : State) (hf : tblRising s.flt.faults = true) (hw : s.plant.warn = true) :
    ∃ t, exec .powerFailWarningClear s = .next t ∧ t.plant.warn = false ∧ (t.faultRec 0x000).live = false := by
  set u := (s.onPlant fun x => { x with warn := false }).setLive 0x000 false with hu
  have hpooled := u.recomputePool_repooled
  refine ⟨u.recomputePool, ?_, ?_, ?_⟩
  · rw [exec_powerFailWarningClear]
    unfold execPowerFailWarningClear
    simp only [hw, Bool.not_true, Bool.false_eq_true, if_false]
    rfl
  · rw [hpooled.plant]; rfl
  · rw [hpooled.unitFault 0 (by omega) (by omega) (by omega)]
    exact congrArg FaultRec.live (State.faultRec_setLive_same _ 0 false hf)

/-- A cycle's reading counts 60 s; at 80 V and above the time towards restoration runs, below it does not. -/
theorem mainsCycle_counts (s : State) (dv : Nat) (hp : s.powered = true) :
    ∃ t, exec (.mainsCycle dv) s = .next t ∧ t.plant.lineDv = dv ∧ t.plant.lineReadings.head? = some (s.tick, dv) ∧
      (∀ r ∈ t.plant.lineReadings, s.tick ≤ r.1 + 6000000000) ∧ (dv < 800 → t.plant.restoreTick = none) ∧
      (800 ≤ dv → t.plant.restoreTick = some (s.plant.restoreTick.getD s.tick)) := by
  set u := s.onPlant fun x =>
    { x with lineDv := dv,
             lineReadings := (s.tick, dv) :: x.lineReadings.filter fun r => decide (s.tick ≤ r.1 + ticksOfS 60),
             restoreTick := if dv < 800 then none else some (x.restoreTick.getD s.tick) } with hu
  have hpooled := u.recomputePool_repooled.plant
  have hrecent : ∀ r ∈ u.plant.lineReadings, s.tick ≤ r.1 + 6000000000 := by
    intro r hr
    rcases List.mem_cons.mp hr with rfl | hr
    · exact Nat.le_add_right _ _
    · have hcounts : s.tick ≤ r.1 + ticksOfS 60 := of_decide_eq_true (List.mem_filter.mp hr).2
      unfold ticksOfS at hcounts
      omega
  have heq : exec (.mainsCycle dv) s = .next (if dv < 750 then u.recomputePool.assertWarning dv else u.recomputePool) := by
    rw [exec_mainsCycle]
    unfold execMainsCycle
    simp only [hp, Bool.not_true, Bool.false_eq_true, if_false]
    rfl
  by_cases hlow : dv < 750
  · refine ⟨u.recomputePool.assertWarning dv, by rw [heq, if_pos hlow], ?_⟩
    rw [State.assertWarning_eq]
    split
    · rw [hpooled]
      exact ⟨rfl, rfl, hrecent, fun h => if_pos h, fun h => absurd hlow (by omega)⟩
    · rw [(Wires.freezeAll _).plant, State.warningRaised_plant, hpooled]
      exact ⟨rfl, rfl, hrecent, fun _ => rfl, fun h => absurd hlow (by omega)⟩
  · refine ⟨u.recomputePool, by rw [heq, if_neg hlow], ?_⟩
    rw [hpooled]
    exact ⟨rfl, rfl, hrecent, fun h => if_pos h, fun h => if_neg (by omega)⟩

/-- Every segment resumes with its next cycle. -/
def State.resumeAll (s : State) : State := (List.range 64).foldl (fun s i => s.onSeg i fun x => { x with resumeDue := true }) s

theorem Wires.resumeOne (s : State) (i : Nat) : Wires {i} s (s.onSeg i fun x => { x with resumeDue := true }) := Wires.onSeg s i _ rfl

theorem State.resumeAll_plant (s : State) : s.resumeAll.plant = s.plant := (Wires.foldl_mem Wires.resumeOne (List.range 64) s).plant

theorem State.resumeAll_seg (s : State) (i : SegId) (hs : tblRising s.segs = true) : (s.resumeAll.seg i).resumeDue = true :=
  State.foldl_segs (R := fun _ y => y.resumeDue = true) Wires.resumeOne (fun t j ht => by rw [t.seg_onSeg_same j _ ht]) (List.range 64)
    List.nodup_range s hs i (List.mem_range.mpr i.isLt)

/-- The state once output may go on, before the pool is computed again. -/
def State.mainsBack (s : State) : State :=
  (s.onPlant fun x => { x with halted := false, lineReadings := [] }).resumeAll.onFlt fun f => { f with storeRestored := true }

theorem State.mainsBack_plant (s : State) : s.mainsBack.plant = { s.plant with halted := false, lineReadings := [] } := by
  unfold State.mainsBack
  rw [State.onFlt_plant, State.resumeAll_plant]
  rfl

theorem exec_mainsRestored_due (s : State) (k : Nat) (hh : s.plant.halted = true) (hk : s.plant.restoreTick = some k)
    (hpast : k + 10000000 ≤ s.tick) : exec .mainsRestored s = .next s.mainsBack.recomputePool := by
  have hdue : s.past k (ticksOfMs 100) = true := (s.past_iff k _).mpr (by unfold ticksOfMs; omega)
  rw [exec_mainsRestored]
  unfold execMainsRestored
  rw [if_neg (by simp [hh, hk, hdue])]
  rfl

/-- Once the mains have stood 100 ms output goes on with each segment's next cycle. -/
theorem mainsRestored_resumes (s : State) (k : Nat) (hs : tblRising s.segs = true) (hh : s.plant.halted = true)
    (hk : s.plant.restoreTick = some k) (hpast : k + 10000000 ≤ s.tick) :
    ∃ t, exec .mainsRestored s = .next t ∧ t.plant.halted = false ∧ t.plant.lineReadings = [] ∧ ∀ i : SegId, (t.seg i).resumeDue = true := by
  have hpooled := s.mainsBack.recomputePool_repooled
  refine ⟨s.mainsBack.recomputePool, exec_mainsRestored_due s k hh hk hpast, by rw [hpooled.plant, s.mainsBack_plant],
    by rw [hpooled.plant, s.mainsBack_plant], fun i => ?_⟩
  have hseg : s.mainsBack.recomputePool.seg i = (s.onPlant fun x => { x with halted := false, lineReadings := [] }).resumeAll.seg i := by
    unfold State.seg
    rw [hpooled.segs, State.mainsBack, State.onFlt_segs]
  rw [hseg]
  exact State.resumeAll_seg _ i hs

/-- A supply that falls below 240 W is fault 0x00C. -/
theorem psuLimitChange_low (s : State) (w : Nat) (hf : tblRising s.flt.faults = true) (hp : s.powered = true) (hlow : w < 960)
    (hwas : 960 ≤ s.plant.psuLimit.toNat) :
    ∃ t, exec (.psuLimitChange w) s = .next t ∧ t.plant.psuLimit = BitVec.ofNat 16 w ∧ (t.faultRec 0x00C).live = true ∧
      (t.faultRec 0x00C).sticky = true := by
  set u := s.onPlant fun x => { x with psuLimit := BitVec.ofNat 16 w } with hu
  set r := (u.setLive 0x00C true).raise 0x00C (BitVec.ofNat 32 u.plant.lineDv) with hr
  have hpooled := r.recomputePool_repooled
  have hfault := hpooled.unitFault 0x00C (by omega) (by omega) (by omega)
  obtain ⟨hlive, hsticky⟩ := u.setLive_raise 0x00C (BitVec.ofNat 32 u.plant.lineDv) (by omega) (by omega) hf
  refine ⟨r.recomputePool, ?_, ?_, by rw [hfault]; exact hlive, by rw [hfault]; exact hsticky⟩
  · rw [exec_psuLimitChange]
    unfold execPsuLimitChange
    simp only [hp, hlow, hwas, Bool.not_true, Bool.false_eq_true, if_false, decide_true, Bool.and_self, if_true]
    rfl
  · rw [hpooled.plant]
    show r.plant.psuLimit = _
    rw [hr, State.raise_plant]
    rfl

/-! ### Temperature and fans (R34, R35) -/

theorem thermalWarning_warns (s : State) (x : Int) (hf : tblRising s.flt.faults = true) (hp : s.powered = true) (hx : 1000 ≤ x)
    (hcold : (s.faultRec 0x003).live = false) :
    ∃ t, exec (.thermalWarning x) s = .next t ∧ t.plant.junction = x ∧ (t.faultRec 0x003).live = true ∧ (t.faultRec 0x003).sticky = true := by
  set u := s.onPlant fun y => { y with junction := x } with hu
  have hpu : u.powered = true := hp
  have hcoldu : (u.faultRec 0x003).live = false := hcold
  refine ⟨(u.setLive 0x003 true).raise 0x003 (BitVec.ofInt 32 x), ?_, ?_, u.setLive_raise 0x003 _ (by omega) (by omega) hf⟩
  · rw [exec_thermalWarning]
    unfold execThermalWarning
    rw [if_neg (by omega : ¬ x < 1000)]
    simp only [← hu, hpu, hcoldu, Bool.not_true, Bool.or_self, Bool.false_eq_true, if_false]
  · rw [State.raise_plant]; rfl

theorem State.lost_store (s : State) : s.lost.flt.store = s.flt.store := rfl

theorem State.powerDown_store (s : State) : s.powerDown.flt.store = s.flt.store :=
  (State.lost_store _).trans (congrArg Flt.store (Wires.stopClocks (k := Set.univ) s).flt)

theorem State.tripped_store (s : State) :
    (s.freezeRest.powerDown.onBoot fun b => { b with phase := .tripped }).flt.store = s.flt.store :=
  calc (s.freezeRest.powerDown.onBoot fun b => { b with phase := .tripped }).flt.store
      _ = s.freezeRest.powerDown.flt.store := congrArg Flt.store (State.onBoot_flt _ _)
      _ = s.freezeRest.flt.store := State.powerDown_store _
      _ = s.flt.store := congrArg Flt.store (Wires.freezeRest s).flt

/-- A trip at 115 °C turns the unit off, with THERMAL_TRIP as the store's newest record. -/
theorem thermalTrip_trips (s : State) (x : Int) (hp : s.powered = true) (hx : 1150 ≤ x) :
    ∃ t r, exec (.thermalTrip x) s = .next t ∧ t.boot.phase = .tripped ∧ t.flt.store.head? = some r ∧ r.cls = 0 ∧ r.index = 4 := by
  set u := (s.onPlant fun y => { y with junction := x }).freezeAll with hu
  obtain ⟨r, hstore, hcls, hindex⟩ := u.raise_stored 0x004 (BitVec.ofInt 32 x) (.inr rfl)
  refine ⟨(u.raise 0x004 (BitVec.ofInt 32 x)).freezeRest.powerDown.onBoot fun b => { b with phase := .tripped }, r, ?_, rfl, ?_, hcls, hindex⟩
  · rw [exec_thermalTrip]
    unfold execThermalTrip
    rw [if_neg (by simp only [hp, Bool.not_true, Bool.or_false]; simpa using hx)]
  · exact (congrArg List.head? (State.tripped_store _)).trans hstore

/-- A fan that fails is fault 0x005, and its live bit says whether any module is failed. -/
theorem fanFailure_maps (s : State) (m : Fin 4) (failed : Bool) (hf : tblRising s.flt.faults = true) (hp : s.powered = true)
    (hnew : tblGet false s.plant.fans m ≠ failed) :
    ∃ t, exec (.fanFailure m failed) s = .next t ∧ t.plant.fans = tblSet false s.plant.fans m failed ∧
      (t.faultRec 0x005).live = (t.plant.fanMap != 0) ∧ (failed = true → (t.faultRec 0x005).sticky = true) ∧
      (failed = false → (t.faultRec 0x005).sticky = (s.faultRec 0x005).sticky) := by
  set u := s.onPlant fun x => { x with fans := tblSet false x.fans m failed } with hu
  set w := u.setLive 0x005 (u.plant.fanMap != 0) with hw
  have hpu : u.powered = true := hp
  have hlive : w.faultRec 0x005 = { u.faultRec 0x005 with live := u.plant.fanMap != 0 } := u.faultRec_setLive_same 5 _ hf
  have hwf : tblRising w.flt.faults = true := u.faultsRising_setLive 5 _ hf
  have heq : exec (.fanFailure m failed) s =
      .next (if failed && !tblGet false s.plant.fans m then w.raise 0x005 (BitVec.ofNat 32 u.plant.fanMap) else w) := by
    rw [exec_fanFailure]
    unfold execFanFailure
    simp only [← hu, hpu, Bool.not_true, Bool.false_eq_true, if_false]
    rfl
  cases failed with
  | false =>
    refine ⟨w, heq, rfl, congrArg FaultRec.live hlive, fun h => (Bool.false_ne_true h).elim, fun _ => ?_⟩
    rw [hlive]
    rfl
  | true =>
    have hwas : tblGet false s.plant.fans m = false := Bool.eq_false_iff.mpr hnew
    rw [hwas] at heq
    refine ⟨w.raise 0x005 (BitVec.ofNat 32 u.plant.fanMap), heq, ?_, ?_, fun _ => ?_, fun h => (Bool.false_ne_true h.symm).elim⟩
    · rw [State.raise_plant]; rfl
    · rw [State.raise_live w 5 _ (by omega) (by omega) hwf, State.raise_plant]
      exact congrArg FaultRec.live hlive
    · exact State.raise_sticky w 5 _ (by omega) (by omega) hwf

/-! ### Memory (R13, R135) -/

theorem State.poisonOut_at (s : State) (k : Nat) (o : Output) (h : s.out[k]? = some o) : (s.poisonOut k).out[k]? = some o.poison := by
  simp [State.poisonOut, List.getElem?_map, List.getElem?_zipIdx, h]

/-- An uncorrectable memory error is fault 0x007, and the write that carries it out goes with EP set. -/
theorem memoryError_raises (s : State) (a : BitVec 35) (sent : Option Nat) (hf : tblRising s.flt.faults = true) (hp : s.powered = true) :
    ∃ t, exec (.memoryError a (.uncorrectable sent)) s = .next t ∧ (t.faultRec 0x007).sticky = true ∧
      ∀ k q adr l, sent = some k → s.out[k]? = some (.memWrite q adr l) → t.out[k]? = some (Output.memWrite q adr l).poison := by
  cases sent with
  | none =>
    refine ⟨s.raise 0x007 (a.extractLsb' 3 32), ?_, s.raise_sticky 7 _ (by omega) (by omega) hf, fun _ _ _ _ h => nomatch h⟩
    rw [exec_memoryError]
    unfold execMemoryError
    rw [if_neg (by simp [hp])]
  | some k =>
    refine ⟨(s.poisonOut k).raise 0x007 (a.extractLsb' 3 32), ?_, State.raise_sticky (s.poisonOut k) 7 _ (by omega) (by omega) hf, ?_⟩
    · rw [exec_memoryError]
      unfold execMemoryError
      rw [if_neg (by simp [hp])]
    · intro j q adr l hj hout
      obtain rfl : k = j := Option.some.inj hj
      have hpoison := s.poisonOut_at k _ hout
      obtain ⟨more, hmore⟩ := (s.poisonOut k).raise_out 7 (a.extractLsb' 3 32)
      show ((s.poisonOut k).raise 7 (a.extractLsb' 3 32)).out[k]? = _
      rw [← hmore, List.getElem?_append_left (List.getElem?_eq_some_iff.mp hpoison).1, hpoison]

/-! ### Vendor cores (R481) -/

/-- The sessions of every partition but p. -/
def sessionsBut (p : Nat) : Nat → Partition → Session := fun q x => if q = p then .closed else x.session

theorem deaf_sessionsBut (p : Nat) : Deaf (sessionsBut p) := fun _ _ => rfl

/-- The sessions of all partitions. -/
def sessions : Nat → Partition → Session := fun _ x => x.session

theorem deaf_sessions : Deaf sessions := fun _ _ => rfl

theorem State.clearPair_parts (s : State) (p : Nat) : (s.clearPair p).parts = s.parts := by
  unfold State.clearPair State.clearCapture
  dsimp only
  split <;> rfl

theorem State.part_closeSession (s : State) (p q : Nat) :
    (s.closeSession p).part q = (s.onPart p fun x => { x with session := .closed, level := 0 }).part q := by
  have hparts : ∀ (t u : State) (c : Prop) [Decidable c], t.parts = u.parts →
      ((if c then t else t.clearPair p).setLive (0x010 + 2 * p) false).part q = u.part q := fun t u c _ h => by
    show tblGet {} (if c then t else t.clearPair p).parts q = tblGet {} u.parts q
    rw [← h]
    split
    · rfl
    · rw [State.clearPair_parts]
  exact hparts _ _ _ rfl

theorem State.endSession_closed (s : State) (p : Nat) (hr : tblRising s.parts = true) : ((s.endSession p).part p).session = .closed := by
  have hobjects := ((Spares.sheepdog deaf_noView s p fun _ _ => rfl).trans (Spares.destroyObjects deaf_noView _ p fun _ => rfl)).trans
    (Spares.endRestores _ p)
  have hreads := hobjects.trans (Spares.dropReads deaf_noView _ p fun _ => true)
  unfold State.endSession
  rw [State.part_closeSession, State.part_onPart_same _ p _ (State.rising_onPart _ p _ (hreads.parts hr).1)]

/-- Sessions that a vendor core's failure ends are closed, and closed ones stay so. -/
theorem State.endSessions_closed (l : List Nat) (hl : ∀ p ∈ l, p < 8) (s : State) (hr : tblRising s.parts = true) (q : Nat)
    (hq : q ∈ l ∨ (s.part q).session = .closed) :
    ((l.foldl (fun s p => (s.composeFirst p).endSession p) s).part q).session = .closed := by
  induction l generalizing s with
  | nil => exact hq.resolve_left List.not_mem_nil
  | cons p l ih =>
    have hp : p < 8 := hl p List.mem_cons_self
    have hfirst := Spares.composeFirst deaf_sessions s p
    have hrising := (hfirst.parts hr).1
    have hends := Spares.endSession (deaf_sessionsBut p) (s.composeFirst p) p hp fun _ _ => by simp [sessionsBut]
    rw [List.foldl_cons]
    refine ih (fun r h => hl r (List.mem_cons_of_mem p h)) _ (hends.parts hrising).1 ?_
    by_cases hqp : q = p
    · subst hqp
      exact .inr ((s.composeFirst q).endSession_closed q hrising)
    · rcases hq with hq | hq
      · exact .inl ((List.mem_cons.mp hq).resolve_left hqp)
      · refine .inr ?_
        have hkept := (hends.parts hrising).2 q
        simp only [sessionsBut, if_neg hqp] at hkept
        rw [hkept]
        exact ((hfirst.parts hr).2 q).trans hq

/-- A vendor core's failure is fault 0x00B and ends the sessions that the core serves. -/
theorem vendorCoreRestart_ends (s : State) (c : Fin 2) (hparts : tblRising s.parts = true) (hf : tblRising s.flt.faults = true)
    (hp : s.powered = true) (hup : tblFind s.boot.coreDown c = none) (htrial : s.inTrial = false) :
    ∃ t, exec (.vendorCoreRestart c) s = .next t ∧ tblFind t.boot.coreDown c = some s.tick ∧ (t.faultRec 0x00B).sticky = true ∧
      ∀ p : PartId, interpreterOf p = c.val → (t.part p).session = .closed := by
  set u := (s.raise 0x00B 0).onBoot fun b => { b with coreDown := tblPut b.coreDown c s.tick } with hu
  set served := (List.range 8).filter fun p => interpreterOf p == c.val && (u.part p).session != .closed with hserved
  set w := served.foldl (fun s p => (s.composeFirst p).endSession p) u with hw
  have hserved8 : ∀ p ∈ served, p < 8 := fun p h => List.mem_range.mp (List.mem_filter.mp h).1
  have hstep : ∀ t p, p ∈ served → Spares noView u t → Spares noView t ((t.composeFirst p).endSession p) := fun t p h _ =>
    (Spares.composeFirst deaf_noView t p).trans (Spares.endSession deaf_noView _ p (hserved8 p h) fun _ _ => rfl)
  have hspares : Spares noView u (u.fairly w) := (Spares.foldl _ served u hstep).fairly
  have hrising : tblRising u.parts = true := ((Spares.raise deaf_noView s 0x00B 0).parts hparts).1
  refine ⟨u.fairly w, ?_, ?_, ?_, fun p hpc => ?_⟩
  · rw [exec_vendorCoreRestart]
    unfold execVendorCoreRestart
    simp only [hp, hup, htrial, Bool.not_true, Option.isSome_none, Bool.or_self, Bool.false_eq_true, if_false]
    rfl
  · rw [hspares.boot]
    exact tblFind_put_same _ _ _
  · rw [hspares.unitFault 0x00B (by omega) (by omega)]
    exact s.raise_sticky 0x00B 0 (by omega) (by omega) hf
  · have hpart : (u.fairly w).part p = w.part p := by
      rcases u.fairly_eq w with heq | ⟨l, heq⟩ <;> rw [heq]
      rfl
    rw [hpart]
    refine State.endSessions_closed served hserved8 u hrising p ?_
    by_cases hclosed : (u.part p).session = .closed
    · exact .inr hclosed
    · refine .inl (List.mem_filter.mpr ⟨List.mem_range.mpr p.isLt, ?_⟩)
      simp [hpc, hclosed]

/-- The core runs again: its restart is over, whatever lapses and commands it then takes. -/
theorem vendorCoreRunning_ends (s : State) (c : Fin 2) (k : Nat) (hr : tblRising s.boot.coreDown = true)
    (hdown : tblFind s.boot.coreDown c = some k) :
    ∃ t, exec (.vendorCoreRunning c) s = .next t ∧ tblFind t.boot.coreDown c = none := by
  set u := s.onBoot fun b => { b with coreDown := tblErase b.coreDown c } with hu
  set due := if u.boot.coreDown.isEmpty then u.boot.lapsesDue else [] with hdue
  set w := due.foldl (fun s p => if (s.part p).session == .opened then s.lapse p else s) u with hw
  set x := (if w.boot.coreDown.isEmpty then w.onBoot fun b => { b with lapsesDue := [] } else w) with hx
  have hlapses : Spares noView u w :=
    Spares.foldl_of _ (fun t p => .ite (Spares.lapse deaf_noView t p fun _ _ => rfl) (.refl t)) due u
  have hacted : Spares noView w x := .ite (Spares.onLapses w fun _ => []) (.refl w)
  have hrings : Spares noView x (x.fairly ((List.range 8).foldl (fun s p => s.settleRings p) x)) :=
    Spares.fairly (Spares.foldl_of _ (fun t p => Spares.settleRings deaf_noView t p fun _ _ => rfl) _ x)
  refine ⟨x.fairly ((List.range 8).foldl (fun s p => s.settleRings p) x), ?_, ?_⟩
  · rw [exec_vendorCoreRunning]
    unfold execVendorCoreRunning
    rw [if_neg (by simp [hdown])]
  · have hall := (hlapses.trans hacted).trans hrings
    refine Eq.trans (congrArg (fun b : Boot => tblFind b.coreDown c) hall.boot) ?_
    exact tblFind_erase_same _ _ hr

/-- Settles O48: each of its events is followed through the fault it raises (`Spares.raise`), the pool it computes again (`Repooled`), the segments it
freezes (`Wires`) or the sessions it ends (`Spares.endSession`). -/
theorem supplyTemperatureAndFailures : Obligations.SupplyTemperatureAndFailures := by
  refine ⟨fun s ⟨hparts, hsegs, _⟩ hf hp => ⟨fun dv hw => ?_, powerFailWarningClear_clears s hf, fun dv => mainsCycle_counts s dv hp,
      fun k hh hk hpast => mainsRestored_resumes s k hsegs hh hk hpast, fun w hlow hwas => psuLimitChange_low s w hf hp hlow hwas,
      ⟨s.powerDown, rfl, rfl, rfl⟩⟩,
    fun s ⟨hparts, hsegs, _⟩ hf hp => ⟨fun x hx hcold => thermalWarning_warns s x hf hp hx hcold, fun x hx => if_neg (by omega),
      fun x hx => thermalTrip_trips s x hp hx, fun u x htrip hx => ?_, fun m failed _ hnew => fanFailure_maps s m failed hf hp hnew, fun a => ?_,
      fun a sent => memoryError_raises s a sent hf hp, fun c hup htrial => vendorCoreRestart_ends s c hparts hf hp hup htrial,
      fun c k hr hdown => vendorCoreRunning_ends s c k hr hdown⟩⟩
  · obtain ⟨hwarn, hhalted, hpool, hlive, hsticky, hfreeze⟩ := s.assertWarning_halts dv hsegs hf hp hw
    exact ⟨s.assertWarning dv, rfl, hwarn, hhalted, hpool, hlive, hsticky, fun i hclk => hfreeze i hclk⟩
  · rw [exec_thermalRestart]
    unfold execThermalRestart
    rw [if_neg (by simp [htrip, hx])]
  · rw [exec_memoryError]
    unfold execMemoryError
    rw [if_neg (by simp [hp])]

end Sys2Proof.Machine
end

section
/-! OPEN_SESSION, CLOSE_SESSION and HANDBACK complete with their effects (O5). -/

namespace Sys2Proof.Machine

open Sys2Proof

/-- What ring commands see of a partition's session: its state, level and number, the heartbeat timer, the shapers and the rings. -/
def sessionParts : Nat → Partition → Session × Nat × W16 × Nat × Nat × Tbl Shaper × Tbl Ring :=
  fun _ x => (x.session, x.level, x.sessNum, x.hbMs, x.hbTick, x.shapers, x.rings)

theorem deaf_sessionParts : Deaf sessionParts := fun _ _ => rfl

/-- The rings of all partitions. -/
def ringsOf : Nat → Partition → Tbl Ring := fun _ x => x.rings

theorem deaf_ringsOf : Deaf ringsOf := fun _ _ => rfl

/-- What spares the rings leaves each of them. -/
theorem Spares.ring {s t : State} (h : Spares ringsOf s t) (hr : tblRising s.parts = true) (p r : Nat) : t.ring p r = s.ring p r :=
  State.ring_of_rings s t p r ((h.parts hr).2 p)

theorem State.part_atRing (s : State) (p r : Nat) (h : tblRising s.parts = true) : (s.atRing p r).part p = { s.part p with lastRing := r } :=
  s.part_onPart_same p _ h

@[simp] theorem State.onPart_bellsPass (s : State) (p : Nat) (f : Partition → Partition) : (s.onPart p f).bellsPass = s.bellsPass := rfl
@[simp] theorem State.setLive_bellsPass (s : State) (i : Nat) (b : Bool) : (s.setLive i b).bellsPass = s.bellsPass := rfl

/-! ### Checks of an entry's fields (R151) -/

theorem minNat?_eq_none {l : List Nat} (h : minNat? l = none) : l = [] := by
  have hsome : ∀ (l : List Nat) (x : Nat),
      (l.foldl (fun m x => match m with | none => some x | some y => some (min x y)) (some x)).isSome := by
    intro l
    induction l with
    | nil => exact fun x => rfl
    | cons y l ih => exact fun x => ih _
  cases l with
  | nil => rfl
  | cons x l =>
    have hx : (minNat? (x :: l)).isSome := hsome l x
    rw [h] at hx
    cases hx

/-- An entry that passes step 1 fails none of the checks on its fields. -/
theorem badField_check {layout : List (Nat × Nat)} {checks : List (Bool × Nat)} {e : BitVec 512} (h : badField layout checks e = none)
    {c : Bool} {b : Nat} (hc : (c, b) ∈ checks) : c = false := by
  have hnone : (checks.filter (·.1)).map (·.2) = [] := (List.append_eq_nil_iff.mp (minNat?_eq_none h)).2
  cases c with
  | false => rfl
  | true => exact absurd (List.mem_filter.mpr ⟨hc, rfl⟩) (by rw [List.map_eq_nil_iff.mp hnone]; exact List.not_mem_nil)

/-- A ring-0 command that passes step 2 stands on ring 0. -/
theorem ring0_of_sessionCheck {s : State} {p r op : Nat} (h : firstFail (sessionCheck s p r op true) = none) : r = 0 := by
  by_contra hr
  simp only [sessionCheck, firstFail, failIf, Bool.true_and, bne_iff_ne, ne_eq, hr, not_false_eq_true, if_true] at h
  split at h <;> simp at h

/-! ### Steps after a completion -/

/-- A finished command that is answered OK takes ring steps. -/
theorem State.finish_step (s m : State) (p r : Nat) (x : Reply) (hm : tblRising m.parts = true) (hb : m.bellsPass = true) (hr : r < 32)
    (hx : x.status = 0) : RingStep p m (s.finish p r (.reply x m)) := by
  have heq : s.finish p r (.reply x m) = (m.complete p r x s.now).settleRings p := by unfold State.finish; simp [hx]
  rw [heq]
  have hcomplete := m.complete_step p r x s.now hm hb hr
  exact hcomplete.trans (State.settleRings_step p _ hcomplete.rising (hcomplete.bells hb))

/-- An answer stays one through further ring steps. -/
theorem Answered.extend {p r : Nat} {x : Reply} {v : Nat} {m u t : State} (h : Answered p r x v m u) (k : RingStep p u t) :
    Answered p r x v m t := by
  obtain ⟨c, rest, hf, ha⟩ := h
  refine ⟨c, rest, hf, ?_⟩
  dsimp only at ha ⊢
  split at ha
  · obtain ⟨more, hmore⟩ := ha
    obtain ⟨l, hl⟩ := k.out
    rw [if_pos (by assumption)]
    exact ⟨more ++ l, by rw [hl, hmore]; simp⟩
  · obtain ⟨more, hmore⟩ := ha
    obtain ⟨l, hl⟩ := k.held
    rw [if_neg (by assumption)]
    exact ⟨more ++ l, by rw [hl, hmore]; simp⟩

/-! ### OPEN_SESSION (R157) -/

theorem State.openSession_spares (s : State) (p level hb : Nat) (fallback : Bool) :
    ∃ f : Partition → Partition, Spares sessionParts (s.onPart p f) (s.openSession p level hb fallback) ∧
      ∀ x, sessionParts p (f x) =
        (.opened, level, nextSession x.sessNum, hb, s.tick, tblPut x.shapers 0 { rate := 1000, burst := 1024 }, x.rings) :=
  ⟨fun x =>
    { x with session := .opened, level := level, sessNum := nextSession x.sessNum, hbMs := hb, hbTick := s.tick,
             hbPaused := x.dstate == .d3hot, sessFallback := fallback, opened := true,
             shapers := tblPut x.shapers 0 { rate := 1000, burst := 1024 }, bridge := x.bridge.openJournal },
    (Spares.returnDrops _ p _).trans (Spares.updateTakeover deaf_sessionParts _), fun _ => rfl⟩

/-- The session that OPEN_SESSION opens, at the command's turn. -/
theorem State.opened_parts (s : State) (p r level hb : Nat) (fallback : Bool) (hr : tblRising s.parts = true) (hbells : s.bellsPass = true) :
    tblRising (((s.atRing p r).composeFirst p).openSession p level hb fallback).parts = true ∧
      (((s.atRing p r).composeFirst p).openSession p level hb fallback).bellsPass = true ∧
      sessionParts p ((((s.atRing p r).composeFirst p).openSession p level hb fallback).part p) =
        (.opened, level, nextSession (s.part p).sessNum, hb, s.tick, tblPut (s.part p).shapers 0 { rate := 1000, burst := 1024 },
          (s.part p).rings) := by
  set u := (s.atRing p r).composeFirst p with hu
  have hfirst : Spares sessionParts (s.atRing p r) u := Spares.composeFirst deaf_sessionParts _ p
  obtain ⟨hrising, hview⟩ := hfirst.parts (s.rising_atRing p r hr)
  obtain ⟨f, hopen, hf⟩ := u.openSession_spares p level hb fallback
  obtain ⟨hopened, hkept⟩ := hopen.parts (u.rising_onPart p f hrising)
  have htick : u.tick = s.tick := congrArg Timebase.tick hfirst.tb
  have hpart := (hview p).trans (congrArg (sessionParts p) (s.part_atRing p r hr))
  simp only [sessionParts, Prod.mk.injEq] at hpart
  obtain ⟨-, -, hnum, -, -, hshapers, hrings⟩ := hpart
  refine ⟨hopened, hopen.bells (hfirst.bells hbells), ?_⟩
  rw [hkept p, u.part_onPart_same p f hrising, hf, htick, hnum, hshapers, hrings]

/-- OPEN_SESSION completes with the session it opens. -/
theorem openSession_completes (p : PartId) (r : RingId) (s : State) (e : BitVec 512)
    (h : Ready s p r 0x01 e true openLayout (openChecks e)) (hclosed : (s.part p).session = .closed) (hlo : entryField e 0x10 0 8 ≤ 2)
    (hhi : 1 ≤ entryField e 0x11 0 8) :
    let level := min 2 (entryField e 0x11 0 8)
    let hb := entryField e 0x14 0 32
    let m := ((s.atRing p r).composeFirst p).openSession p level hb (entryField e 0x12 0 8 == 1)
    Completes p r (.openSession p r) (replyOk (level + (nextSession (s.part p).sessNum).toNat * 256)) s m ∧
    (m.part p).session = .opened ∧ (m.part p).level = level ∧ (m.part p).sessNum = nextSession (s.part p).sessNum ∧
    (m.part p).hbMs = hb ∧ (m.part p).hbTick = s.tick ∧ (m.part p).shapers = tblPut (s.part p).shapers 0 { rate := 1000, burst := 1024 } := by
  intro level hb m
  obtain ⟨hturn, hfields, hcheck, ⟨hr, -⟩, hbells⟩ := id h
  obtain ⟨hlt, c, rest, hfetched, -⟩ := State.turn_fetched s p r 0x01 e hturn
  obtain ⟨hm, hmb, hview⟩ := s.opened_parts p r level hb (entryField e 0x12 0 8 == 1) hr hbells
  change tblRising m.parts = true at hm
  change m.bellsPass = true at hmb
  change sessionParts p (m.part p) = _ at hview
  simp only [sessionParts, Prod.mk.injEq] at hview
  obtain ⟨hsession, hlevel, hnum, hhb, htick, hshapers, hrings⟩ := hview
  have hring : m.ring p r = s.ring p r := State.ring_of_rings s m p r hrings
  have horder : entryField e 0x10 0 8 ≤ entryField e 0x11 0 8 :=
    Nat.le_of_not_lt (of_decide_eq_false (badField_check (b := bitPos 0x10 0) hfields (List.mem_cons_of_mem _ List.mem_cons_self)))
  have hact : openAct p (s.atRing p r) e = .reply (replyOk (level + (nextSession (s.part p).sessNum).toNat * 256)) m := by
    have hversion : decide (min 2 (entryField e 0x11 0 8) < max (entryField e 0x10 0 8) 1) = false := decide_eq_false (by omega)
    have hstate : ((s.atRing p r).part p).session = .closed := (State.session_atRing s p r hr).trans hclosed
    unfold openAct
    simp only [hversion, hstate]
    show CmdOut.reply (replyOk (level + (m.part p).sessNum.toNat * 256)) m = _
    rw [hnum]
  set u := (s.atRing p r).finish p r (.reply (replyOk (level + (nextSession (s.part p).sessNum).toNat * 256)) m) with hu
  have hcmd : ringCmd s p r 0x01 true openLayout openChecks (openAct p) = .next u := by
    rw [ringCmd_eq s p r 0x01 true openLayout openChecks (openAct p) e h, hact]
  obtain ⟨honly, hanswer⟩ := State.finish_ok (s.atRing p r) m p r (replyOk (level + (nextSession (s.part p).sessNum).toNat * 256)) c rest
    hm hmb (by omega) (by rw [hring]; exact hfetched) rfl
  have hstep := (s.atRing p r).finish_step m p r (replyOk (level + (nextSession (s.part p).sessNum).toNat * 256)) hm hmb (by omega) rfl
  have hsignal : ∀ kept : Bool, RingStep p u (if kept then u.signalUnit p 16 else u) := by
    intro kept
    split
    · exact RingStep.signalUnit p 16 u hstep.rising (hstep.bells hmb) (by omega)
    · exact RingStep.rfl' p u hstep.rising
  refine ⟨⟨_, by rw [exec_openSession]; unfold execOpenSession; rw [hcmd], (hstep.trans (hsignal _)).only, hanswer.extend (hsignal _)⟩,
    hsession, hlevel, hnum, hhb, htick, hshapers⟩

/-! ### CLOSE_SESSION (R159) -/

/-- The commands that wait on rings 1–15 complete; ring 0 is as it was. -/
theorem State.abortWaits_keeps (s : State) (p : Nat) (hr : tblRising s.parts = true) (hb : s.bellsPass = true) :
    tblRising (s.abortWaits p).parts = true ∧ (s.abortWaits p).bellsPass = true ∧ (s.abortWaits p).ring p 0 = s.ring p 0 := by
  have hrange : ∀ k ∈ (natRange 1 15).filter fun r => (s.ring p r).wait.any (·.aborts), k ≠ 0 ∧ k < 32 := by
    intro k hk
    have hmem := (List.mem_filter.mp hk).1
    simp only [natRange, List.mem_map, List.mem_range] at hmem
    omega
  unfold State.abortWaits
  generalize ((natRange 1 15).filter fun r => (s.ring p r).wait.any (·.aborts)) = l at hrange ⊢
  induction l generalizing s with
  | nil => exact ⟨hr, hb, rfl⟩
  | cons k l ih =>
    obtain ⟨hk, hlt⟩ := hrange k List.mem_cons_self
    have herror := RingStep.onRing p k s (fun g => { g with state := .error }) hr
    have hstep := herror.trans (State.complete_step p k replyAborted (s.ring p k).validNs _ herror.rising (herror.bells hb) hlt)
    obtain ⟨hrising, hbells, hring⟩ := ih _ hstep.rising (hstep.bells hb) fun j hj => hrange j (List.mem_cons_of_mem k hj)
    refine ⟨hrising, hbells, hring.trans ?_⟩
    rw [State.complete_ring_other _ p k 0 _ _ herror.rising (herror.bells hb) hlt hk.symm, State.ring_onRing_other s p k 0 _ hr hk.symm]

theorem tblFind_filter_key {α : Type} (t : Tbl α) (i k : Nat) : tblFind (t.filter fun e => e.1 == i) k = if k = i then tblFind t k else none := by
  induction t with
  | nil => simp
  | cons x t ih =>
    obtain ⟨j, a⟩ := x
    by_cases hj : j = i
    · subst hj
      simp only [List.filter_cons, beq_self_eq_true, if_true, tblFind, ih]
      by_cases hk : k = j
      · simp [hk]
      · simp [hk, Ne.symm hk]
    · simp only [List.filter_cons, beq_iff_eq, hj, if_false, tblFind, ih]
      by_cases hk : k = i
      · subst hk; simp [hj]
      · simp [hk]

/-- The shapers and the windows of all partitions. -/
def shapersAndWindows : Nat → Partition → Tbl Shaper × Tbl Window := fun _ x => (x.shapers, x.bridge.windows)

theorem deaf_shapersAndWindows : Deaf shapersAndWindows := fun _ _ => rfl

theorem State.destroyObjects_clears (s : State) (p : Nat) (hr : tblRising s.parts = true) :
    shapersAndWindows p ((s.destroyObjects p).part p) = ([], []) := by
  obtain ⟨u, hu, heq⟩ := Spares.destroyObjects_eq deaf_noView s p fun _ => rfl
  rw [heq, u.part_onPart_same p _ (hu.parts hr).1]
  rfl

/-- CLOSE_SESSION up to the end of the partition's objects and reads: its rings and its session still stand. -/
def State.objectsClosed (s : State) (p : Nat) : State :=
  ((((s.composeFirst p).abortWaits p).sheepdog p).destroyObjects p).dropReads p fun r => r != 0

theorem State.closeNow_eq (s : State) (p : Nat) :
    s.closeNow p = ((s.objectsClosed p).onPart p fun x => { x with rings := x.rings.filter fun g => g.1 == 0 }).closeSession p := rfl

/-- The end of the objects leaves ring 0 as it was, and no shaper and no window. -/
theorem State.objectsClosed_keeps (s : State) (p : Nat) (hr : tblRising s.parts = true) (hb : s.bellsPass = true) :
    tblRising (s.objectsClosed p).parts = true ∧ (s.objectsClosed p).bellsPass = true ∧ (s.objectsClosed p).ring p 0 = s.ring p 0 ∧
      shapersAndWindows p ((s.objectsClosed p).part p) = ([], []) := by
  have hfirst := Spares.composeFirst deaf_ringsOf s p
  obtain ⟨hwaits, hwaitBells, hwait0⟩ := (s.composeFirst p).abortWaits_keeps p (hfirst.parts hr).1 (hfirst.bells hb)
  have hdog := Spares.sheepdog deaf_ringsOf ((s.composeFirst p).abortWaits p) p fun _ _ => rfl
  have hgone := hdog.trans (Spares.destroyObjects deaf_ringsOf _ p fun _ => rfl)
  have hreads := hgone.trans (Spares.dropReads deaf_ringsOf _ p fun r => r != 0)
  have hobjects := Spares.dropReads deaf_shapersAndWindows ((((s.composeFirst p).abortWaits p).sheepdog p).destroyObjects p) p fun r => r != 0
  have hcleared := State.destroyObjects_clears _ p (hdog.parts hwaits).1
  refine ⟨(hreads.parts hwaits).1, hreads.bells hwaitBells, ?_, ((hobjects.parts (hgone.parts hwaits).1).2 p).trans hcleared⟩
  exact (hreads.ring hwaits p 0).trans (hwait0.trans (hfirst.ring hr p 0))

/-- The partition's record as CLOSE_SESSION's last step leaves it. -/
theorem State.part_closeNow (s : State) (p : Nat) (hr : tblRising (s.objectsClosed p).parts = true) :
    (s.closeNow p).part p =
      { (s.objectsClosed p).part p with
        rings := ((s.objectsClosed p).part p).rings.filter (fun g => g.1 == 0), session := .closed, level := 0 } := by
  rw [State.closeNow_eq, State.part_closeSession, State.part_onPart_same _ p _ (State.rising_onPart _ p _ hr), State.part_onPart_same _ p _ hr]

theorem State.ring_closeNow (s : State) (p k : Nat) (hr : tblRising (s.objectsClosed p).parts = true) :
    (s.closeNow p).ring p k = if k = 0 then (s.objectsClosed p).ring p k else {} := by
  have hrings := congrArg Partition.rings (s.part_closeNow p hr)
  unfold State.ring tblGet
  rw [hrings, tblFind_filter_key]
  split <;> rfl

/-- The partition as CLOSE_SESSION leaves it: ring 0 is as it was, and every other object is gone. -/
theorem State.closeNow_closes (s : State) (p : Nat) (hp : p < 8) (hr : tblRising s.parts = true) (hb : s.bellsPass = true) :
    tblRising (s.closeNow p).parts = true ∧ (s.closeNow p).bellsPass = true ∧ (s.closeNow p).ring p 0 = s.ring p 0 ∧
      (∀ k, k ≠ 0 → (s.closeNow p).ring p k = {}) ∧ ((s.closeNow p).part p).session = .closed ∧ ((s.closeNow p).part p).level = 0 ∧
      shapersAndWindows p ((s.closeNow p).part p) = ([], []) := by
  obtain ⟨hrising, hbells, hring0, hobjects⟩ := s.objectsClosed_keeps p hr hb
  have hend := Spares.closeSession (v := noView) ((s.objectsClosed p).onPart p fun x => { x with rings := x.rings.filter fun g => g.1 == 0 }) p hp
    (noView_eq p _ _)
  have hpart := s.part_closeNow p hrising
  refine ⟨?_, ?_, (s.ring_closeNow p 0 hrising).trans hring0, fun k hk => (s.ring_closeNow p k hrising).trans (if_neg hk), ?_, ?_, ?_⟩
  · rw [s.closeNow_eq p]
    exact (hend.parts (State.rising_onPart _ p _ hrising)).1
  · rw [s.closeNow_eq p]
    exact hend.bells ((State.onPart_bellsPass _ p _).trans hbells)
  · rw [hpart]
  · rw [hpart]
  · generalize (s.objectsClosed p).part p = x at hpart hobjects
    rw [hpart]
    exact hobjects

/-- Where only ring 0 exists, completing unknown opcodes brings up no other. -/
theorem State.drainUnknown_only0 (p k n : Nat) (hk : k ≠ 0) (s : State) (hr : tblRising s.parts = true) (hb : s.bellsPass = true)
    (hnone : ∀ j, j ≠ 0 → s.ring p j = {}) : (s.drainUnknown n p).ring p k = {} := by
  induction n generalizing s with
  | zero => exact hnone k hk
  | succ n ih =>
    unfold State.drainUnknown
    split
    · exact hnone k hk
    · next r hnext =>
      split
      · exact hnone k hk
      · next c rest hfetched =>
        split
        · exact hnone k hk
        · have hr0 : r = 0 := by
            by_contra h
            rw [hnone r h] at hfetched
            cases hfetched
          subst hr0
          have hserved := RingStep.lastRing p 0 s hr
          have hstep := hserved.trans (State.complete_step p 0 (replyBadParam 0) s.now _ hserved.rising (hserved.bells hb) (by omega))
          refine ih _ hstep.rising (hstep.bells hb) fun j hj => ?_
          rw [State.complete_ring_other _ p 0 j _ _ hserved.rising (hserved.bells hb) (by omega) hj,
            State.ring_of_rings s _ p j (State.rings_onPart s p _ hr rfl)]
          exact hnone j hj

/-- A command on ring 0 that is answered OK where no other ring exists brings up no other. -/
theorem State.finish_only0 (s m : State) (p k : Nat) (x : Reply) (hm : tblRising m.parts = true) (hb : m.bellsPass = true) (hx : x.status = 0)
    (hnone : ∀ j, j ≠ 0 → m.ring p j = {}) (hk : k ≠ 0) : (s.finish p 0 (.reply x m)).ring p k = {} := by
  have heq : s.finish p 0 (.reply x m) = (m.complete p 0 x s.now).settleRings p := by unfold State.finish; simp [hx]
  have hcomplete := m.complete_step p 0 x s.now hm hb (by omega)
  rw [heq]
  unfold State.settleRings
  refine State.drainUnknown_only0 p k _ hk _ hcomplete.rising (hcomplete.bells hb) fun j hj => ?_
  rw [State.complete_ring_other m p 0 j _ _ hm hb (by omega) hj]
  exact hnone j hj

/-- CLOSE_SESSION at its turn, where no restore runs. -/
theorem exec_closeSession_ready (p : PartId) (r : RingId) (s : State) (e : BitVec 512) (h : Ready s p r 0x02 e true [] [objectCheck e 0 0])
    (hrestore : ((s.atRing p r).part p).restoring = false) :
    exec (.closeSession p r) s = .next ((s.atRing p r).finish p r (.reply (replyOk 0) ((s.atRing p r).closeNow p))) := by
  rw [exec_closeSession]
  unfold execCloseSession
  rw [ringCmd_eq s p r 0x02 true [] (fun e => [objectCheck e 0 0]) _ e h]
  simp only [hrestore, Bool.false_eq_true, if_false]

/-- CLOSE_SESSION completes, and no ring but ring 0 is left. -/
theorem closeSession_completes (p : PartId) (r : RingId) (s : State) (e : BitVec 512)
    (h : Ready s p r 0x02 e true [] [objectCheck e 0 0]) (hrestore : (s.part p).restoring = false) :
    let m := (s.atRing p r).closeNow p
    CompletesWith p r (.closeSession p r) (replyOk 0) s m (fun t => ∀ k, k ≠ 0 → (t.ring p k).state = .absent) ∧
    (m.part p).session = .closed ∧ (m.part p).level = 0 ∧ (m.part p).shapers = [] ∧ (m.bridge p).windows = [] := by
  obtain ⟨hturn, -, hcheck, ⟨hr, -⟩, hbells⟩ := id h
  obtain ⟨-, c, rest, hfetched, -⟩ := State.turn_fetched s p r 0x02 e hturn
  have hr0 : (r : Nat) = 0 := ring0_of_sessionCheck hcheck
  have hexec := exec_closeSession_ready p r s e h (by rw [s.part_atRing p r hr]; exact hrestore)
  obtain ⟨hm, hmb, hring0, hothers, hsession, hlevel, hobjects⟩ :=
    (s.atRing p r).closeNow_closes p p.isLt (s.rising_atRing p r hr) hbells
  have hat0 := s.ring_atRing p r 0 hr
  rw [hr0] at hexec hm hmb hring0 hothers hsession hlevel hobjects hat0 hfetched ⊢
  generalize (s.atRing p 0).closeNow p = m at hexec hm hmb hring0 hothers hsession hlevel hobjects ⊢
  obtain ⟨honly, hanswer⟩ := State.finish_ok (s.atRing p 0) m p 0 (replyOk 0) c rest hm hmb (by omega)
    (by rw [hring0, hat0]; exact hfetched) rfl
  exact ⟨⟨_, hexec, honly, hanswer, fun k hk => congrArg Ring.state ((s.atRing p 0).finish_only0 m p k (replyOk 0) hm hmb rfl hothers hk)⟩,
    hsession, hlevel, congrArg Prod.fst hobjects, congrArg Prod.snd hobjects⟩

/-! ### HANDBACK (R163) -/

/-- What HANDBACK does at its turn. -/
def handbackAct (p : Nat) (s : State) (e : BitVec 512) : CmdOut :=
  let at_ := entryField e 0x10 0 64
  let st := (s.part p).session
  checked s [failIf (st != .lapsed) (replyConflict typeSession st.code 0),
             failIf (at_ != 0 && decide (at_ < s.now + 2000000)) replyPastBase]
    (let t := if at_ = 0 then s.now + 2000000 else at_
     let s' := (s.returnDrops p t).restartHeartbeat p
     let s' := (s'.onPart p fun x => { x with session := .opened }).setLive (0x010 + 2 * p) false
     .reply (replyOk (s.latestReturn p t)) s')

theorem exec_handback_eq (p : PartId) (r : RingId) (s : State) :
    exec (.handback p r) s = ringCmd s p r 0x03 true [(bitPos 0x10 0, 64)] (fun e => [objectCheck e 0 0]) (handbackAct p) := rfl

/-- The state that HANDBACK leads to, where drops return from t on. -/
def State.handedBack (s : State) (p t : Nat) : State :=
  (((s.returnDrops p t).restartHeartbeat p).onPart p fun x => { x with session := .opened }).setLive (0x010 + 2 * p) false

theorem handbackAct_lapsed (p : Nat) (s : State) (e : BitVec 512) (hstate : (s.part p).session = .lapsed)
    (hat : entryField e 0x10 0 64 = 0 ∨ s.now + 2000000 ≤ entryField e 0x10 0 64) :
    let t := if entryField e 0x10 0 64 = 0 then s.now + 2000000 else entryField e 0x10 0 64
    handbackAct p s e = .reply (replyOk (s.latestReturn p t)) (s.handedBack p t) := by
  have hlate : (entryField e 0x10 0 64 != 0 && decide (entryField e 0x10 0 64 < s.now + 2000000)) = false := by
    rcases hat with hzero | hahead
    · simp [hzero]
    · simp [hahead]
  unfold handbackAct
  simp only [hstate, hlate]
  rfl

theorem State.part_handedBack (s : State) (p t : Nat) (hr : tblRising (s.returnDrops p t).parts = true) :
    (s.handedBack p t).part p = { (s.returnDrops p t).part p with hbTick := (s.returnDrops p t).tick, session := .opened } := by
  have hlive : ∀ (u : State) (i : Nat) (b : Bool), (u.setLive i b).part p = u.part p := fun _ _ _ => rfl
  unfold State.handedBack State.restartHeartbeat
  rw [hlive, State.part_onPart_same _ p _ (State.rising_onPart _ p _ hr), State.part_onPart_same _ p _ hr]

/-- The session as HANDBACK leaves it: open, its timer restarted, its rings as they were. -/
theorem State.handedBack_parts (s : State) (p t : Nat) (hr : tblRising s.parts = true) (hb : s.bellsPass = true) :
    tblRising (s.handedBack p t).parts = true ∧ (s.handedBack p t).bellsPass = true ∧ ((s.handedBack p t).part p).session = .opened ∧
      ((s.handedBack p t).part p).hbTick = s.tick ∧ ((s.handedBack p t).part p).rings = (s.part p).rings := by
  have hreturn : Spares ringsOf s (s.returnDrops p t) := Spares.returnDrops s p t
  obtain ⟨hrising, hview⟩ := hreturn.parts hr
  have htick : (s.returnDrops p t).tick = s.tick := congrArg Timebase.tick hreturn.tb
  rw [s.part_handedBack p t hrising]
  have hopened : tblRising (s.handedBack p t).parts = true := by
    unfold State.handedBack State.restartHeartbeat
    rw [State.setLive_parts]
    exact State.rising_onPart _ p _ (State.rising_onPart _ p _ hrising)
  have hopenedBells : (s.handedBack p t).bellsPass = true := by
    unfold State.handedBack State.restartHeartbeat
    rw [State.setLive_bellsPass, State.onPart_bellsPass, State.onPart_bellsPass]
    exact hreturn.bells hb
  exact ⟨hopened, hopenedBells, rfl, htick, hview p⟩

/-- HANDBACK completes with the session open and its timer restarted. -/
theorem handback_completes (p : PartId) (r : RingId) (s : State) (e : BitVec 512)
    (h : Ready s p r 0x03 e true [(bitPos 0x10 0, 64)] [objectCheck e 0 0]) (hlapsed : (s.part p).session = .lapsed)
    (hat : entryField e 0x10 0 64 = 0 ∨ s.now + 2000000 ≤ entryField e 0x10 0 64) :
    let t := if entryField e 0x10 0 64 = 0 then s.now + 2000000 else entryField e 0x10 0 64
    let m := ((((s.atRing p r).returnDrops p t).restartHeartbeat p).onPart p fun x => { x with session := .opened }).setLive
      (0x010 + 2 * p) false
    Completes p r (.handback p r) (replyOk (s.latestReturn p t)) s m ∧ (m.part p).session = .opened ∧ (m.part p).hbTick = s.tick := by
  obtain ⟨-, -, -, ⟨hr, -⟩, hbells⟩ := id h
  have hact := handbackAct_lapsed p (s.atRing p r) e ((State.session_atRing s p r hr).trans hlapsed) hat
  intro t m
  obtain ⟨hm, hmb, hsession, htick, hrings⟩ := (s.atRing p r).handedBack_parts p t (s.rising_atRing p r hr) hbells
  rw [s.part_atRing p r hr] at hrings
  exact ⟨ringCmd_completes s m (.handback p r) p r 0x03 true [(bitPos 0x10 0, 64)] (fun e => [objectCheck e 0 0]) (handbackAct p) e
    (replyOk (s.latestReturn p t)) (exec_handback_eq p r s) h hact rfl hm hmb (State.ring_of_rings s m p r hrings), hsession, htick⟩

/-- Settles O5: each command answers OK at its turn, and its effect is read off the views that compose instants, reads and doorbells spare. -/
theorem sessionsOpenCloseAndHandBack : Obligations.SessionsOpenCloseAndHandBack :=
  ⟨openSession_completes, closeSession_completes, handback_completes⟩

end Sys2Proof.Machine
end

section
/-! The Ethernet ports: addresses, the queries that an addressed port answers, and the service session (O50). -/

namespace Sys2Proof.Machine

open Sys2Proof

/-- An output that leaves over no host link takes no function out of L1 and reports nothing through AER: it is sent, and that is all. -/
theorem State.emit_of_port_none (s : State) (o : Output) (h : o.port = none) : s.emit o = { s with out := s.out ++ [o] } := by
  simp only [State.emit, h]

/-! ### Addresses by DHCP (R45) -/

theorem dhcpAnswer_leases (port : NetPort) (s : State) (addr : W32) (prefixLen : Nat) (gateway : W32) {k : Nat}
    (hasks : (s.plant.port port).requestTick = some k) :
    exec (.dhcpAnswer port addr prefixLen gateway) s =
      .next (s.onPlant fun x => x.setPort port { addr := some (addr, prefixLen, gateway), leased := true }) := by
  rw [exec_dhcpAnswer, execDhcpAnswer, hasks]
  rfl

/-- The address of a port after its request timer: the factory static setting on a service port left without one for 30 s, else as it was. -/
def State.addrAfterTimer (s : State) (port : NetPort) (k : Nat) : Option (W32 × Nat × W32) :=
  if port == .service && (s.plant.port port).addr.isNone && s.past k (ticksOfS 30) then some factoryAddr else (s.plant.port port).addr

theorem State.addrAfterTimer_timing (s : State) (k : Nat) : s.addrAfterTimer .timing k = s.plant.timing.addr := rfl

theorem State.addrAfterTimer_service (s : State) {k : Nat} (hnone : s.plant.service.addr = none) (hfall : k + ticksOfS 30 ≤ s.tick) :
    s.addrAfterTimer .service k = some factoryAddr := by
  simp [State.addrAfterTimer, Plant.port, hnone, (s.past_iff k _).mpr hfall]

/-- The timer of a port that asks, 10 s after its latest request: it asks again. -/
theorem dhcpRequestTimer_asks (port : NetPort) (s : State) {k l : Nat} (hasks : (s.plant.port port).requestTick = some k)
    (hlast : (s.plant.port port).lastRequest = some l) (hagain : l + ticksOfS 10 ≤ s.tick) :
    exec (.dhcpRequestTimer port) s =
      .next ((s.onPlant fun x => x.setPort port
        { s.plant.port port with lastRequest := some s.tick, addr := s.addrAfterTimer port k }).emit (.dhcpRequest port (macOf port))) := by
  have hdue : (((s.plant.port port).lastRequest.map fun t => s.past t (ticksOfS 10)).getD true) = true := by
    rw [hlast, Option.map_some, Option.getD_some, s.past_iff]
    exact hagain
  simp only [exec_dhcpRequestTimer, execDhcpRequestTimer, hasks, hdue, if_true, State.addrAfterTimer]

theorem leaseLost_timing (s : State) (hleased : s.plant.timing.leased = true) :
    exec (.leaseLost .timing) s =
      .next ((s.onPlant fun x => { x with timing := { requestTick := some s.tick, lastRequest := some s.tick } }).emit
        (.dhcpRequest .timing (macOf .timing))) := by
  have hport : (s.plant.port .timing).leased = true := hleased
  rw [exec_leaseLost, execLeaseLost, hport]
  rfl

/-! ### ARP and echo (R45) -/

theorem arpIcmpEchoRequest_of_addr (port : NetPort) (s : State) (query : NetQuery) (payload : Nat) (hp : s.powered = true)
    (haddr : (s.plant.port port).addr.isSome = true) :
    exec (.arpIcmpEchoRequest port query payload) s = .next (s.emit (.net port query payload (macOf port))) := by
  simp [exec_arpIcmpEchoRequest, execArpIcmpEchoRequest, hp, haddr]

theorem arpIcmpEchoRequest_of_no_addr (port : NetPort) (s : State) (query : NetQuery) (payload : Nat) (haddr : (s.plant.port port).addr = none) :
    exec (.arpIcmpEchoRequest port query payload) s = .next s := by
  simp [exec_arpIcmpEchoRequest, execArpIcmpEchoRequest, haddr]

/-! ### The service session (R487) -/

theorem servicePortClient_opens (s : State) (hp : s.powered = true) (hfree : s.plant.svcClient = false) (haddr : s.plant.service.addr.isSome = true) :
    exec (.servicePortClient true true) s = .next (s.onPlant fun x => { x with svcClient := true }) := by
  have hnot : s.plant.service.addr.isNone = false := by rw [← Option.not_isSome, haddr]; rfl
  simp [exec_servicePortClient, execServicePortClient, hp, hfree, hnot]

theorem servicePortClient_unverified (s : State) : exec (.servicePortClient true false) s = .next s := by
  simp [exec_servicePortClient, execServicePortClient]

theorem servicePortClient_closes (chainOk : Bool) (s : State) :
    exec (.servicePortClient false chainOk) s = .next (s.onPlant fun x => { x with svcClient := false }) := rfl

/-- Settles O50: one lemma per command and outcome; what the ports send leaves over no host link, so it is only appended to the outputs. -/
theorem networkPortsFollowDhcp : Obligations.NetworkPortsFollowDhcp := by
  intro s hp
  refine ⟨?answer, ?serviceTimer, ?timingTimer, ?lost, ?answered, ?unanswered, ?opening, servicePortClient_closes false s⟩
  case answer => exact fun a n g k hasks => dhcpAnswer_leases .timing s a n g hasks
  case serviceTimer =>
    intro k l hasks hnone hlast hagain hfall
    rw [dhcpRequestTimer_asks .service s hasks hlast hagain, State.addrAfterTimer_service s hnone hfall, State.emit_of_port_none _ _ rfl]
    rfl
  case timingTimer =>
    intro k l hasks hlast hagain
    rw [dhcpRequestTimer_asks .timing s hasks hlast hagain, State.addrAfterTimer_timing, State.emit_of_port_none _ _ rfl]
    rfl
  case lost =>
    intro hleased
    rw [leaseLost_timing s hleased, State.emit_of_port_none _ _ rfl]
    rfl
  case answered =>
    intro q n haddr
    rw [arpIcmpEchoRequest_of_addr .timing s q n hp haddr, State.emit_of_port_none _ _ rfl]
  case unanswered => exact fun q n haddr => arpIcmpEchoRequest_of_no_addr .timing s q n haddr
  case opening => exact fun hfree haddr => ⟨servicePortClient_opens s hp hfree haddr, servicePortClient_unverified s⟩

end Sys2Proof.Machine
end

section
/-! What doorbells, faults and the words on a segment's wires leave of the state as it is, each in one equation. -/

namespace Sys2Proof.Machine

open Sys2Proof

/-- Steps that each keep a view of the state, where the view shows a condition that holds at first, keep it together. -/
theorem State.foldl_keeps_where {α β : Type} {view : State → β} {P : State → Prop} {f : State → α → State}
    (hP : ∀ s t, view t = view s → P s → P t) (hf : ∀ s x, P s → view (f s x) = view s) (l : List α) (s : State) (hs : P s) :
    view (l.foldl f s) = view s := by
  induction l generalizing s with
  | nil => rfl
  | cons x l ih => exact (ih _ (hP s _ (hf s x hs) hs)).trans (hf s x hs)

theorem State.foldl_keeps {α β : Type} {view : State → β} {f : State → α → State} (hf : ∀ s x, view (f s x) = view s) (l : List α) (s : State) :
    view (l.foldl f s) = view s :=
  State.foldl_keeps_where (P := fun _ => True) (fun _ _ _ h => h) (fun s x _ => hf s x) l s trivial

/-! ### Doorbells and faults -/

/-- The state without what a doorbell, a fault, a record or a takeover's notice writes: the event controller, bank pairs, fault records, partitions'
records, customer cores, outputs. -/
def State.unrung (s : State) : State := { s with evc := {}, pairs := [], flt := {}, parts := [], cc := [], out := [] }

@[simp] theorem State.unrung_onPart (s : State) (p : Nat) (f : Partition → Partition) : (s.onPart p f).unrung = s.unrung := rfl
@[simp] theorem State.unrung_onFlt (s : State) (f : Flt → Flt) : (s.onFlt f).unrung = s.unrung := rfl
@[simp] theorem State.unrung_onPair (s : State) (n : Nat) (f : BankPair → BankPair) : (s.onPair n f).unrung = s.unrung := rfl
@[simp] theorem State.unrung_setFault (s : State) (i : Nat) (x : FaultRec) : (s.setFault i x).unrung = s.unrung := rfl
@[simp] theorem State.unrung_setLive (s : State) (i : Nat) (b : Bool) : (s.setLive i b).unrung = s.unrung := rfl
@[simp] theorem State.unrung_traceRec (s : State) (l : LogRec) : (s.traceRec l).unrung = s.unrung := rfl

@[simp] theorem State.unrung_emit (s : State) (o : Output) : (s.emit o).unrung = s.unrung := by
  unfold State.emit
  split <;> rfl

@[simp] theorem State.unrung_storeRec (s : State) (l : LogRec) : (s.storeRec l).unrung = s.unrung := by
  unfold State.storeRec
  extract_lets
  split <;> rfl

@[simp] theorem State.unrung_capture (s : State) (n : Nat) (split level : Bool) (k : AccKind) (space req addr : Nat) :
    (s.capture n split level k space req addr).1.unrung = s.unrung := by
  obtain ⟨f, hf⟩ := s.capture_eq n split level k space req addr
  rw [hf, State.unrung_onPair]

@[simp] theorem State.unrung_fairly (s t : State) : (s.fairly t).unrung = t.unrung := by
  rcases s.fairly_eq t with h | ⟨l, h⟩ <;> rw [h]
  rfl

section
variable {s t : State} (h : t.unrung = s.unrung)
include h

theorem State.tb_of_unrung : t.tb = s.tb := by have := congrArg State.tb h; exact this
theorem State.segs_of_unrung : t.segs = s.segs := by have := congrArg State.segs h; exact this
theorem State.drops_of_unrung : t.drops = s.drops := by have := congrArg State.drops h; exact this
theorem State.streams_of_unrung : t.streams = s.streams := by have := congrArg State.streams h; exact this

end

/-- A way of ringing that keeps all but what a doorbell writes. -/
def Ringer.Quiet (ring : Ringer) : Prop := ∀ s b, (ring s b).unrung = s.unrung

section
variable {ring : Ringer} (hring : ring.Quiet)
include hring

theorem State.unrung_writeLog (s : State) (p : Nat) (l : LogRec) : (s.writeLog ring p l).unrung = s.unrung := by
  simp [State.writeLog, hring _ _]

theorem State.unrung_putLog (s : State) (p : Nat) (l : LogRec) : (s.putLog ring p l).unrung = s.unrung := by
  unfold State.putLog
  dsimp only
  split
  · exact State.unrung_writeLog hring s p l
  · rfl

theorem State.unrung_putGap (s : State) (p : Nat) : (s.putGap ring p).unrung = s.unrung := by
  unfold State.putGap
  dsimp only
  split
  · rfl
  · exact State.unrung_putLog hring _ p _

theorem State.unrung_logTo (s : State) (l : LogRec) (p : Nat) : (s.logTo ring l p).unrung = s.unrung := by
  unfold State.logTo
  dsimp only
  split
  · exact (State.unrung_putLog hring _ p l).trans (State.unrung_putGap hring s p)
  · exact State.unrung_putGap hring s p

theorem State.unrung_decideBy (s : State) (l : LogRec) (ps : List Nat) : (s.decideBy ring l ps).unrung = s.unrung :=
  (s.unrung_fairly _).trans (State.foldl_keeps (fun t p => State.unrung_logTo hring t _ p) ps s)

theorem State.unrung_endIntervalBy (s : State) (cls i : Nat) : (s.endIntervalBy ring cls i).unrung = s.unrung := by
  unfold State.endIntervalBy
  dsimp only
  split
  · rfl
  · split
    · rfl
    · split
      · rfl
      · exact State.unrung_decideBy hring s _ _

theorem State.unrung_occurBy (s : State) (type cls i : Nat) (detail : W32) (window : Nat) (ps : List Nat) :
    (s.occurBy ring type cls i detail window ps).unrung = s.unrung := by
  have hended := State.unrung_endIntervalBy hring s cls i
  unfold State.occurBy
  dsimp only
  split
  · rw [State.unrung_onFlt, State.unrung_traceRec, hended]
  · rw [State.unrung_onFlt, State.unrung_decideBy hring, State.unrung_traceRec, hended]

theorem State.unrung_ringVendor (s : State) (k : Nat) : (s.ringVendor ring k).unrung = s.unrung :=
  State.foldl_keeps (fun t _ => hring t _) _ s

theorem State.unrung_stickBy (s : State) (i : Nat) (detail : W32) : (s.stickBy ring i detail).unrung = s.unrung := by
  have hsignalled : ∀ (u : State) (ks ps : List Nat),
      (ps.foldl (fun s p => ring s (.shared (2816 + 32 * p + 19))) (ks.foldl (fun s k => s.ringVendor ring k) u)).unrung = u.unrung :=
    fun u ks ps => (State.foldl_keeps (fun t _ => hring t _) ps _).trans (State.foldl_keeps (fun t k => State.unrung_ringVendor hring t k) ks u)
  unfold State.stickBy
  dsimp only
  split
  · rfl
  · split
    · exact (hring _ _).trans (hsignalled _ _ _)
    · exact hsignalled _ _ _

theorem State.unrung_raiseBy (s : State) (i : Nat) (detail : W32) : (s.raiseBy ring i detail).unrung = s.unrung := by
  have hoccurred := (State.unrung_occurBy hring _ 1 0 i detail 0 ((s.stickBy ring i detail).faultParts i)).trans
    (State.unrung_stickBy hring s i detail)
  unfold State.raiseBy
  dsimp only
  split
  · exact (State.unrung_storeRec _ _).trans hoccurred
  · exact hoccurred

end

/-- What arrives changes the event controller alone (R403–R407). -/
theorem State.strike_eq (s : State) (b : Bell) : s.strike b = { s with evc := (s.strike b).evc } := by
  have hpriv : ∀ c n, s.ringPriv c n = { s with evc := (s.ringPriv c n).evc } := fun c n => by
    unfold State.ringPriv
    split <;> rfl
  cases b with
  | shared n => exact (EvcOnly.ringShared n s).frame
  | priv c n => exact hpriv c n
  | vendor c k => exact hpriv c _

theorem State.unrung_refuseBell (s : State) (b : Bell) : (s.refuseBell b).unrung = s.unrung := by
  unfold State.refuseBell
  dsimp only
  split
  · exact (State.unrung_raiseBy (ring := State.countBell) (fun s b => s.unrung_capture _ _ _ _ _ _ _) _ _ _).trans (s.unrung_capture _ _ _ _ _ _ _)
  · exact s.unrung_capture _ _ _ _ _ _ _

/-- A doorbell, whether or not the guard lets it pass. -/
theorem State.unrung_bell (s : State) (b : Bell) : (s.bell b).unrung = s.unrung := by
  unfold State.bell
  split
  · rw [s.strike_eq b]; rfl
  · exact s.unrung_refuseBell b

@[simp] theorem State.unrung_signal (s : State) (n : Nat) : (s.signal n).unrung = s.unrung := s.unrung_bell _
@[simp] theorem State.unrung_raise (s : State) (i : Nat) (detail : W32) : (s.raise i detail).unrung = s.unrung :=
  State.unrung_raiseBy State.unrung_bell s i detail
@[simp] theorem State.unrung_signalParts (s : State) (k : Nat) : (s.signalParts k).unrung = s.unrung :=
  State.foldl_keeps (fun t _ => t.unrung_signal _) _ s
@[simp] theorem State.unrung_vendorSignal (s : State) (k : Nat) : (s.vendorSignal k).unrung = s.unrung :=
  State.unrung_ringVendor State.unrung_bell s k

/-- The state without its event controller and customer cores: what doorbells and a takeover's notice leave where the guard lets doorbells pass. -/
def State.evcless (s : State) : State := { s with evc := {}, cc := [] }

theorem State.bellsPass_of_pairs {s t : State} (h : t.pairs = s.pairs) : t.bellsPass = s.bellsPass := by
  unfold State.bellsPass State.blockOk State.pair
  rw [h]

section
variable {s t : State} (h : t.evcless = s.evcless)
include h

theorem State.pairs_of_evcless : t.pairs = s.pairs := by have := congrArg State.pairs h; exact this
theorem State.parts_of_evcless : t.parts = s.parts := by have := congrArg State.parts h; exact this
theorem State.out_of_evcless : t.out = s.out := by have := congrArg State.out h; exact this

theorem State.bellsPass_of_evcless : t.bellsPass = s.bellsPass := State.bellsPass_of_pairs (State.pairs_of_evcless h)

end

theorem State.evcless_bell (s : State) (b : Bell) (hb : s.bellsPass = true) : (s.bell b).evcless = s.evcless := by
  rw [s.bell_passes b hb, s.strike_eq b]
  rfl

/-- Doorbells in turn, where the guard lets them pass. -/
theorem State.evcless_foldl {α : Type} {f : State → α → State} (hf : ∀ s x, s.bellsPass = true → (f s x).evcless = s.evcless) (l : List α)
    (s : State) (hb : s.bellsPass = true) : (l.foldl f s).evcless = s.evcless :=
  State.foldl_keeps_where (P := fun s => s.bellsPass = true) (fun _ _ h hs => (State.bellsPass_of_evcless h).trans hs) hf l s hb

theorem State.evcless_signalParts (s : State) (k : Nat) (hb : s.bellsPass = true) : (s.signalParts k).evcless = s.evcless :=
  State.evcless_foldl (fun t _ h => t.evcless_bell _ h) _ s hb

theorem State.evcless_vendorSignal (s : State) (k : Nat) (hb : s.bellsPass = true) : (s.vendorSignal k).evcless = s.evcless :=
  State.evcless_foldl (fun t _ h => t.evcless_bell _ h) _ s hb

/-- The cores' view of takeovers, and the doorbells of its changes (R477). -/
theorem State.updateTakeover_step (s : State) (c : Nat) (sets clears : List Nat) (x : Byte) :
    let u := clears.foldl (fun s _ => s.signalPriv (c + 2) 5) (sets.foldl (fun s _ => s.signalPriv (c + 2) 4)
      (s.onCust c fun y => { y with takeover := x }))
    u.unrung = s.unrung ∧ (s.bellsPass = true → u.evcless = s.evcless) := by
  have hrung : ∀ (n : Nat) (l : List Nat) (u : State), (l.foldl (fun s _ => s.signalPriv (c + 2) n) u).unrung = u.unrung :=
    fun n l u => State.foldl_keeps (fun t _ => t.unrung_bell _) l u
  have hpassed : ∀ (n : Nat) (l : List Nat) (u : State), u.bellsPass = true →
      (l.foldl (fun s _ => s.signalPriv (c + 2) n) u).evcless = u.evcless :=
    fun n l u hb => State.evcless_foldl (fun t _ h => t.evcless_bell _ h) l u hb
  refine ⟨(hrung 5 clears _).trans (hrung 4 sets _), fun hb => ?_⟩
  have hsets := hpassed 4 sets (s.onCust c fun y => { y with takeover := x }) hb
  exact (hpassed 5 clears _ ((State.bellsPass_of_evcless hsets).trans hb)).trans hsets

@[simp] theorem State.unrung_updateTakeover (s : State) : s.updateTakeover.unrung = s.unrung := by
  refine State.foldl_keeps (fun t c => ?_) _ s
  dsimp only
  split
  · rfl
  · exact (t.updateTakeover_step c _ _ _).1

theorem State.evcless_updateTakeover (s : State) (hb : s.bellsPass = true) : s.updateTakeover.evcless = s.evcless := by
  refine State.evcless_foldl (fun t c ht => ?_) _ s hb
  dsimp only
  split
  · rfl
  · exact (t.updateTakeover_step c _ _ _).2 ht

/-- The event of a kind that goes to every partition and to the vendor cores. -/
theorem State.evcless_announced (s : State) (k j : Nat) (hb : s.bellsPass = true) : ((s.signalParts k).vendorSignal j).evcless = s.evcless :=
  have hparts := s.evcless_signalParts k hb
  (State.evcless_vendorSignal _ j (by rw [State.bellsPass_of_evcless hparts, hb])).trans hparts

end Sys2Proof.Machine
end

section
/-! Ticks, steps of unit time and PPS OUT (O22). -/

namespace Sys2Proof.Machine

open Sys2Proof

/-! ### Ticks (R54, R57) -/

/-- The log of whole seconds of lock is all that `logSecond` writes. -/
theorem Timebase.logSecond_eq (t : Timebase) (n : Nat) : t.logSecond n = { t with rateLog := (t.logSecond n).rateLog } := by
  unfold Timebase.logSecond
  split <;> rfl

/-- A Delay_Req that leaves changes, of the timebase, the time of the last one alone. -/
theorem State.sendDelayReq_tb (s : State) : s.sendDelayReq.tb = { s.tb with delayReqTick := s.sendDelayReq.tb.delayReqTick } := by
  unfold State.sendDelayReq
  dsimp only
  split
  · rw [State.emit_tb]; rfl
  · rfl

/-- The unit after a tick, before an initial step that waits. -/
def State.ticked (s : State) : State :=
  ({ s with tb := s.tb.advance.logSecond s.now, parts := tblMap (fun _ x => x.accrue) s.parts } : State).sendDelayReq

theorem State.ticked_tb (s : State) : s.ticked.tb =
    { s.tb.advance with rateLog := s.ticked.tb.rateLog, delayReqTick := s.ticked.tb.delayReqTick } := by
  have hsent := State.sendDelayReq_tb { s with tb := s.tb.advance.logSecond s.now, parts := tblMap (fun _ x => x.accrue) s.parts }
  have hlogged := s.tb.advance.logSecond_eq s.now
  have hrate : s.ticked.tb.rateLog = (s.tb.advance.logSecond s.now).rateLog := (congrArg Timebase.rateLog hsent :)
  rw [hrate]
  refine hsent.trans ?_
  show { s.tb.advance.logSecond s.now with delayReqTick := s.ticked.tb.delayReqTick } = _
  rw [hlogged]

theorem exec_timebaseTick_ticked (s : State) : exec .timebaseTick s =
    match s.tb.initStep with
    | some ns => .next ((s.ticked.onTb fun t => { t with initStep := none }).stepTime ns)
    | none => .next s.ticked := by
  have hinit : s.ticked.tb.initStep = s.tb.initStep := (congrArg Timebase.initStep s.ticked_tb :)
  rw [exec_timebaseTick, ← hinit]
  rfl

/-! ### Steps (R62) -/

theorem tblFind_map {α : Type} (f : Nat → α → α) (t : Tbl α) (k : Nat) : tblFind (tblMap f t) k = (tblFind t k).map (f k) := by
  induction t with
  | nil => rfl
  | cons e t ih =>
    obtain ⟨i, a⟩ := e
    by_cases hi : i = k
    · subst hi; simp [tblMap, tblFind]
    · simpa [tblMap, tblFind, hi] using ih

/-- A register read where every record has been changed in a way that keeps the default. -/
theorem tblGet_map {α : Type} (d : α) (f : Nat → α → α) (t : Tbl α) (k : Nat) (hd : f k d = d) :
    tblGet d (tblMap f t) k = f k (tblGet d t k) := by
  unfold tblGet
  rw [tblFind_map]
  cases tblFind t k with
  | none => exact hd.symm
  | some a => rfl

/-- A step of unit time: what it changes before its event is raised. -/
theorem State.stepTime_eq (s : State) (ns : Int) : ∃ u : State,
    s.stepTime ns = (u.signalParts 21).vendorSignal 2 ∧
    u.tb = { s.tb with acc := s.tb.acc + BitVec.ofInt 96 (ns * 4294967296) } ∧
    u.drops = tblMap (fun g d => d.stepped (s.steppedT (g / 32) ns)) s.drops ∧
    u.parts = tblMap (fun _ x => { x with memGone := x.memGone.map fun m => { m with readers := s.stepReaders ns m.readers } }) s.parts ∧
    u.out = s.out ∧ u.bellsPass = s.bellsPass :=
  ⟨_, rfl, rfl, rfl, rfl, rfl, rfl⟩

theorem State.stepTime_tb (s : State) (ns : Int) :
    (s.stepTime ns).tb = { s.tb with acc := s.tb.acc + BitVec.ofInt 96 (ns * 4294967296) } := by
  obtain ⟨u, heq, htb, -⟩ := s.stepTime_eq ns
  rw [heq, State.tb_of_unrung (State.unrung_vendorSignal _ _), State.tb_of_unrung (State.unrung_signalParts _ _), htb]

theorem State.stepTime_drops (s : State) (ns : Int) :
    (s.stepTime ns).drops = tblMap (fun g d => d.stepped (s.steppedT (g / 32) ns)) s.drops := by
  obtain ⟨u, heq, -, hdrops, -⟩ := s.stepTime_eq ns
  rw [heq, State.drops_of_unrung (State.unrung_vendorSignal _ _), State.drops_of_unrung (State.unrung_signalParts _ _), hdrops]

/-- Where the guard lets doorbells pass, a step sends nothing and changes of the partitions only which passes hold destroyed objects. -/
theorem State.stepTime_parts (s : State) (ns : Int) (hb : s.bellsPass = true) : (s.stepTime ns).out = s.out ∧
    ∀ p, (s.stepTime ns).part p = { s.part p with memGone := ((s.stepTime ns).part p).memGone } := by
  obtain ⟨u, heq, -, -, hparts, hout, hbells⟩ := s.stepTime_eq ns
  have hquiet := u.evcless_announced 21 2 (hbells.trans hb)
  rw [heq]
  refine ⟨(State.out_of_evcless hquiet).trans hout, fun p => ?_⟩
  have hpart : ((u.signalParts 21).vendorSignal 2).part p =
      { s.part p with memGone := (s.part p).memGone.map fun m => { m with readers := s.stepReaders ns m.readers } } := by
    unfold State.part
    rw [State.parts_of_evcless hquiet, hparts]
    refine tblGet_map {} _ s.parts p ?_
    rfl
  rw [hpart]

theorem exec_stepApply_due (s : State) (ns : Int) (due : Nat) (harmed : s.tb.stepArmed = some (ns, due)) (hdue : due ≤ s.now) :
    exec .stepApply s = .next ((s.onTb fun x => { x with stepArmed := none }).stepTime ns) := by
  simp only [exec_stepApply, execStepApply, harmed, hdue, if_true]

theorem exec_stepApply_early (s : State) (ns : Int) (due : Nat) (harmed : s.tb.stepArmed = some (ns, due)) (hearly : s.now < due) :
    exec .stepApply s = .next s := by
  simp only [exec_stepApply, execStepApply, harmed, Nat.not_le.mpr hearly, if_false]

/-! ### PPS OUT (R63) -/

theorem exec_ppsOut_second (s : State) (hnear : s.now % 1000000000 < 20) (hnew : s.tb.ppsOutSecond < s.now / 1000000000)
    (hon : s.tb.ppsOutEn = true) : exec .ppsOut s = .next { s with
      tb := { s.tb with ppsOutSecond := s.now / 1000000000 }, out := s.out ++ [.ppsPulse (s.now / 1000000000)] } := by
  rw [exec_ppsOut]
  unfold execPpsOut second
  have hkept : (s.onTb fun t => { t with ppsOutSecond := s.now / 1000000000 }).tb.ppsOutEn = true := hon
  simp only [hnear, hnew, and_self, if_true, hkept]
  rw [State.emit_of_port_none _ _ rfl]
  rfl

/-- Settles O22: a tick adds its 10 ns and RATE before an initial step adds its amount; an armed step moves what it says and raises its event; one
pulse leaves for a new second. -/
theorem unitTimeAdvancesAndSteps : Obligations.UnitTimeAdvancesAndSteps := by
  refine ⟨fun s => ?tick, fun s => ⟨fun ns due harmed hdue => ?step, exec_stepApply_early s, exec_ppsOut_second s⟩⟩
  case tick =>
    have hlogged := s.tb.advance.logSecond_eq s.now
    have hexec := exec_timebaseTick_ticked s
    have hacc : s.ticked.tb.acc = (s.tb.advance.logSecond s.now).acc :=
      (congrArg Timebase.acc s.ticked_tb :).trans (congrArg Timebase.acc hlogged :).symm
    have htick : s.ticked.tb.tick = (s.tb.advance.logSecond s.now).tick :=
      (congrArg Timebase.tick s.ticked_tb :).trans (congrArg Timebase.tick hlogged :).symm
    refine ⟨(congrArg Timebase.acc hlogged :), (congrArg Timebase.tick hlogged :), hacc, htick, fun hnone => ?_, fun ns hsome => ⟨?_, ?_⟩⟩
    · rw [hexec, hnone]; rfl
    · rw [hexec, hsome]; rfl
    · rw [State.stepTime_tb]
      exact congrArg (· + BitVec.ofInt 96 (ns * 4294967296)) hacc
  case step =>
    have hdisarmed := (s.onTb fun x => { x with stepArmed := none }).stepTime_tb ns
    exact ⟨exec_stepApply_due s ns due harmed hdue, (congrArg Timebase.acc hdisarmed :), (congrArg Timebase.stepArmed hdisarmed :),
      State.stepTime_drops _ ns, State.stepTime_parts (s.onTb fun x => { x with stepArmed := none }) ns⟩

end Sys2Proof.Machine
end

section
/-! Changes of the timebase's state, and what they and measurements leave of it (R55, R59–R61). -/

namespace Sys2Proof.Machine

open Sys2Proof

/-- The timebase without what a measurement or a change of its state writes. -/
def Timebase.kept (t : Timebase) : Timebase :=
  { t with state := .freeRun, goodRun := 0, badRun := 0, lockedEver := false, rateLog := [], rate := 0, ocxoVolt := 0, offset := 0, satCount := 0,
           firstOffsets := [], initStepDone := false, initStep := none }

/-- The timebase as it enters a state: Locked begins a new log, holdover takes the averages of the last one (R59, R60). -/
def Timebase.enter (t : Timebase) (x : TbState) : Timebase :=
  let u := { t with state := x, goodRun := 0, badRun := 0 }
  match x with
  | .locked => { u with lockedEver := true, rateLog := [] }
  | .holdover =>
    match u.average with
    | some a => { u with rate := rateWord a.1, ocxoVolt := a.2 }
    | none => u
  | _ => u

theorem Timebase.enter_kept (t : Timebase) (x : TbState) : (t.enter x).kept = t.kept := by
  cases x with
  | holdover =>
    unfold Timebase.enter
    dsimp only
    split <;> rfl
  | freeRun | acquiring | locked => rfl

theorem Timebase.enter_state (t : Timebase) (x : TbState) : (t.enter x).state = x := by
  cases x with
  | holdover =>
    unfold Timebase.enter
    dsimp only
    split <;> rfl
  | freeRun | acquiring | locked => rfl

/-- The state of the unit once the timebase has entered a state and its event has been raised. -/
def State.entering (s : State) (x : TbState) : State := ((s.onTb (·.enter x)).signalParts 22).vendorSignal 2

/-- Entering a state: holdover raises its fault, and leaving it ends the fault's condition. -/
theorem State.enterTb_ne (s : State) (x : TbState) (h : s.tb.state ≠ x) : s.enterTb x =
    if x = .holdover then ((s.entering x).setLive 0x006 true).raise 0x006 0
    else if s.tb.state = .holdover then (s.entering x).setLive 0x006 false else s.entering x := by
  have hne : (s.tb.state == x) = false := beq_eq_false_iff_ne.mpr h
  unfold State.enterTb
  simp only [hne, Bool.false_eq_true, if_false]
  rfl

theorem State.enterTb_same (s : State) (x : TbState) (h : s.tb.state = x) : s.enterTb x = s := by simp [State.enterTb, h]

theorem State.unrung_entering (s : State) (x : TbState) : (s.entering x).unrung = (s.onTb (·.enter x)).unrung :=
  (State.unrung_vendorSignal _ 2).trans (State.unrung_signalParts _ 22)

theorem State.unrung_enterTb (s : State) (x : TbState) (h : s.tb.state ≠ x) : (s.enterTb x).unrung = (s.onTb (·.enter x)).unrung := by
  rw [s.enterTb_ne x h]
  split
  · rw [State.unrung_raise, State.unrung_setLive, s.unrung_entering x]
  · split
    · rw [State.unrung_setLive, s.unrung_entering x]
    · exact s.unrung_entering x

theorem State.enterTb_state (s : State) (x : TbState) : (s.enterTb x).tb.state = x := by
  by_cases h : s.tb.state = x
  · rw [s.enterTb_same x h, h]
  · rw [State.tb_of_unrung (s.unrung_enterTb x h)]
    exact s.tb.enter_state x

theorem State.enterTb_kept (s : State) (x : TbState) : (s.enterTb x).tb.kept = s.tb.kept := by
  by_cases h : s.tb.state = x
  · rw [s.enterTb_same x h]
  · rw [State.tb_of_unrung (s.unrung_enterTb x h)]
    exact s.tb.enter_kept x

theorem State.enterTb_drops (s : State) (x : TbState) : (s.enterTb x).drops = s.drops ∧ (s.enterTb x).streams = s.streams := by
  by_cases h : s.tb.state = x
  · rw [s.enterTb_same x h]; exact ⟨rfl, rfl⟩
  · exact ⟨(State.drops_of_unrung (s.unrung_enterTb x h) :), (State.streams_of_unrung (s.unrung_enterTb x h) :)⟩

/-- Where the guard lets doorbells pass, any state but holdover is entered without a record. -/
theorem State.enterTb_silent (s : State) (x : TbState) (hx : x ≠ .holdover) (hb : s.bellsPass = true) :
    (s.enterTb x).parts = s.parts ∧ (s.enterTb x).out = s.out := by
  by_cases h : s.tb.state = x
  · rw [s.enterTb_same x h]; exact ⟨rfl, rfl⟩
  · have hquiet : (s.entering x).evcless = (s.onTb (·.enter x)).evcless := State.evcless_announced _ 22 2 hb
    have hparts : (s.entering x).parts = s.parts := (State.parts_of_evcless hquiet :)
    have hout : (s.entering x).out = s.out := (State.out_of_evcless hquiet :)
    rw [s.enterTb_ne x h, if_neg hx]
    split
    · rw [State.setLive_parts, State.setLive_out]
      exact ⟨hparts, hout⟩
    · exact ⟨hparts, hout⟩

/-- The loss of the reference leads to a state, perhaps the present one. -/
theorem State.loseReference_eq (s : State) : ∃ x, s.loseReference = s.enterTb x := by
  have hstay : s = s.enterTb s.tb.state := (s.enterTb_same _ rfl).symm
  unfold State.loseReference
  split
  · exact ⟨_, rfl⟩
  · split
    · exact ⟨_, rfl⟩
    · exact ⟨_, rfl⟩
  · exact ⟨_, hstay⟩

theorem State.faultsRising_signalParts (s : State) (k : Nat) (h : tblRising s.flt.faults = true) :
    tblRising (s.signalParts k).flt.faults = true :=
  (Spares.foldl_of (v := noView) (fun (u : State) p => u.signalUnit p k) (fun u p => Spares.signalUnit deaf_noView u p k) _ s).faultsRising h

theorem State.faultsRising_vendorSignal (s : State) (k : Nat) (h : tblRising s.flt.faults = true) :
    tblRising (s.vendorSignal k).flt.faults = true :=
  (Spares.ringVendor (Spares.bell deaf_noView) s k).faultsRising h

/-- Entering holdover raises the fault of the lost reference: it is live and sticky (R59, R444). -/
theorem State.enterTb_holdover_fault (s : State) (hs : s.tb.state ≠ .holdover) (hf : tblRising s.flt.faults = true) :
    ((s.enterTb .holdover).faultRec 0x006).live = true ∧ ((s.enterTb .holdover).faultRec 0x006).sticky = true := by
  have hparts : tblRising ((s.onTb (·.enter .holdover)).signalParts 22).flt.faults = true := State.faultsRising_signalParts _ 22 hf
  rw [s.enterTb_ne _ hs, if_pos rfl]
  exact State.setLive_raise _ 6 0 (by omega) (by omega) (State.faultsRising_vendorSignal _ 2 hparts)

end Sys2Proof.Machine
end

section
/-! The timebase registers, written and read by partitions, vendor cores and the service port (O23). -/

namespace Sys2Proof.Machine

open Sys2Proof

/-! ### Who may reach them (R122, R427) -/

/-- A partition that takes requests reaches the registers of BAR0. -/
theorem State.access_host (s : State) (p : PartId) (k : AccKind) (ctl : Bool) (addr : Nat) (v : W32) (ok : State → Res)
    (hopen : s.hostOpen p = true) (hlink : s.linkHeld p (k == .read) = false) : s.access (.host p) k true ctl addr v ok = ok s := by
  simp [State.access, hopen, hlink]

/-- A vendor core or the service port. -/
def VendorRequester (who : Requester) : Prop := who = .service ∨ ∃ c : CtlCore, c.val < 2 ∧ who = .core c

theorem vendorMap_control (who : Requester) (k : AccKind) (addr : Nat) (hk : k ≠ .fetch) : vendorMap who k 1 addr = true := by
  cases k with
  | fetch => exact absurd rfl hk
  | read | write | locked => rfl

/-- Where bank pair 10 has no entry, the vendor default map lets vendor requesters into control space. -/
theorem State.access_vendor (s : State) (who : Requester) (k : AccKind) (bar0 : Bool) (addr : Nat) (v : W32) (ok : State → Res)
    (hwho : VendorRequester who) (hpair : (s.pair 10).active = []) (hk : k ≠ .fetch) : s.access who k bar0 true addr v ok = ok s := by
  have hfind : (s.pair 10).find 1 addr = none := by simp [BankPair.find, regionsOf, hpair]
  have hmap := vendorMap_control who k addr hk
  rcases hwho with rfl | ⟨c, hc, rfl⟩
  · simp [State.access, State.controlOk, State.guardOk, State.taskBarred, hfind, hmap]
  · have htask : ¬ 2 ≤ c.val := by omega
    simp [State.access, State.controlOk, State.guardOk, State.taskBarred, hfind, hmap, hc, htask]

theorem State.tbWrite_holder (s : State) (p : PartId) (off : Nat) (v : W32) (ok : State → Res) (hopen : s.hostOpen p = true)
    (hlink : s.linkHeld p false = false) (hwr : tblGet false s.map.tbWr p = true) : s.tbWrite (.host p) off v ok = ok s := by
  unfold State.tbWrite
  rw [s.access_host p .write true _ v _ hopen hlink]
  simp only [hwr, if_true]

/-- A partition without TB_WR writes nothing. -/
theorem State.tbWrite_barred (s : State) (p : PartId) (off : Nat) (v : W32) (ok : State → Res) (hopen : s.hostOpen p = true)
    (hlink : s.linkHeld p false = false) (hwr : tblGet false s.map.tbWr p = false) : s.tbWrite (.host p) off v ok = .next s := by
  unfold State.tbWrite
  rw [s.access_host p .write true _ v _ hopen hlink]
  simp only [hwr, Bool.false_eq_true, if_false]

theorem State.tbWrite_vendor (s : State) (who : Requester) (off : Nat) (v : W32) (ok : State → Res) (hwho : VendorRequester who)
    (hpair : (s.pair 10).active = []) : s.tbWrite who off v ok = ok s := by
  unfold State.tbWrite
  rw [s.access_vendor who .write true _ v _ hwho hpair (by decide)]
  rcases hwho with rfl | ⟨c, -, rfl⟩ <;> rfl

/-- A requester whose writes of timebase registers are carried out. -/
def State.TbWriter (s : State) (who : Requester) : Prop := ∀ off v ok, s.tbWrite who off v ok = ok s

/-! ### What a write does (R55, R59, R62, R67) -/

/-- TB_RATE_WRITE while SRC is 0x3: RATE as written, limited to ±429,497. -/
theorem exec_tbRateWrite_src3 (s : State) (who : Requester) (v : W32) (hw : s.TbWriter who) (hsrc : s.tb.src = 3) :
    exec (.tbRateWrite who v) s =
      .next { s with tb := { s.tb with rate := BitVec.ofInt 32 (clampInt (-429497) 429497 v.toInt) } } := by
  rw [exec_tbRateWrite, execTbRateWrite, hw, if_pos hsrc]
  rfl

theorem exec_tbRateWrite_ignored (s : State) (who : Requester) (v : W32) (hw : s.TbWriter who) (hsrc : s.tb.src ≠ 3) :
    exec (.tbRateWrite who v) s = .next s := by
  rw [exec_tbRateWrite, execTbRateWrite, hw, if_neg hsrc]

/-- TB_CTRL without STEP_GO: SRC and STEP_EN. -/
theorem State.writeTbCtrl_noStep (s : State) (v : W32) (hgo : v.getLsbD 5 = false) :
    s.writeTbCtrl v = (s.writeSrc (v.extractLsb' 0 2)).onTb fun t => { t with stepEn := v.getLsbD 4 } := by
  simp only [State.writeTbCtrl, hgo, Bool.false_and, Bool.false_eq_true, if_false]

theorem exec_srcWrite_sameSrc (s : State) (who : Requester) (v : W32) (hw : s.TbWriter who) (hsrc : s.tb.src = v.extractLsb' 0 2)
    (hgo : v.getLsbD 5 = false) : exec (.srcWrite who v) s = .next { s with tb := { s.tb with stepEn := v.getLsbD 4 } } := by
  rw [exec_srcWrite, execSrcWrite, hw, s.writeTbCtrl_noStep v hgo, State.writeSrc, if_pos hsrc]
  rfl

/-- STEP_GO with STEP_EN in the same write arms the step held in TB_STEP for the next whole second. -/
theorem exec_stepGo_arms (s : State) (who : Requester) (v : W32) (hw : s.TbWriter who) (hsrc : s.tb.src = v.extractLsb' 0 2)
    (hgo : v.getLsbD 5 = true) (hen : v.getLsbD 4 = true) : exec (.stepGo who v) s = .next { s with tb := { s.tb with
      stepEn := true, stepArmed := some ((s.tb.stepHi ++ s.tb.stepLo).toInt, (s.now / 1000000000 + 1) * 1000000000) } } := by
  rw [exec_stepGo, execStepGo, hw, State.writeTbCtrl, State.writeSrc, if_pos hsrc, hgo, hen]
  rfl

/-- A write of another SRC enters a state: free-run for 0x3, else Acquiring where the reference it names is present. -/
theorem State.writeSrc_other (s : State) (src : BitVec 2) (h : s.tb.src ≠ src) :
    ∃ x, s.writeSrc src = (s.onTb fun t => { t with src := src }).enterTb x ∧ (src = 3 → x = .freeRun) ∧
      (src ≠ 3 → ({ s.tb with src := src } : Timebase).present = true → x = .acquiring) := by
  unfold State.writeSrc
  rw [if_neg h]
  dsimp only
  by_cases h3 : src = 3
  · rw [if_pos h3]
    exact ⟨_, rfl, fun _ => rfl, fun hne => absurd h3 hne⟩
  · rw [if_neg h3]
    by_cases hp : (s.onTb fun t => { t with src := src }).tb.present = true
    · rw [if_pos hp]
      exact ⟨_, rfl, fun h => absurd h h3, fun _ _ => rfl⟩
    · rw [if_neg hp]
      obtain ⟨x, hx⟩ := (s.onTb fun t => { t with src := src }).loseReference_eq
      exact ⟨x, hx, fun h => absurd h h3, fun _ h => absurd h hp⟩

theorem srcWrite_moves (s : State) (who : Requester) (v : W32) (hw : s.TbWriter who) (hsrc : s.tb.src ≠ v.extractLsb' 0 2)
    (hgo : v.getLsbD 5 = false) :
    ∃ t, exec (.srcWrite who v) s = .next t ∧ t.tb.src = v.extractLsb' 0 2 ∧ t.tb.stepEn = v.getLsbD 4 ∧ t.tb.acc = s.tb.acc ∧
      (v.extractLsb' 0 2 = 3 → t.tb.state = .freeRun) ∧
      (v.extractLsb' 0 2 ≠ 3 → ({ s.tb with src := v.extractLsb' 0 2 } : Timebase).present = true → t.tb.state = .acquiring) ∧
      (s.bellsPass = true → v.extractLsb' 0 2 = 3 ∨ ({ s.tb with src := v.extractLsb' 0 2 } : Timebase).present = true →
        t.parts = s.parts ∧ t.out = s.out) ∧
      t.drops = s.drops ∧ t.streams = s.streams := by
  obtain ⟨x, hx, hfree, hacq⟩ := s.writeSrc_other _ hsrc
  rw [exec_srcWrite, execSrcWrite, hw, s.writeTbCtrl_noStep v hgo, hx]
  generalize v.extractLsb' 0 2 = src at hfree hacq ⊢
  set u := s.onTb fun t => { t with src := src } with hu
  have hkept := u.enterTb_kept x
  have hstate := u.enterTb_state x
  have hquiet : s.bellsPass = true → src = 3 ∨ ({ s.tb with src := src } : Timebase).present = true →
      (u.enterTb x).parts = s.parts ∧ (u.enterTb x).out = s.out := fun hb hwhere => by
    refine u.enterTb_silent x ?_ hb
    by_cases h3 : src = 3
    · rw [hfree h3]; decide
    · rw [hacq h3 (hwhere.resolve_left h3)]; decide
  refine ⟨(u.enterTb x).onTb fun t => { t with stepEn := v.getLsbD 4 }, rfl, (congrArg Timebase.src hkept :), rfl, (congrArg Timebase.acc hkept :),
    fun h3 => hstate.trans (hfree h3), fun h3 hp => hstate.trans (hacq h3 hp), hquiet, u.enterTb_drops x⟩

/-! ### The latched read (R56) -/

/-- The state after a read of TB_TIME_LO: the upper half is latched, and the lower half is the answer. -/
def State.timeRead (s : State) (who : Requester) : State :=
  (s.onTb fun t => { t with hiLatch := tblSet 0 t.hiLatch (latchOf who) (BitVec.ofNat 32 (s.now / 2 ^ 32)) }).emit
    (.regData who (BitVec.ofNat 32 s.now))

theorem State.timeRead_latches (s : State) (who : Requester) (hrising : tblRising s.tb.hiLatch = true) :
    (s.timeRead who).out = s.out ++ [.regData who (BitVec.ofNat 32 s.now)] ∧
      tblGet 0 (s.timeRead who).tb.hiLatch (latchOf who) = BitVec.ofNat 32 (s.now / 2 ^ 32) ∧
      (∀ k, k ≠ latchOf who → tblGet 0 (s.timeRead who).tb.hiLatch k = tblGet 0 s.tb.hiLatch k) ∧ (s.timeRead who).tb.acc = s.tb.acc := by
  unfold State.timeRead
  rw [State.emit_out, State.emit_tb]
  exact ⟨rfl, tblGet_set_same 0 _ _ _ hrising, fun k hk => tblGet_set_other 0 _ _ _ _ hk, rfl⟩

theorem exec_tbTimeLoRead_host (s : State) (p : PartId) (hopen : s.hostOpen p = true) (hlink : s.linkHeld p true = false) :
    exec (.tbTimeLoRead (.host p)) s = .next (s.timeRead (.host p)) := by
  rw [exec_tbTimeLoRead, execTbTimeLoRead, s.access_host p .read true _ 0 _ hopen hlink]
  rfl

theorem exec_tbTimeLoRead_vendor (s : State) (who : Requester) (hwho : VendorRequester who) (hpair : (s.pair 10).active = []) :
    exec (.tbTimeLoRead who) s = .next (s.timeRead who) := by
  rw [exec_tbTimeLoRead, execTbTimeLoRead, s.access_vendor who .read true _ 0 _ hwho hpair (by decide)]
  rfl

/-- Settles O23: once the access is decided, a partition with TB_WR, a vendor core and the service port write alike. -/
theorem timebaseRegistersActForTheirWriter : Obligations.TimebaseRegistersActForTheirWriter := by
  refine ⟨fun p v s hopen hlink => ⟨fun hwr => ?holder, fun hwr => ?barred⟩, fun p v s hopen hlink hwr => ?moves,
    fun p s hopen hlink hrising => ?hostRead, fun who v s hwho hpair => ?vendor⟩
  case holder =>
    have hw : s.TbWriter (.host p) := fun off v ok => s.tbWrite_holder p off v ok hopen hlink hwr
    exact ⟨exec_tbRateWrite_src3 s _ v hw, exec_tbRateWrite_ignored s _ v hw, exec_srcWrite_sameSrc s _ v hw, exec_stepGo_arms s _ v hw⟩
  case barred =>
    have hbarred := fun off ok => s.tbWrite_barred p off v ok hopen hlink hwr
    rw [exec_tbRateWrite, exec_srcWrite, exec_stepGo]
    exact ⟨hbarred _ _, hbarred _ _, hbarred _ _⟩
  case moves => exact srcWrite_moves s (.host p) v fun off v ok => s.tbWrite_holder p off v ok hopen hlink hwr
  case hostRead =>
    obtain ⟨hout, hlatched, hothers, hacc⟩ := s.timeRead_latches (.host p) hrising
    exact ⟨_, exec_tbTimeLoRead_host s p hopen hlink, hout, hlatched, hothers, hacc, State.emit_segs _ _, State.emit_drops _ _⟩
  case vendor =>
    have hw : s.TbWriter who := fun off v ok => s.tbWrite_vendor who off v ok hwho hpair
    exact ⟨exec_tbRateWrite_src3 s who v hw, exec_tbRateWrite_ignored s who v hw, exec_srcWrite_sameSrc s who v hw, exec_stepGo_arms s who v hw,
      fun hrising => ⟨_, exec_tbTimeLoRead_vendor s who hwho hpair, s.timeRead_latches who hrising⟩⟩

end Sys2Proof.Machine
end

section
/-! Words on a segment's wires: what they leave of the state, what they send, and how the segment stands after them (R75, R78, R95). -/

namespace Sys2Proof.Machine

open Sys2Proof

/-! ### Records of drops -/

theorem State.drop_onDrop_same (s : State) (g : Nat) (f : Drop → Drop) (h : tblRising s.drops = true) : (s.onDrop g f).drop g = f (s.drop g) :=
  tblGet_set_same _ _ _ _ h

theorem State.drop_onDrop_other (s : State) (g k : Nat) (f : Drop → Drop) (h : k ≠ g) : (s.onDrop g f).drop k = s.drop k :=
  tblGet_set_other _ _ _ _ _ h

theorem State.rising_onDrop (s : State) (g : Nat) (f : Drop → Drop) (h : tblRising s.drops = true) : tblRising (s.onDrop g f).drops = true :=
  tblRising_set _ _ _ _ h

theorem State.drop_of_drops {s t : State} (h : t.drops = s.drops) (g : Nat) : t.drop g = s.drop g := by unfold State.drop; rw [h]

theorem State.seg_of_segs {s t : State} (h : t.segs = s.segs) (i : Nat) : t.seg i = s.seg i := by unfold State.seg; rw [h]

@[simp] theorem State.emit_seg (s : State) (o : Output) (i : Nat) : (s.emit o).seg i = s.seg i := State.seg_of_segs (s.emit_segs o) i

/-! ### What words leave as it is -/

/-- The state without what words on the wires and the end of a segment's causes write: segments, faults, outputs. -/
def State.offWire (s : State) : State := { s with segs := [], flt := {}, out := [] }

section
variable {s t : State} (h : t.offWire = s.offWire)
include h

theorem State.tb_of_offWire : t.tb = s.tb := by have := congrArg State.tb h; exact this
theorem State.plant_of_offWire : t.plant = s.plant := by have := congrArg State.plant h; exact this
theorem State.parts_of_offWire : t.parts = s.parts := by have := congrArg State.parts h; exact this
theorem State.drops_of_offWire : t.drops = s.drops := by have := congrArg State.drops h; exact this
theorem State.streams_of_offWire : t.streams = s.streams := by have := congrArg State.streams h; exact this
theorem State.pairs_of_offWire : t.pairs = s.pairs := by have := congrArg State.pairs h; exact this
theorem State.boot_of_offWire : t.boot = s.boot := by have := congrArg State.boot h; exact this

end

@[simp] theorem State.offWire_onSeg (s : State) (i : Nat) (f : Segment → Segment) : (s.onSeg i f).offWire = s.offWire := rfl
@[simp] theorem State.offWire_onArb (s : State) (i : Nat) (f : Arb → Arb) : (s.onArb i f).offWire = s.offWire := rfl
@[simp] theorem State.offWire_setLive (s : State) (i : Nat) (b : Bool) : (s.setLive i b).offWire = s.offWire := rfl
@[simp] theorem State.offWire_releaseHolder (s : State) (i : Nat) : (s.releaseHolder i).offWire = s.offWire := rfl
@[simp] theorem State.offWire_releaseWires (s : State) (i : Nat) : (s.releaseWires i).offWire = s.offWire :=
  (State.offWire_onArb _ i _).trans (s.offWire_releaseHolder i)

@[simp] theorem State.offWire_emit_colant (s : State) (i c : Nat) (ws : List ColWord) : (s.emit (.colant i c ws)).offWire = s.offWire := by
  rw [State.emit_of_port_none _ _ rfl]
  rfl

@[simp] theorem State.offWire_sendWords (s : State) (i : Nat) (c2 : Bool) (ws : List ColWord) : (s.sendWords i c2 ws).offWire = s.offWire := by
  have hrate : ∀ (u : State) (f : Segment → Segment) (b : Bool), (if b then u else u.onSeg i f).offWire = u.offWire := fun u f b => by
    split <;> rfl
  unfold State.sendWords
  dsimp only
  rw [State.offWire_emit_colant, hrate]
  split
  · rw [State.offWire_emit_colant]
  · rfl

@[simp] theorem State.offWire_closeWhistle (s : State) (i : Nat) : (s.closeWhistle i).offWire = s.offWire := by
  unfold State.closeWhistle
  dsimp only
  split <;> simp

@[simp] theorem State.offWire_settleWhistle (s : State) (i : Nat) : (s.settleWhistle i).offWire = s.offWire := by
  unfold State.settleWhistle
  dsimp only
  split
  · split <;> simp
  · rfl

/-! ### What they send, and the segment after them -/

/-- The outputs of words at a rate, on wires that carry Colant-2-rate words or not: two ALIGN words go before a change to Colant-2 rate. -/
def wireWords (i : Nat) (rate2 c2 : Bool) (ws : List ColWord) : List Output :=
  (if c2 && !rate2 && ws.head? != some alignWord then [.colant i 2 [alignWord, alignWord]] else []) ++ [.colant i (if c2 then 2 else 1) ws]

theorem State.sendWords_out (s : State) (i : Nat) (c2 : Bool) (ws : List ColWord) :
    (s.sendWords i c2 ws).out = s.out ++ wireWords i (s.seg i).rate2 c2 ws := by
  have hseg : ∀ (u : State) (f : Segment → Segment) (b : Bool), (if b then u else u.onSeg i f).out = u.out := fun u f b => by
    split <;> rfl
  unfold State.sendWords wireWords
  dsimp only
  rw [State.emit_out, hseg, ← List.append_assoc]
  split
  · rw [State.emit_out]
  · rw [List.append_nil]

theorem State.sendWords_seg (s : State) (i : Nat) (c2 : Bool) (ws : List ColWord) (hs : tblRising s.segs = true) :
    (s.sendWords i c2 ws).seg i = { s.seg i with rate2 := c2 } := by
  have hrate : ∀ u : State, tblRising u.segs = true → u.seg i = s.seg i →
      (if (u.seg i).rate2 == c2 then u else u.onSeg i fun x => { x with rate2 := c2 }).seg i = { s.seg i with rate2 := c2 } := fun u hu heq => by
    split
    · next hsame =>
      rw [heq] at hsame ⊢
      rw [← eq_of_beq hsame]
    · rw [u.seg_onSeg_same i _ hu, heq]
  unfold State.sendWords
  dsimp only
  rw [State.emit_seg]
  split
  · exact hrate _ (by rwa [State.emit_segs]) (s.emit_seg _ i)
  · exact hrate s hs rfl

theorem State.sendWords_rising (s : State) (i : Nat) (c2 : Bool) (ws : List ColWord) (hs : tblRising s.segs = true) :
    tblRising (s.sendWords i c2 ws).segs = true := (Wires.sendWords (k := {i}) s i c2 ws rfl).rising hs

/-- The end of a Whistle period leaves its segment at Colant-1 rate. -/
theorem State.closeWhistle_seg (s : State) (i : Nat) (hs : tblRising s.segs = true) :
    ∃ b, (s.closeWhistle i).seg i = { s.seg i with whistleEnd := none, freezeAgain := b, rate2 := false } := by
  have hclosed := fun f : Segment → Segment => State.sendWords_seg (s.onSeg i f) i false [idleWord] (tblRising_set _ _ _ _ hs)
  have hrising := fun f : Segment → Segment => State.sendWords_rising (s.onSeg i f) i false [idleWord] (tblRising_set _ _ _ _ hs)
  unfold State.closeWhistle
  dsimp only
  split
  · rw [State.sendWords_seg _ _ _ _ (hrising _), hclosed, s.seg_onSeg_same i _ hs]
    exact ⟨_, rfl⟩
  · rw [hclosed, s.seg_onSeg_same i _ hs]
    exact ⟨_, rfl⟩

theorem State.settleWhistle_started (s : State) (i : Nat) (hs : tblRising s.segs = true) :
    ((s.settleWhistle i).seg i).started = (s.seg i).started := by
  unfold State.settleWhistle
  dsimp only
  split
  · split
    · rfl
    · obtain ⟨b, hb⟩ := s.closeWhistle_seg i hs
      rw [hb]
  · rfl

theorem State.settleWhistle_none (s : State) (i : Nat) (h : (s.seg i).whistleEnd = none) : s.settleWhistle i = s := by
  unfold State.settleWhistle
  simp only [h]

end Sys2Proof.Machine
end

section
/-! Measurements of the references, their loss, and the drops' path delays (O24). -/

namespace Sys2Proof.Machine

open Sys2Proof

/-! ### Measurements (R55, R58–R61) -/

theorem State.acquire_kept (s : State) : s.acquire.tb.kept = s.tb.kept := by
  unfold State.acquire
  split
  · exact s.enterTb_kept _
  · rfl

theorem State.firstFour_kept (s : State) (off : Int) : (s.firstFour off).tb.kept = s.tb.kept := by
  have hstep : ∀ (t : Timebase) (m : Int), (if m.natAbs ≤ 10000 then { t with firstOffsets := [], initStepDone := true }
      else { t with firstOffsets := [], initStepDone := true, initStep := some (-m), goodRun := 0 }).kept = t.kept := fun t m => by
    split <;> rfl
  unfold State.firstFour
  dsimp only
  split
  · rfl
  · exact hstep s.tb _

/-- A measurement leaves all that `Timebase.kept` shows. -/
theorem State.measure_kept (s : State) (off : Int) : (s.measure off).tb.kept = s.tb.kept := by
  have hshown : (s.onTb (·.showOffset off)).acquire.tb.kept = s.tb.kept := State.acquire_kept _
  have hlock : ∀ (u : State) (n : Nat) (x : TbState), (if 16 ≤ n then u.enterTb x else u).tb.kept = u.tb.kept := fun u n x => by
    split
    · exact u.enterTb_kept x
    · rfl
  have hfirst : ∀ u : State, (if u.tb.initStepDone then u else u.firstFour off).tb.kept = u.tb.kept := fun u => by
    split
    · rfl
    · exact u.firstFour_kept off
  unfold State.measure
  dsimp only
  split
  · rw [hlock, hfirst]
    exact hshown
  · rw [hlock]
    exact hshown
  · exact hshown

/-- A measurement while locked that leaves fewer than 16 bad ones in a row (R59). -/
theorem State.measure_locked (s : State) (off : Int) (hlocked : s.tb.state = .locked) (hbad : s.tb.badRun < 15) :
    s.measure off = ((s.onTb (·.showOffset off)).servo off).onTb fun t => { t with badRun := if 1000 < off.natAbs then t.badRun + 1 else 0 } := by
  have hstate : (s.onTb (·.showOffset off)).tb.state = .locked := hlocked
  have hstays : (s.onTb (·.showOffset off)).acquire = s.onTb (·.showOffset off) := by
    unfold State.acquire
    rw [hstate]
    rfl
  have hfew : ¬ 16 ≤ (if 1000 < off.natAbs then s.tb.badRun + 1 else 0) := by split <;> omega
  unfold State.measure
  simp only [hstays, hstate]
  exact if_neg hfew

/-! ### PTP (R57, R58) -/

theorem State.ptpMeasured_transit (s : State) (off : Int) : (s.ptpMeasured off).tb.transit = s.tb.transit := by
  unfold State.ptpMeasured
  dsimp only
  split
  · exact (congrArg Timebase.transit (State.measure_kept _ off) :)
  · rfl

theorem State.syncOffset_transit (s : State) : s.syncOffset.tb.transit = s.tb.transit := by
  unfold State.syncOffset
  split
  · exact State.ptpMeasured_transit _ _
  · rfl

theorem Timebase.hears_selected (t : Timebase) (d : Byte) (m : Nat) (hd : d.toNat = t.domainUsed) (hm : t.master = some m) :
    t.hears d m = true := by
  simp [Timebase.hears, hd, hm]

/-- A one-step Sync of the selected master that does not come too soon after the last gives its transit. -/
theorem exec_sync_transit (s : State) (d : Byte) (m origin rx : Nat) (hport : s.ptpCarried = true) (hd : d.toNat = s.tb.domainUsed)
    (hm : s.tb.master = some m) (hlast : ∀ k, s.tb.lastSyncTick = some k → k + 6250000 ≤ s.tb.tick) :
    exec (.ptpMessage (.sync d m false origin rx)) s = .next (s.onTb fun t => { t with
      lastSyncTick := some t.tick, twoStepWait := none, transit := some ((rx : Int) - origin), syncUsed := false }).syncOffset := by
  have hheard := s.tb.hears_selected d m hd hm
  rw [exec_ptpMessage]
  unfold execPtpMessage
  cases hk : s.tb.lastSyncTick with
  | none =>
    simp only [hk, hport, hheard, Bool.not_true, Bool.or_false, Bool.false_eq_true, if_false]
    rfl
  | some k =>
    have hlate : ¬ s.tb.tick < k + 6250000 := Nat.not_lt.mpr (hlast k hk)
    simp only [hk, hport, hheard, hlate, decide_false, Bool.not_true, Bool.or_false, Bool.false_eq_true, if_false]
    rfl

/-- A Delay_Resp after a Sync that has given its offset gives the round trip. -/
theorem exec_delayResp_roundTrip (s : State) (d : Byte) (m tx rx : Nat) (o : Int) (hport : s.ptpCarried = true)
    (hd : d.toNat = s.tb.domainUsed) (hm : s.tb.master = some m) (ho : s.tb.transit = some o) (hused : s.tb.syncUsed = true) :
    exec (.ptpMessage (.delayResp d m tx rx)) s = .next (s.onTb fun t => { t with roundTrip := some (o + ((rx : Int) - tx)) }) := by
  have hheard := s.tb.hears_selected d m hd hm
  rw [exec_ptpMessage]
  unfold execPtpMessage
  simp only [hport, ho, hheard, hused, Bool.not_true, Bool.false_eq_true, if_false, if_true]

/-! ### 1PPS (R58) -/

theorem exec_ppsEdge_rejected (s : State) (stamp : Nat) (o : Int) (hsrc : s.tb.src = 1) (ho : s.ptpOffset = some o)
    (hfar : 1000 < ((stamp : Int) - s.tb.ppsInDelay.toNat - o - nearestSecond ((stamp : Int) - s.tb.ppsInDelay.toNat - o)).natAbs) :
    exec (.ppsEdge stamp) s = .next (s.onTb fun t => { t with ppsReject := satInc t.ppsReject }) := by
  rw [exec_ppsEdge]
  unfold execPpsEdge
  simp only [hsrc, ho, if_true, Option.getD_some, Option.isSome_some, true_and, hfar]

/-- An edge in SRC 0x2 is a measurement from the nearest whole second. -/
theorem exec_ppsEdge_measured (s : State) (stamp : Nat) (hsrc : s.tb.src = 2) :
    exec (.ppsEdge stamp) s = .next ((s.onTb fun t => { t with ppsPresent := true, ppsTick := some t.tick }).measure
      ((stamp : Int) - s.tb.ppsInDelay.toNat - nearestSecond ((stamp : Int) - s.tb.ppsInDelay.toNat))) := by
  have hnot : ¬ (2 : BitVec 2) = 1 := by decide
  rw [exec_ppsEdge]
  unfold execPpsEdge
  simp only [hsrc, hnot, if_false, false_and, false_or, if_true, Int.sub_zero]

/-! ### The loss of the references (R59) -/

/-- With no master heard in time none is selected. -/
theorem Timebase.select_silent (t : Timebase) (h : t.fresh = []) :
    t.select.ptpPresent = false ∧ t.select.ppsPresent = t.ppsPresent ∧ t.select.src = t.src ∧ t.select.state = t.state := by
  unfold Timebase.select
  simp only [h]
  split
  · exact ⟨rfl, rfl, rfl, rfl⟩
  · exact ⟨rfl, rfl, rfl, rfl⟩

/-- An edge has come in the last 3 s. -/
def Timebase.edgeHeard (t : Timebase) : Bool :=
  match t.ppsTick with
  | some k => decide (t.tick < k + ticksOfS 3)
  | none => false

theorem Timebase.edgeHeard_late (t : Timebase) (h : ∀ k, t.ppsTick = some k → k + 300000000 ≤ t.tick) : t.edgeHeard = false := by
  unfold Timebase.edgeHeard
  split
  · next k hk => exact decide_eq_false (Nat.not_lt.mpr (h k hk))
  · rfl

/-- The timebase once edges have stayed away for 3 s. -/
def Timebase.edgeless (t : Timebase) : Timebase := ({ t with ppsPresent := false, ppsTick := none } : Timebase).select

theorem exec_referenceLoss_eq (s : State) : exec .referenceLoss s =
    let u := s.onTb fun t => ({ t with ppsPresent := t.edgeHeard, ppsTick := if t.edgeHeard then t.ppsTick else none } : Timebase).select
    if u.tb.lost then .next u.loseReference else .next u := rfl

theorem exec_referenceLoss_edgeless (s : State) (hedge : ∀ k, s.tb.ppsTick = some k → k + 300000000 ≤ s.tb.tick) :
    exec .referenceLoss s =
      if (s.onTb Timebase.edgeless).tb.lost then .next (s.onTb Timebase.edgeless).loseReference else .next (s.onTb Timebase.edgeless) := by
  rw [exec_referenceLoss_eq]
  simp only [State.onTb, s.tb.edgeHeard_late hedge, Bool.false_eq_true, if_false]
  rfl

/-- A locked timebase whose references are all lost goes to holdover, which is a fault. -/
theorem referenceLoss_holdover (s : State) (hf : tblRising s.flt.faults = true) (hsrc : s.tb.src = 1 ∨ s.tb.src = 2)
    (hlocked : s.tb.state = .locked) (hfresh : s.tb.fresh = []) (hedge : ∀ k, s.tb.ppsTick = some k → k + 300000000 ≤ s.tb.tick) :
    ∃ t, exec .referenceLoss s = .next t ∧ t.tb.state = .holdover ∧ t.tb.ppsPresent = false ∧ t.tb.ptpPresent = false ∧
      (t.faultRec 0x006).live = true ∧ (t.faultRec 0x006).sticky = true := by
  obtain ⟨hptp, hpps, hsrc', hstate⟩ := Timebase.select_silent { s.tb with ppsPresent := false, ppsTick := none } hfresh
  set u := s.onTb Timebase.edgeless with hu
  have hlost : u.tb.lost = true := by
    have husrc : u.tb.src = s.tb.src := hsrc'
    have hupps : u.tb.ppsPresent = false := hpps
    have huptp : u.tb.ptpPresent = false := hptp
    unfold Timebase.lost
    rcases hsrc with h | h <;> simp [husrc, h, hupps, huptp]
  have hulocked : u.tb.state = .locked := hstate.trans hlocked
  have hlose : u.loseReference = u.enterTb .holdover := by simp only [State.loseReference, hulocked]
  have hkept := u.enterTb_kept .holdover
  refine ⟨u.enterTb .holdover, ?_, u.enterTb_state _, (congrArg Timebase.ppsPresent hkept :).trans hpps,
    (congrArg Timebase.ptpPresent hkept :).trans hptp, u.enterTb_holdover_fault (by rw [hulocked]; decide) hf⟩
  rw [exec_referenceLoss_edgeless s hedge, if_pos hlost, hlose]

/-! ### Path delays (R65) -/

/-- Where bank pair 10 has no entry, the guard lets a block read and write every word of a drop. -/
theorem State.schedAccess_unlisted (s : State) (k : AccKind) (g addr len : Nat) (hk : k ≠ .fetch) (hpair : (s.pair 10).active = []) :
    s.schedAccess k g addr len = (true, s) := by
  refine s.blockAccess_passes 0x24 k g addr len (List.all_eq_true.mpr fun n _ => ?_)
  have hfind : ∀ a, (s.pair 10).find 2 a = none := fun a => by simp [BankPair.find, regionsOf, hpair]
  simp [State.blockOk, hfind, hk]

theorem State.offWire_queueQ (s : State) (g : Nat) (hpair : (s.pair 10).active = []) : (s.queueQ g).offWire = s.offWire := by
  unfold State.queueQ
  simp only [s.schedAccess_unlisted .write g _ 1 (by decide) hpair, Bool.not_true, Bool.false_eq_true, if_false]
  rfl

/-- The writes of the delays that drops are to keep are queued on the segment alone. -/
theorem State.offWire_setQdelays (s : State) (i : Nat) (hpair : (s.pair 10).active = []) : (s.setQdelays i).offWire = s.offWire := by
  refine State.foldl_keeps_where (P := fun u => (u.pair 10).active = []) (fun u t h hu => ?_) (fun u g hu => ?_) _ s hpair
  · have hpairs := State.pairs_of_offWire h
    unfold State.pair at hu ⊢
    rw [hpairs]
    exact hu
  · dsimp only
    split
    · rfl
    · exact u.offWire_queueQ g hu

theorem State.offWire_endCause (s : State) (i k : Nat) : (s.endCause i k).offWire = s.offWire := by
  unfold State.endCause
  dsimp only
  rw [State.offWire_setLive, State.offWire_onSeg]

@[simp] theorem State.offWire_answered (s : State) (i : Nat) : (s.answered i).offWire = s.offWire := by
  unfold State.answered
  split
  · rw [State.offWire_onSeg, State.offWire_endCause]
  · rfl

/-- A change of a drop's record shows the same where segments, faults and outputs are left out. -/
theorem State.offWire_onDrop {s t : State} (h : t.offWire = s.offWire) (g : Nat) (f : Drop → Drop) :
    (t.onDrop g f).offWire = (s.onDrop g f).offWire := by
  have hcongr := congrArg (fun u : State => u.onDrop g f) h
  exact hcongr

/-- A delay-only MEASURE has gone to drop g and been answered, the arbiter standing as a. -/
def State.measureSent (s : State) (g : Nat) (a : Arb) : State :=
  (((s.onArb (g / 32) fun _ => a).sendTo g opMeasure 0 1 [] (s.drop g).colant2).refreshed g).answered (g / 32)

/-- The drop's record has the result of that MEASURE. -/
def State.delayMeasured (s : State) (g ns : Nat) (a : Arb) : State :=
  (s.measureSent g a).onDrop g fun x => { x with delay := some (oneWay (s.drop g).colant2 ns), pMeasTick := (s.measureSent g a).tick }

theorem State.offWire_measureSent (s : State) (g : Nat) (a : Arb) : (s.measureSent g a).offWire = (s.refreshed g).offWire := by
  have hsent : ((s.onArb (g / 32) fun _ => a).sendTo g opMeasure 0 1 [] (s.drop g).colant2).offWire = s.offWire :=
    (State.offWire_sendWords _ _ _ _).trans (s.offWire_onArb _ _)
  have htick : ((s.onArb (g / 32) fun _ => a).sendTo g opMeasure 0 1 [] (s.drop g).colant2).tick = s.tick :=
    congrArg Timebase.tick (State.tb_of_offWire hsent)
  unfold State.measureSent
  rw [State.offWire_answered]
  unfold State.refreshed
  rw [htick]
  exact State.offWire_onDrop hsent g _

theorem State.offWire_delayMeasured (s : State) (g ns : Nat) (a : Arb) : (s.delayMeasured g ns a).offWire =
    ((s.refreshed g).onDrop g fun d => { d with delay := some (oneWay (s.drop g).colant2 ns), pMeasTick := s.tick }).offWire := by
  have htick : (s.measureSent g a).tick = s.tick := (congrArg Timebase.tick (State.tb_of_offWire (s.offWire_measureSent g a)) :)
  unfold State.delayMeasured
  rw [htick]
  exact State.offWire_onDrop (s.offWire_measureSent g a) g _

theorem exec_pathDelayRemeasure_granted (g : DropId) (ns : Nat) (s : State) (a : Arb) (hs : tblRising s.segs = true)
    (hfound : (s.drop g).found = true) (hstate : (s.drop g).state ≠ .retired) (hstarted : (s.seg (g / 32)).started = true)
    (ha : (s.settleWhistle (g / 32)).measureGrant g = some a) :
    exec (.pathDelayRemeasure g ns) s = .next (((s.settleWhistle (g / 32)).delayMeasured g ns a).setQdelays (g / 32)) := by
  have hdrop : (s.settleWhistle (g / 32)).drop g = s.drop g :=
    State.drop_of_drops (State.drops_of_offWire (s.offWire_settleWhistle _)) g
  have hrun : ((s.settleWhistle (g / 32)).seg (g / 32)).started = true := (s.settleWhistle_started _ hs).trans hstarted
  have hstate' : ((s.drop g).state == .retired) = false := beq_eq_false_iff_ne.mpr hstate
  rw [exec_pathDelayRemeasure]
  unfold execPathDelayRemeasure
  simp only [hdrop, hfound, hstate', hrun, ha, Bool.not_true, Bool.or_self, Bool.false_eq_true, if_false]
  unfold State.delayMeasured State.measureSent
  rw [hdrop]

theorem pathDelayRemeasure_records (g : DropId) (ns : Nat) (s : State) (hr : s.Rising) (hpair : (s.pair 10).active = [])
    (hfound : (s.drop g).found = true) (hstate : (s.drop g).state ≠ .retired) (hstarted : (s.seg (g / 32)).started = true)
    (hgrant : ((s.settleWhistle (g / 32)).measureGrant g).isSome = true) :
    ∃ t, exec (.pathDelayRemeasure g ns) s = .next t ∧ (t.drop g).delay = some (oneWay (s.drop g).colant2 ns) ∧ (t.drop g).pMeasTick = s.tick ∧
      (∀ h, h ≠ g.val → t.drop h = s.drop h) ∧ t.tb = s.tb ∧ t.parts = s.parts := by
  obtain ⟨-, hs, hd, -⟩ := hr
  obtain ⟨a, ha⟩ := Option.isSome_iff_exists.mp hgrant
  refine ⟨_, exec_pathDelayRemeasure_granted g ns s a hs hfound hstate hstarted ha, ?_⟩
  have hsettled := s.offWire_settleWhistle (g / 32)
  generalize s.settleWhistle (g / 32) = u at hsettled
  have hdrop : ∀ k, u.drop k = s.drop k := State.drop_of_drops (State.drops_of_offWire hsettled)
  have hud : tblRising u.drops = true := by rw [State.drops_of_offWire hsettled]; exact hd
  have hmeasured := u.offWire_delayMeasured g ns a
  have hmpair : ((u.delayMeasured g ns a).pair 10).active = [] := by
    unfold State.pair at hpair ⊢
    rw [State.pairs_of_offWire hmeasured]
    exact (congrArg (fun l => (tblGet {} l 10).active) (State.pairs_of_offWire hsettled)).trans hpair
  have hend := (State.offWire_setQdelays (u.delayMeasured g ns a) (g / 32) hmpair).trans hmeasured
  generalize (u.delayMeasured g ns a).setQdelays (g / 32) = t at hend
  have hend' := State.drop_of_drops (State.drops_of_offWire hend)
  have hself : t.drop g = { u.drop g with refreshTick := u.tick, delay := some (oneWay (u.drop g).colant2 ns), pMeasTick := u.tick } := by
    rw [hend', State.drop_onDrop_same (u.refreshed g) g _ (u.rising_onDrop g _ hud)]
    unfold State.refreshed
    rw [u.drop_onDrop_same g _ hud]
  have htb : t.tb = u.tb := (State.tb_of_offWire hend :)
  have hparts : t.parts = u.parts := (State.parts_of_offWire hend :)
  refine ⟨?_, ?_, fun h hne => ?_, htb.trans (State.tb_of_offWire hsettled), hparts.trans (State.parts_of_offWire hsettled)⟩
  · rw [hself, hdrop]
  · rw [hself]
    exact congrArg Timebase.tick (State.tb_of_offWire hsettled)
  · rw [hend', State.drop_onDrop_other _ _ _ _ hne]
    exact (u.drop_onDrop_other _ _ _ hne).trans (hdrop h)

/-- An edge measured while locked shows its offset and leaves the timebase locked. -/
theorem ppsEdge_locked (s : State) (stamp : Nat) (hsrc : s.tb.src = 2) (hlocked : s.tb.state = .locked) (hbad : s.tb.badRun < 15) :
    let x := (stamp : Int) - s.tb.ppsInDelay.toNat
    ∃ t, exec (.ppsEdge stamp) s = .next t ∧ t.tb.offset = BitVec.ofInt 32 (clampInt (-2147483648) 2147483647 (x - nearestSecond x)) ∧
      t.tb.ppsPresent = true ∧ t.tb.ppsTick = some s.tb.tick ∧ t.tb.acc = s.tb.acc ∧ t.tb.state = .locked ∧
      t = { s with tb := t.tb, free := t.free } := by
  intro x
  have hmeasured := State.measure_locked (s.onTb fun t => { t with ppsPresent := true, ppsTick := some t.tick }) (x - nearestSecond x) hlocked hbad
  rw [exec_ppsEdge_measured s stamp hsrc, hmeasured]
  exact ⟨_, rfl, rfl, rfl, rfl, rfl, hlocked, rfl⟩

/-- Settles O24: each message, edge and loss by its own lemma; the record of a path delay beside what words on the wires leave. -/
theorem referencesAndDelaysAreMeasured : Obligations.ReferencesAndDelaysAreMeasured := by
  refine ⟨⟨fun s d m origin rx hport hd hm hlast => ?sync, fun s d m tx rx o => exec_delayResp_roundTrip s d m tx rx o,
    fun s stamp o => exec_ppsEdge_rejected s stamp o, referenceLoss_holdover⟩, ppsEdge_locked, fun g ns s => pathDelayRemeasure_records g ns s⟩
  case sync => exact ⟨exec_sync_transit s d m origin rx hport hd hm hlast, State.syncOffset_transit _⟩

end Sys2Proof.Machine
end

section
/-! Changes of drops' records alone, and what a segment's rate, words and SYNC are decided from: which drops are enumerated and how they stand. -/

namespace Sys2Proof.Machine

open Sys2Proof

/-! ### The drops of a segment (R110, R169) -/

theorem tblRising_tail {α : Type} {e : Nat × α} {t : Tbl α} (h : tblRising (e :: t) = true) : tblAbove e.1 t ∧ tblRising t = true :=
  (tblRising_cons e.1 e.2 t).mp h

/-- The records that a table in canonical form lists are those that are found. -/
theorem mem_iff_tblFind {α : Type} (t : Tbl α) (h : tblRising t = true) (k : Nat) (a : α) : (k, a) ∈ t ↔ tblFind t k = some a := by
  induction t with
  | nil => simp
  | cons e t ih =>
    obtain ⟨i, b⟩ := e
    obtain ⟨habove, hrising⟩ := tblRising_tail h
    by_cases hi : i = k
    · subst hi
      have hnot : (i, a) ∉ t := fun hmem => Nat.lt_irrefl i (habove _ hmem)
      simp [tblFind, hnot, eq_comm]
    · have hne : ¬ k = i := fun hk => hi hk.symm
      simp [tblFind, hi, hne, ih hrising]

theorem tblRising_keys {α : Type} (t : Tbl α) (h : tblRising t = true) : (t.map (·.1)).Pairwise (· < ·) := by
  induction t with
  | nil => exact List.Pairwise.nil
  | cons e t ih =>
    obtain ⟨habove, hrising⟩ := tblRising_tail h
    refine List.Pairwise.cons (fun k hk => ?_) (ih hrising)
    obtain ⟨x, hx, rfl⟩ := List.mem_map.mp hk
    exact habove x hx

theorem State.mem_segDrops (s : State) (i g : Nat) (hd : tblRising s.drops = true) : g ∈ s.segDrops i ↔ g / 32 = i ∧ (s.drop g).found = true := by
  unfold State.segDrops State.drop tblGet
  constructor
  · intro h
    obtain ⟨⟨k, d⟩, hmem, rfl⟩ := List.mem_map.mp h
    obtain ⟨hlisted, hwhere⟩ := List.mem_filter.mp hmem
    rw [(mem_iff_tblFind s.drops hd k d).mp hlisted]
    simpa using hwhere
  · rintro ⟨hi, hfound⟩
    cases hg : tblFind s.drops g with
    | none =>
      rw [hg] at hfound
      cases hfound
    | some d =>
      rw [hg] at hfound
      have hmem := (mem_iff_tblFind s.drops hd g d).mpr hg
      exact List.mem_map.mpr ⟨(g, d), List.mem_filter.mpr ⟨hmem, by simpa using ⟨hi, hfound⟩⟩, rfl⟩

theorem State.segDrops_sorted (s : State) (i : Nat) (hd : tblRising s.drops = true) : (s.segDrops i).Pairwise (· < ·) :=
  (tblRising_keys s.drops hd).sublist (List.filter_sublist.map _)

/-! ### How drops stand -/

/-- How a drop stands: enumerated, its mode on record, RETIRED, and not to be addressed after a failed negotiation. -/
def Drop.standing (d : Drop) : Bool × Bool × Bool × Bool := (d.found, d.colant2, d.state == .retired, d.negoFail.isSome)

/-- From s to t every drop stands as it did. -/
def Stand (s t : State) : Prop := tblRising s.drops = true → tblRising t.drops = true ∧ ∀ g, (t.drop g).standing = (s.drop g).standing

theorem Stand.trans {a b c : State} (h : Stand a b) (k : Stand b c) : Stand a c := fun ha =>
  ⟨(k (h ha).1).1, fun g => ((k (h ha).1).2 g).trans ((h ha).2 g)⟩

theorem Stand.of_drops {s t : State} (h : t.drops = s.drops) : Stand s t := fun hs => ⟨by rwa [h], fun g => by rw [State.drop_of_drops h]⟩

section
variable {s t : State} (h : Stand s t) (hd : tblRising s.drops = true)
include h hd

theorem Stand.found (g : Nat) : (t.drop g).found = (s.drop g).found := congrArg (·.1) ((h hd).2 g)
theorem Stand.colant2 (g : Nat) : (t.drop g).colant2 = (s.drop g).colant2 := congrArg (·.2.1) ((h hd).2 g)
theorem Stand.retired (g : Nat) : ((t.drop g).state == .retired) = ((s.drop g).state == .retired) := congrArg (·.2.2.1) ((h hd).2 g)
theorem Stand.negoFail (g : Nat) : (t.drop g).negoFail.isSome = (s.drop g).negoFail.isSome := congrArg (·.2.2.2) ((h hd).2 g)

theorem Stand.segDrops (i : Nat) : t.segDrops i = s.segDrops i :=
  (t.segDrops_sorted i (h hd).1).eq_of_mem_iff (s.segDrops_sorted i hd) fun g => by
    rw [t.mem_segDrops i g (h hd).1, s.mem_segDrops i g hd, h.found hd]

theorem Stand.base2 (i : Nat) : t.base2 i = s.base2 i := by simp only [State.base2, h.segDrops hd, h.colant2 hd]

theorem Stand.mixed (i : Nat) : t.mixed i = s.mixed i := by simp only [State.mixed, h.segDrops hd, h.colant2 hd]

theorem Stand.c2Drops (i : Nat) : t.c2Drops i = s.c2Drops i := by
  simp only [State.c2Drops, h.segDrops hd, h.colant2 hd, bne, h.retired hd]

end

/-! ### Changes of drops' records alone -/

/-- The state without its drops. -/
def State.dropless (s : State) : State := { s with drops := [] }

section
variable {s t : State} (h : t.dropless = s.dropless)
include h

theorem State.tb_of_dropless : t.tb = s.tb := by have := congrArg State.tb h; exact this
theorem State.segs_of_dropless : t.segs = s.segs := by have := congrArg State.segs h; exact this
theorem State.out_of_dropless : t.out = s.out := by have := congrArg State.out h; exact this
theorem State.streams_of_dropless : t.streams = s.streams := by have := congrArg State.streams h; exact this
theorem State.plant_of_dropless : t.plant = s.plant := by have := congrArg State.plant h; exact this
theorem State.boot_of_dropless : t.boot = s.boot := by have := congrArg State.boot h; exact this
theorem State.pairs_of_dropless : t.pairs = s.pairs := by have := congrArg State.pairs h; exact this
theorem State.flt_of_dropless : t.flt = s.flt := by have := congrArg State.flt h; exact this

end

variable {β : Type} {v : Drop → β}

/-- From s to t only the records of the drops of K have changed, and the view v shows each as it was. -/
structure Drops (v : Drop → β) (K : Set Nat) (s t : State) : Prop where
  rest : t.dropless = s.dropless
  kept : tblRising s.drops = true → tblRising t.drops = true ∧ ∀ g, v (t.drop g) = v (s.drop g)
  others : ∀ g, g ∉ K → t.drop g = s.drop g

namespace Drops

variable {K : Set Nat}

theorem refl (s : State) : Drops v K s s := ⟨rfl, fun h => ⟨h, fun _ => rfl⟩, fun _ _ => rfl⟩

theorem trans {a b c : State} (h : Drops v K a b) (k : Drops v K b c) : Drops v K a c where
  rest := k.rest.trans h.rest
  kept := fun ha => ⟨(k.kept (h.kept ha).1).1, fun g => ((k.kept (h.kept ha).1).2 g).trans ((h.kept ha).2 g)⟩
  others := fun g hg => (k.others g hg).trans (h.others g hg)

theorem mono {K' : Set Nat} (hK : K ⊆ K') {s t : State} (h : Drops v K s t) : Drops v K' s t :=
  { h with others := fun g hg => h.others g fun hin => hg (hK hin) }

theorem ite {c : Prop} [Decidable c] {s t u : State} (ht : Drops v K s t) (hu : Drops v K s u) : Drops v K s (if c then t else u) := by
  split
  · exact ht
  · exact hu

/-- A view that shows no more shows each record as it was too. -/
theorem coarser {γ : Type} {w : Drop → γ} (hw : ∀ x y, v x = v y → w x = w y) {s t : State} (h : Drops v K s t) : Drops w K s t :=
  { h with kept := fun hs => ⟨(h.kept hs).1, fun g => hw _ _ ((h.kept hs).2 g)⟩ }

theorem onDrop (s : State) (g : Nat) (f : Drop → Drop) (hf : v (f (s.drop g)) = v (s.drop g)) (hg : g ∈ K) : Drops v K s (s.onDrop g f) where
  rest := rfl
  kept := fun hs => ⟨s.rising_onDrop g f hs, fun k => by
    by_cases hk : k = g
    · rw [hk, s.drop_onDrop_same g f hs, hf]
    · rw [s.drop_onDrop_other g k f hk]⟩
  others := fun k hk => s.drop_onDrop_other g k f fun h => hk (h ▸ hg)

/-- Steps that each change one drop change the drops of a list. -/
theorem foldl {step : State → Nat → State} (hstep : ∀ s g, Drops v {g} s (step s g)) (l : List Nat) (s : State) :
    Drops v {g | g ∈ l} s (l.foldl step s) := by
  induction l generalizing s with
  | nil => exact refl s
  | cons g l ih =>
    have hhead : ({g} : Set Nat) ⊆ {k | k ∈ g :: l} := fun k hk => by rw [Set.mem_singleton_iff.mp hk]; exact List.mem_cons_self
    exact ((hstep s g).mono hhead).trans ((ih _).mono fun k hk => List.mem_cons_of_mem g hk)

theorem stand {s t : State} (h : Drops Drop.standing K s t) : Stand s t := h.kept

theorem segs {s t : State} (h : Drops v K s t) : t.segs = s.segs := State.segs_of_dropless h.rest

theorem out {s t : State} (h : Drops v K s t) : t.out = s.out := State.out_of_dropless h.rest

theorem seg {s t : State} (h : Drops v K s t) (i : Nat) : t.seg i = s.seg i := State.seg_of_segs h.segs i

theorem wires {k : Set Nat} {s t : State} (h : Drops v K s t) : Wires k s t :=
  Wires.of_eq (State.plant_of_dropless h.rest) (State.boot_of_dropless h.rest) (State.flt_of_dropless h.rest) h.segs

end Drops

end Sys2Proof.Machine
end

section
/-! The operations of a segment's cycle: what each does to the drops' records, to its segment and to the outputs (R14, R235, R299, R333, R387). -/

namespace Sys2Proof.Machine

open Sys2Proof

/-! ### Buffers, tiles and expected CRCs -/

/-- A drop's record without its buffers, its Wafer state and the CRCs it expects. -/
def Drop.bare (d : Drop) : Drop := { d with waf := {}, back := [], third := [], expected := [] }

theorem Drop.standing_of_bare (x y : Drop) (h : x.bare = y.bare) : x.standing = y.standing :=
  have hstanding : x.bare.standing = y.bare.standing := congrArg Drop.standing h
  hstanding

theorem Drop.refreshTick_of_bare {x y : Drop} (h : x.bare = y.bare) : x.refreshTick = y.refreshTick := (congrArg Drop.refreshTick h :)

namespace Drops

variable {K : Set Nat}

theorem onWaf (s : State) (g : Nat) (f : WaferDrop → WaferDrop) (hg : g ∈ K) : Drops Drop.bare K s (s.onWaf g f) := onDrop s g _ rfl hg

/-- What leaves of a drop's record all that `Drop.bare` shows leaves how it stands. -/
theorem stands {s t : State} (h : Drops Drop.bare K s t) : Stand s t := (h.coarser Drop.standing_of_bare).stand

theorem refreshed (s : State) (g : Nat) (hg : g ∈ K) : Drops Drop.standing K s (s.refreshed g) := onDrop s g _ rfl hg

theorem takeThird (s : State) (g : Nat) (hg : g ∈ K) : Drops Drop.bare K s (s.takeThird g) := by
  have hbuffers : ∀ d : Drop, d.takeThird.bare = d.bare := fun d => by
    unfold Drop.takeThird
    split <;> rfl
  have hswap : Drops Drop.bare K s (s.onDrop g (·.takeThird)) := onDrop s g _ (hbuffers _) hg
  unfold State.takeThird
  dsimp only
  split
  · exact refl s
  · split
    · exact hswap
    · exact hswap.trans (onWaf _ g _ hg)

theorem commitWafer (s : State) (g : Nat) (hg : g ∈ K) : Drops Drop.bare K s (s.commitWafer g) := by
  unfold State.commitWafer
  dsimp only
  exact ite (onWaf s g _ hg) ((onWaf s g _ hg).trans (onWaf _ g _ hg))

theorem expectCrcs (s : State) (g : Nat) (seq : Byte) (hg : g ∈ K) : Drops Drop.bare K s (s.expectCrcs g seq) := by
  unfold State.expectCrcs
  dsimp only
  exact ite (onDrop s g _ rfl hg) (onDrop s g _ rfl hg)

theorem loseUnsynced (s : State) (i : Nat) : Drops Drop.bare {g | g ∈ s.segDrops i} s (s.loseUnsynced i) :=
  foldl (fun u g => onWaf u g _ rfl) _ s

end Drops

/-! ### Drops refreshed in turn -/

/-- A step that refreshes one drop. -/
def Refreshes (step : State → Nat → State) : Prop :=
  ∀ s g, Drops Drop.standing {g} s (step s g) ∧ (tblRising s.drops = true → ((step s g).drop g).refreshTick = s.tick)

theorem refreshes_refreshed : Refreshes State.refreshed := fun s g =>
  ⟨Drops.refreshed s g rfl, fun hd => by unfold State.refreshed; rw [s.drop_onDrop_same g _ hd]⟩

theorem refreshes_commit : Refreshes fun s g => (s.commitWafer g).refreshed g := fun s g => by
  have hcommit := Drops.commitWafer s g (K := {g}) rfl
  refine ⟨(hcommit.coarser Drop.standing_of_bare).trans (Drops.refreshed _ g rfl), fun hd => ?_⟩
  rw [(refreshes_refreshed _ g).2 (hcommit.kept hd).1]
  exact congrArg Timebase.tick (State.tb_of_dropless hcommit.rest)

/-- Refreshed in turn, every drop of a list has been heard now. -/
theorem Refreshes.foldl {step : State → Nat → State} (hstep : Refreshes step) (l : List Nat) (s : State) (hd : tblRising s.drops = true)
    (g : Nat) (hg : g ∈ l) : ((l.foldl step s).drop g).refreshTick = s.tick := by
  induction l generalizing s with
  | nil => cases hg
  | cons k l ih =>
    obtain ⟨hdrops, hself⟩ := hstep s k
    have htick : (step s k).tick = s.tick := congrArg Timebase.tick (State.tb_of_dropless hdrops.rest)
    rw [List.foldl_cons]
    by_cases hl : g ∈ l
    · rw [ih _ (hdrops.kept hd).1 hl, htick]
    · obtain rfl : g = k := (List.mem_cons.mp hg).resolve_right hl
      rw [(Drops.foldl (fun u k => (hstep u k).1) l _).others g hl, hself hd]

/-! ### The end of a slot's FRAMEs (R333) -/

/-- The drop whose FRAMEs a segment's slot still carries. -/
def State.runDrop (s : State) (i : Nat) : Set Nat := {g | ∃ r, (s.seg i).run = some r ∧ g = i * 32 + r.drop}

/-- What is left of a slot's FRAMEs is dropped: of its drop's record the Wafer state changes, and the segment carries none. -/
theorem State.dropRun_eq (s : State) (i : Nat) : ∃ u, Drops Drop.bare (s.runDrop i) s u ∧
    (s.dropRun i = u.onSeg i (fun x => { x with run := none }) ∨ (s.seg i).run = none ∧ s.dropRun i = u) := by
  unfold State.dropRun
  cases hrun : (s.seg i).run with
  | none => exact ⟨s, Drops.refl s, .inr ⟨rfl, rfl⟩⟩
  | some r =>
    dsimp only
    split
    · exact ⟨_, Drops.onWaf s _ _ ⟨r, hrun, rfl⟩, .inl rfl⟩
    · exact ⟨s, Drops.refl s, .inl rfl⟩

theorem State.dropRun_seg (s : State) (i : Nat) (hs : tblRising s.segs = true) : (s.dropRun i).seg i = { s.seg i with run := none } := by
  obtain ⟨u, hu, heq | ⟨hnone, heq⟩⟩ := s.dropRun_eq i
  · rw [heq, u.seg_onSeg_same i _ (by rwa [hu.segs]), hu.seg]
  · rw [heq, hu.seg, ← hnone]

theorem State.dropRun_out (s : State) (i : Nat) : (s.dropRun i).out = s.out := by
  obtain ⟨u, hu, heq | ⟨-, heq⟩⟩ := s.dropRun_eq i
  · rw [heq]; exact hu.out
  · rw [heq, hu.out]

theorem State.dropRun_others (s : State) (i g : Nat) (hg : g ∉ s.runDrop i) : (s.dropRun i).drop g = s.drop g := by
  obtain ⟨u, hu, heq | ⟨-, heq⟩⟩ := s.dropRun_eq i
  · rw [heq]; exact hu.others g hg
  · rw [heq]; exact hu.others g hg

theorem State.dropRun_stand (s : State) (i : Nat) : Stand s (s.dropRun i) := by
  obtain ⟨u, hu, heq | ⟨-, heq⟩⟩ := s.dropRun_eq i
  · rw [heq]; exact hu.stands
  · rw [heq]; exact hu.stands

theorem State.dropRun_pairs (s : State) (i : Nat) : (s.dropRun i).pairs = s.pairs := by
  obtain ⟨u, hu, heq | ⟨-, heq⟩⟩ := s.dropRun_eq i
  · rw [heq]; exact (State.pairs_of_dropless hu.rest :)
  · rw [heq]; exact (State.pairs_of_dropless hu.rest :)

theorem State.dropRun_rising (s : State) (i : Nat) (hs : tblRising s.segs = true) : tblRising (s.dropRun i).segs = true :=
  (Wires.dropRun s i (k := {i}) rfl).rising hs

/-! ### What neither words, buffers nor doorbells write -/

/-- The state without segments, drops and outputs, and without what doorbells write. -/
def State.aside (s : State) : State := { s.unrung with segs := [], drops := [] }

section
variable {s t : State}

theorem State.aside_of_unrung (h : t.unrung = s.unrung) : t.aside = s.aside := congrArg (fun u : State => { u with segs := [], drops := [] }) h

theorem State.aside_of_offWire (h : t.offWire = s.offWire) : t.aside = s.aside := (congrArg State.aside h :)

theorem State.aside_of_dropless (h : t.dropless = s.dropless) : t.aside = s.aside := (congrArg State.aside h :)

theorem Drops.aside {β : Type} {v : Drop → β} {K : Set Nat} (h : Drops v K s t) : t.aside = s.aside := State.aside_of_dropless h.rest

variable (h : t.aside = s.aside)
include h

theorem State.tb_of_aside : t.tb = s.tb := by have := congrArg State.tb h; exact this
theorem State.plant_of_aside : t.plant = s.plant := by have := congrArg State.plant h; exact this
theorem State.boot_of_aside : t.boot = s.boot := by have := congrArg State.boot h; exact this
theorem State.streams_of_aside : t.streams = s.streams := by have := congrArg State.streams h; exact this

end

theorem State.dropRun_aside (s : State) (i : Nat) : (s.dropRun i).aside = s.aside := by
  obtain ⟨u, hu, heq | ⟨-, heq⟩⟩ := s.dropRun_eq i
  · rw [heq, State.aside_of_offWire (u.offWire_onSeg i _), hu.aside]
  · rw [heq, hu.aside]

/-! ### Presentation (R14, R163) -/

/-- At the instant that a SYNC has counted to, the drops' buffers have swapped. -/
def State.swapped (s : State) (i : Nat) : State :=
  (s.segDrops i).foldl (fun u g => u.onDrop g fun d =>
    let ready := d.backFor == (s.seg i).syncNs && d.lateFor != (s.seg i).syncNs
    { d with presentedSeq := (s.seg i).seq, front := if ready then d.takeThird.back else d.front, backFor := none, third := [] }) s

/-- Drops whose hand-back instant has come show their surfaces again. -/
def State.handedBackNow (s : State) (i : Nat) : State :=
  (s.segDrops i).foldl (fun u g => u.onDrop g fun d =>
    if d.state = .fallback ∧ (d.activeAt.map fun t => decide (t ≤ s.now)).getD false then
      { d with state := .active, activeAt := none, fallbackFrom := none }
    else d) s

theorem State.present_eq (s : State) (i : Nat) : s.present i =
    ((if ((s.seg i).syncNs.map fun t => decide (t ≤ s.now)).getD false then (s.swapped i).onSeg i fun x => { x with syncNs := none }
      else s).handedBackNow i).updateTakeover := by
  unfold State.present
  dsimp only
  cases ((s.seg i).syncNs.map fun t => decide (t ≤ s.now)).getD false <;> rfl

theorem State.swapped_drops (s : State) (i : Nat) : Drops Drop.standing {g | g ∈ s.segDrops i} s (s.swapped i) :=
  Drops.foldl (fun u g => Drops.onDrop u g _ rfl rfl) _ s

theorem State.handedBackNow_drops (s : State) (i : Nat) : Drops Drop.standing {g | g ∈ s.segDrops i} s (s.handedBackNow i) := by
  refine Drops.foldl (fun u g => Drops.onDrop u g _ ?_ rfl) _ s
  split
  · next hback =>
    unfold Drop.standing Drop.found
    rw [hback.1]
    rfl
  · rfl

/-- A presentation instant: drops stand as they did, the segment counts to no instant or as before, and what is sent is what doorbells send. -/
theorem State.present_keeps (s : State) (i : Nat) (hs : tblRising s.segs = true) :
    Stand s (s.present i) ∧ (s.present i).aside = s.aside ∧ tblRising (s.present i).segs = true ∧
      (∃ n, (s.present i).seg i = { s.seg i with syncNs := n }) ∧ (s.bellsPass = true → (s.present i).out = s.out) := by
  obtain ⟨u, heq, hstand, haside, hrising, hseg, hout, hpairs⟩ : ∃ u : State, s.present i = (u.handedBackNow i).updateTakeover ∧ Stand s u ∧
      u.aside = s.aside ∧ tblRising u.segs = true ∧ (∃ n, u.seg i = { s.seg i with syncNs := n }) ∧ u.out = s.out ∧ u.pairs = s.pairs := by
    have hswapped := s.swapped_drops i
    rw [s.present_eq i]
    split
    · refine ⟨_, rfl, hswapped.stand, hswapped.aside, tblRising_set _ _ _ _ (by rwa [hswapped.segs]), ⟨none, ?_⟩, hswapped.out,
        (State.pairs_of_dropless hswapped.rest :)⟩
      rw [State.seg_onSeg_same _ i _ (by rwa [hswapped.segs]), hswapped.seg]
    · exact ⟨s, rfl, Stand.of_drops rfl, rfl, hs, ⟨_, rfl⟩, rfl, rfl⟩
  have hback := u.handedBackNow_drops i
  have htold := (u.handedBackNow i).unrung_updateTakeover
  have hsegs : (u.handedBackNow i).updateTakeover.segs = u.segs := (State.segs_of_unrung htold).trans hback.segs
  rw [heq]
  refine ⟨(hstand.trans hback.stand).trans (Stand.of_drops (State.drops_of_unrung htold)),
    ((State.aside_of_unrung htold).trans hback.aside).trans haside, by rwa [hsegs], ?_, fun hb => ?_⟩
  · rw [State.seg_of_segs hsegs]
    exact hseg
  · have hbells : (u.handedBackNow i).bellsPass = true := by
      have hsame := (State.pairs_of_dropless hback.rest).trans hpairs
      unfold State.bellsPass State.blockOk State.pair at hb ⊢
      rw [hsame]
      exact hb
    rw [State.out_of_evcless (State.evcless_updateTakeover _ hbells), hback.out, hout]

end Sys2Proof.Machine
end

section
/-! The start of a cycle, link-hold windows, Whistle periods, slots and the SYNC (O30). -/

namespace Sys2Proof.Machine

open Sys2Proof

/-! ### Words without a change of rate -/

theorem wireWords_colant1 (i : Nat) (rate2 : Bool) (ws : List ColWord) : wireWords i rate2 false ws = [.colant i 1 ws] := rfl

theorem wireWords_sameRate (i : Nat) (c2 : Bool) (ws : List ColWord) : wireWords i c2 c2 ws = [.colant i (if c2 then 2 else 1) ws] := by
  cases c2 <;> rfl

theorem wireWords_aligned (i : Nat) (rate2 c2 : Bool) (ws : List ColWord) :
    wireWords i rate2 c2 (alignWord :: ws) = [.colant i (if c2 then 2 else 1) (alignWord :: ws)] := by
  simp [wireWords]

/-- Words that do not begin with ALIGN themselves get two before a change to Colant-2 rate. -/
theorem wireWords_unaligned (i : Nat) (rate2 c2 : Bool) (w : ColWord) (ws : List ColWord) (hw : w ≠ alignWord) :
    wireWords i rate2 c2 (w :: ws) =
      (if c2 && !rate2 then [.colant i 2 [alignWord, alignWord]] else []) ++ [.colant i (if c2 then 2 else 1) (w :: ws)] := by
  simp [wireWords, hw]

/-! ### Link-hold windows (R234, R235) -/

/-- The words of a link-hold window to drops gs. -/
def State.sendHold (s : State) (i : Nat) (gs : List Nat) : State :=
  let ks := gs.flatMap fun g => message [header opKeepalive (g % 32) 0] true
  if gs.isEmpty then s.sendWords i (s.base2 i) (List.replicate (if s.base2 i then 72 else 36) idleWord)
  else if s.mixed i && !s.inWhistle i then s.whistlePeriod i 64 (ks ++ List.replicate (64 - ks.length) idleWord)
  else
    let ws := if (s.seg i).rate2 then ks else [alignWord, alignWord] ++ ks
    s.sendWords i true (ws ++ List.replicate (72 - ws.length) idleWord)

/-- Of a link-hold window, what comes before its words: the drops it addresses are refreshed. -/
def State.holdRefreshed (s : State) (i : Nat) : State :=
  (s.c2Drops i).foldl State.refreshed (s.onSeg i fun x => { x with wordsEnd := s.wireOff i + 72 })

theorem State.holdWindow_eq (s : State) (i : Nat) : s.holdWindow i = (s.holdRefreshed i).sendHold i (s.c2Drops i) := rfl

theorem State.inWhistle_none (s : State) (i : Nat) (h : (s.seg i).whistleEnd = none) : s.inWhistle i = false := by
  unfold State.inWhistle
  rw [h]

theorem State.whistlePeriod_out (s : State) (i n : Nat) (ws : List ColWord) : (s.whistlePeriod i n ws).out = s.out ++
    [.colant i 1 (message [header opWhistle 0 ((n + 3) / 65536), BitVec.ofNat 16 (n + 3)] false), .colant i 2 (alignWord :: alignWord :: ws),
     .colant i 1 [idleWord]] := by
  unfold State.whistlePeriod
  dsimp only
  rw [State.sendWords_out, State.sendWords_out, State.sendWords_out, wireWords_colant1, wireWords_colant1]
  simp only [List.cons_append, List.nil_append, wireWords_aligned, List.append_assoc, if_true]

theorem State.sendHold_out (s : State) (i : Nat) (gs : List Nat) (hw : (s.seg i).whistleEnd = none) :
    (s.sendHold i gs).out = s.out ++ holdWords i (s.mixed i) (s.base2 i) (s.seg i).rate2 gs := by
  have hnot := s.inWhistle_none i hw
  unfold State.sendHold holdWords
  cases gs with
  | nil =>
    simp only [List.isEmpty_nil, if_true]
    have hidle : idleWord ≠ alignWord := by decide
    rw [State.sendWords_out]
    cases s.base2 i
    · exact congrArg (s.out ++ ·) (wireWords_unaligned i _ false idleWord (List.replicate 35 idleWord) hidle)
    · exact congrArg (s.out ++ ·) (wireWords_unaligned i _ true idleWord (List.replicate 71 idleWord) hidle)
  | cons g gs =>
    simp only [List.isEmpty_cons, hnot, Bool.not_false, Bool.and_true, Bool.false_eq_true, if_false, reduceCtorEq]
    split
    · rw [State.whistlePeriod_out]
      simp only [List.cons_append, List.nil_append]
      rfl
    · rw [State.sendWords_out]
      cases (s.seg i).rate2
      · simp only [Bool.false_eq_true, if_false, List.cons_append, List.nil_append, wireWords_aligned, if_true]
      · simp only [if_true, wireWords_sameRate]

theorem State.offWire_sendHold (s : State) (i : Nat) (gs : List Nat) : (s.sendHold i gs).offWire = s.offWire := by
  unfold State.sendHold State.whistlePeriod
  dsimp only
  split
  · rw [State.offWire_sendWords]
  · split
    · rw [State.offWire_sendWords, State.offWire_sendWords, State.offWire_sendWords]
    · rw [State.offWire_sendWords]

theorem State.sendHold_seg (s : State) (i : Nat) (gs : List Nat) (hs : tblRising s.segs = true) :
    ∃ b, (s.sendHold i gs).seg i = { s.seg i with rate2 := b } := by
  have hsent := fun c2 ws => s.sendWords_seg i c2 ws hs
  have hrising := fun c2 ws => s.sendWords_rising i c2 ws hs
  unfold State.sendHold State.whistlePeriod
  dsimp only
  split
  · exact ⟨_, hsent _ _⟩
  · split
    · refine ⟨false, ?_⟩
      rw [State.sendWords_seg _ i false _ (State.sendWords_rising _ i true _ (hrising false _)), State.sendWords_seg _ i true _ (hrising false _), hsent]
    · exact ⟨_, hsent _ _⟩

theorem Wires.sendHold (s : State) (i : Nat) (gs : List Nat) : Wires {i} s (s.sendHold i gs) := by
  have hi : i ∈ ({i} : Set Nat) := rfl
  unfold State.sendHold State.whistlePeriod
  dsimp only
  exact Wires.ite (Wires.sendWords _ i _ _ hi)
    (Wires.ite (((Wires.sendWords _ i _ _ hi).trans (Wires.sendWords _ i _ _ hi)).trans (Wires.sendWords _ i _ _ hi)) (Wires.sendWords _ i _ _ hi))

theorem State.holdRefreshed_drops (s : State) (i : Nat) :
    Drops Drop.standing {g | g ∈ s.c2Drops i} (s.onSeg i fun x => { x with wordsEnd := s.wireOff i + 72 }) (s.holdRefreshed i) :=
  Drops.foldl (fun u g => Drops.refreshed u g rfl) _ _

/-- A link-hold window outside a Whistle period: its words, the drops it refreshes, and its segment. -/
theorem State.holdWindow_keeps (s : State) (i : Nat) (hs : tblRising s.segs = true) (hd : tblRising s.drops = true)
    (hw : (s.seg i).whistleEnd = none) :
    (s.holdWindow i).out = s.out ++ holdWords i (s.mixed i) (s.base2 i) (s.seg i).rate2 (s.c2Drops i) ∧
      (∃ b, (s.holdWindow i).seg i = { s.seg i with wordsEnd := s.wireOff i + 72, rate2 := b }) ∧ Wires {i} s (s.holdWindow i) ∧
      (s.holdWindow i).aside = s.aside ∧ (∀ g ∈ s.c2Drops i, ((s.holdWindow i).drop g).refreshTick = s.tick) ∧
      (∀ g, g ∉ s.c2Drops i → (s.holdWindow i).drop g = s.drop g) := by
  set u := s.onSeg i fun x => { x with wordsEnd := s.wireOff i + 72 } with hu
  have hurising : tblRising u.segs = true := tblRising_set _ _ _ _ hs
  have huseg : u.seg i = { s.seg i with wordsEnd := s.wireOff i + 72 } := s.seg_onSeg_same i _ hs
  have hdrops := s.holdRefreshed_drops i
  have hseg : (s.holdRefreshed i).seg i = { s.seg i with wordsEnd := s.wireOff i + 72 } := (hdrops.seg i).trans huseg
  have hrising : tblRising (s.holdRefreshed i).segs = true := by rw [hdrops.segs]; exact hurising
  have hkept : Stand s (s.holdRefreshed i) := hdrops.stand
  have hsent := State.drop_of_drops (State.drops_of_offWire ((s.holdRefreshed i).offWire_sendHold i (s.c2Drops i)))
  rw [s.holdWindow_eq i]
  refine ⟨?_, ?_, ?_, ?_, fun g hg => ?_, fun g hg => ?_⟩
  · rw [State.sendHold_out _ i _ (by rw [hseg]; exact hw), hdrops.out, hkept.mixed hd, hkept.base2 hd, hseg]
    rfl
  · obtain ⟨b, hb⟩ := (s.holdRefreshed i).sendHold_seg i (s.c2Drops i) hrising
    exact ⟨b, by rw [hb, hseg]⟩
  · exact ((Wires.onSeg (k := {i}) s i _ rfl).trans hdrops.wires).trans (Wires.sendHold _ i _)
  · exact (State.aside_of_offWire (State.offWire_sendHold _ i _)).trans (hdrops.aside.trans (State.aside_of_offWire (s.offWire_onSeg i _)))
  · rw [hsent]
    exact refreshes_refreshed.foldl (s.c2Drops i) u hd g hg
  · rw [hsent]
    exact hdrops.others g hg

end Sys2Proof.Machine
end

section
/-! The commands of a segment's cycle (O30). -/

namespace Sys2Proof.Machine

open Sys2Proof

/-! ### The start of a cycle (R100, R222, R223) -/

/-- What ends with a cycle: FRAMEs left over, the pictures that its SYNC presented, tiles that no SYNC followed. -/
def State.cycleEnded (s : State) (i : Nat) : State := ((s.dropRun i).present i).loseUnsynced i

/-- RESUME goes out in the cycle that starts. -/
def State.resumes (s : State) (i : Nat) : Bool := (s.seg i).resumeDue && !s.plant.halted

/-- The words that begin a cycle: two ALIGN words, and RESUME where it is due. -/
def State.cycleWords (s : State) (i : Nat) (c2 resume : Bool) : State :=
  if resume then (s.sendWords i c2 [alignWord, alignWord]).sendWords i c2 (broadcast opResume []) else s.sendWords i c2 [alignWord, alignWord]

/-- The segment as a cycle from nominal instant n on begins. -/
def State.cycleOpen (s : State) (i n : Nat) (c2 resume : Bool) : State :=
  s.onSeg i fun x =>
    { x with started := true, cycleStartNs := n, beginNs := s.now, endNs := s.instantAfter i n, cycleTick := s.tick, region := .openTime,
             linkHold := 1, wordsEnd := (if resume then 3 else 2) * (if c2 then 1 else 2), frozen := x.frozen && !resume,
             resumeDue := x.resumeDue && !resume, syncNs := none, syncNow := false }

theorem State.cycleEnded_keeps (s : State) (i : Nat) (hs : tblRising s.segs = true) :
    Stand s (s.cycleEnded i) ∧ (s.cycleEnded i).aside = s.aside ∧ tblRising (s.cycleEnded i).segs = true ∧
      (∃ n, (s.cycleEnded i).seg i = { s.seg i with run := none, syncNs := n }) ∧ (s.bellsPass = true → (s.cycleEnded i).out = s.out) := by
  obtain ⟨hstand, haside, hrising, ⟨n, hseg⟩, hout⟩ := (s.dropRun i).present_keeps i (s.dropRun_rising i hs)
  have hlost := Drops.loseUnsynced ((s.dropRun i).present i) i
  unfold State.cycleEnded
  refine ⟨((s.dropRun_stand i).trans hstand).trans hlost.stands, hlost.aside.trans (haside.trans (s.dropRun_aside i)),
    by rw [hlost.segs]; exact hrising, ⟨n, ?_⟩, fun hb => ?_⟩
  · rw [hlost.seg, hseg, s.dropRun_seg i hs]
  · rw [hlost.out, hout ((State.bellsPass_of_pairs (s.dropRun_pairs i)).trans hb), s.dropRun_out i]

theorem State.offWire_cycleWords (s : State) (i : Nat) (c2 resume : Bool) : (s.cycleWords i c2 resume).offWire = s.offWire := by
  unfold State.cycleWords
  split
  · rw [State.offWire_sendWords, State.offWire_sendWords]
  · rw [State.offWire_sendWords]

theorem State.cycleWords_keeps (s : State) (i : Nat) (c2 resume : Bool) (hs : tblRising s.segs = true) :
    (s.cycleWords i c2 resume).out = s.out ++ [.colant i (if c2 then 2 else 1) [alignWord, alignWord]]
        ++ (if resume then [.colant i (if c2 then 2 else 1) (broadcast opResume [])] else []) ∧
      (s.cycleWords i c2 resume).seg i = { s.seg i with rate2 := c2 } ∧ tblRising (s.cycleWords i c2 resume).segs = true := by
  have hseg := s.sendWords_seg i c2 [alignWord, alignWord] hs
  have hrising := s.sendWords_rising i c2 [alignWord, alignWord] hs
  have hout : (s.sendWords i c2 [alignWord, alignWord]).out = s.out ++ [.colant i (if c2 then 2 else 1) [alignWord, alignWord]] := by
    rw [State.sendWords_out, wireWords_aligned]
  unfold State.cycleWords
  cases resume with
  | false => exact ⟨hout.trans (List.append_nil _).symm, hseg, hrising⟩
  | true =>
    simp only [if_true]
    rw [State.sendWords_out, State.sendWords_seg _ i c2 _ hrising, hout, hseg, wireWords_sameRate]
    exact ⟨rfl, rfl, State.sendWords_rising _ i c2 _ hrising⟩

theorem State.now_of_tb {s t : State} (h : t.tb = s.tb) : t.now = s.now := by unfold State.now; rw [h]

theorem State.instantAfter_of_boot {s t : State} (h : t.boot = s.boot) (i n : Nat) : t.instantAfter i n = s.instantAfter i n := by
  unfold State.instantAfter State.instantFrom State.cycleUs State.phaseUs State.map
  rw [h]

/-- CYCLE_START once it is due and the wires are free. -/
theorem exec_cycleStart_due (i : SegId) (s : State) (n : Nat) (hw : (s.seg i).whistleEnd = none) (hn : s.nextStart i = some n)
    (hclk : (s.seg i).clk = true) (henum : (s.seg i).enumerated = true) (hret : (s.seg i).retired = false) (htx : (s.seg i).tx = none)
    (htenure : (s.seg i).tenure = none) (hs : tblRising s.segs = true) :
    exec (.cycleStart i) s =
      .next ((((s.cycleEnded i).cycleWords i (s.base2 i) (s.resumes i)).cycleOpen i n (s.base2 i) (s.resumes i)).holdWindow i) := by
  obtain ⟨-, haside, -⟩ := s.cycleEnded_keeps i hs
  have hplant : ((s.cycleEnded i).sendWords i (s.base2 i) [alignWord, alignWord]).plant = s.plant :=
    (State.plant_of_offWire (State.offWire_sendWords _ i _ _)).trans (State.plant_of_aside haside)
  unfold State.cycleEnded at hplant
  rw [exec_cycleStart]
  unfold execCycleStart
  simp only [s.settleWhistle_none i hw, hn, hclk, henum, hret, htx, htenure, hplant, Bool.not_true, Option.isSome_none, Bool.or_self,
    Bool.false_eq_true, if_false]
  rfl

/-- What a cycle sends at its start, and what it leaves as it was. -/
theorem cycleStart_begins (i : SegId) (s : State) (n : Nat) (hr : s.Rising) (hw : (s.seg i).whistleEnd = none) (hn : s.nextStart i = some n)
    (hclk : (s.seg i).clk = true) (henum : (s.seg i).enumerated = true) (hret : (s.seg i).retired = false) (htx : (s.seg i).tx = none)
    (htenure : (s.seg i).tenure = none) :
    let c2 := s.base2 i
    let rate := if c2 then 2 else 1
    let resume := (s.seg i).resumeDue && !s.plant.halted
    ∃ t, exec (.cycleStart i) s = .next t ∧ (t.seg i).started = true ∧ (t.seg i).cycleStartNs = n ∧ (t.seg i).beginNs = s.now ∧
      (t.seg i).endNs = s.instantAfter i n ∧ (t.seg i).region = .openTime ∧ (t.seg i).linkHold = 1 ∧ t.tb = s.tb ∧ t.streams = s.streams ∧
      (t.seg i).frozen = ((s.seg i).frozen && !resume) ∧
      t.out = (((s.dropRun i).present i).loseUnsynced i).out ++ [.colant i rate [alignWord, alignWord]]
        ++ (if resume then [.colant i rate (broadcast opResume [])] else []) ++ holdWords i (s.mixed i) c2 c2 (s.c2Drops i) ∧
      (s.bellsPass = true → (((s.dropRun i).present i).loseUnsynced i).out = s.out) := by
  intro c2 rate resume
  obtain ⟨-, hs, hd, -⟩ := hr
  obtain ⟨hstand, haside, hrising, ⟨k, hseg⟩, hquiet⟩ := s.cycleEnded_keeps i hs
  obtain ⟨hwout, hwseg, hwrising⟩ := (s.cycleEnded i).cycleWords_keeps i c2 resume hrising
  have hwords := (s.cycleEnded i).offWire_cycleWords i c2 resume
  have hexec := exec_cycleStart_due i s n hw hn hclk henum hret htx htenure hs
  change exec (.cycleStart i) s = .next ((((s.cycleEnded i).cycleWords i c2 resume).cycleOpen i n c2 resume).holdWindow i) at hexec
  generalize (s.cycleEnded i).cycleWords i c2 resume = u at hexec hwout hwseg hwrising hwords
  have hvseg : (u.cycleOpen i n c2 resume).seg i = _ := u.seg_onSeg_same i _ hwrising
  have hvstand : Stand s (u.cycleOpen i n c2 resume) := hstand.trans (Stand.of_drops (State.drops_of_offWire hwords :))
  have hvaside : (u.cycleOpen i n c2 resume).aside = s.aside := (State.aside_of_offWire hwords :).trans haside
  have hvrising : tblRising (u.cycleOpen i n c2 resume).segs = true := tblRising_set _ _ _ _ hwrising
  have hvout : (u.cycleOpen i n c2 resume).out = u.out := rfl
  generalize u.cycleOpen i n c2 resume = v at hexec hvseg hvstand hvaside hvrising hvout
  obtain ⟨hout, ⟨b, hb⟩, -, hheld, -⟩ := v.holdWindow_keeps i hvrising (hvstand hd).1 (by rw [hvseg, hwseg, hseg]; exact hw)
  have hend := hheld.trans hvaside
  have hnow : u.now = s.now := State.now_of_tb ((State.tb_of_offWire hwords).trans (State.tb_of_aside haside))
  have hafter : u.instantAfter i n = s.instantAfter i n :=
    State.instantAfter_of_boot ((State.boot_of_offWire hwords).trans (State.boot_of_aside haside)) i n
  refine ⟨_, hexec, ?_, ?_, ?_, ?_, ?_, ?_, State.tb_of_aside hend, State.streams_of_aside hend, ?_, ?_, hquiet⟩
  · rw [hb, hvseg]
  · rw [hb, hvseg]
  · rw [hb, hvseg, ← hnow]
  · rw [hb, hvseg, ← hafter]
  · rw [hb, hvseg]
  · rw [hb, hvseg]
  · rw [hb, hvseg, hwseg, hseg]
  · rw [hout, hvout, hwout, hvstand.mixed hd, hvstand.base2 hd, hvstand.c2Drops hd, hvseg, hwseg]
    rfl

end Sys2Proof.Machine
end

section
/-! In a running cycle: link-hold windows, Whistle periods, slots and the SYNC (O30). -/

namespace Sys2Proof.Machine

open Sys2Proof

/-- A cycle of segment i runs, outside Whistle periods, transactions and tenures. -/
structure CycleRuns (s : State) (i : Nat) : Prop where
  noWhistle : (s.seg i).whistleEnd = none
  clk : (s.seg i).clk = true
  started : (s.seg i).started = true
  inService : (s.seg i).retired = false
  noTx : (s.seg i).tx = none
  noTenure : (s.seg i).tenure = none

/-! ### Wires without a holder -/

theorem State.releaseHolder_seg (s : State) (i : Nat) (hs : tblRising s.segs = true) :
    ∃ a, (s.releaseHolder i).seg i = { s.seg i with arb := a } := ⟨_, s.seg_onSeg_same i _ hs⟩

theorem State.releaseWires_seg (s : State) (i : Nat) (hs : tblRising s.segs = true) :
    ∃ a, (s.releaseWires i).seg i = { s.seg i with arb := a } := by
  obtain ⟨a, ha⟩ := s.releaseHolder_seg i hs
  have hlast := (s.releaseHolder i).seg_onSeg_same i (fun x => { x with arb := { x.arb with next := none, nextLimit := 0 } })
    (tblRising_set _ _ _ _ hs)
  rw [ha] at hlast
  exact ⟨_, hlast⟩

theorem Wires.releaseWires (s : State) (i : Nat) : Wires {i} s (s.releaseWires i) := by
  unfold State.releaseWires State.releaseHolder State.onArb
  exact (Wires.onSeg (k := {i}) s i _ rfl).trans (Wires.onSeg _ i _ rfl)

/-! ### Link-hold windows (R234, R235) -/

/-- A window has been sent: its point is counted, and the slot's FRAMEs move on behind it. -/
def State.windowSent (s : State) (i : Nat) : State :=
  (s.holdWindow i).onSeg i fun x => { x with linkHold := x.linkHold + 1, run := x.run.map fun r => { r with off := r.off + 72 } }

theorem exec_linkHoldWindow_due (i : SegId) (s : State) (h : CycleRuns s i) (hdue : s.holdDue i = true) (hroom : s.holdRoom i = true)
    (hfree : s.wordsOut i = false) (hbound : s.atBoundary i = true) :
    exec (.linkHoldWindow i) s = .next ((((s.windowSent i).runFrames i).claimWires i).nextRtv i) := by
  rw [exec_linkHoldWindow]
  unfold execLinkHoldWindow
  simp only [s.settleWhistle_none i h.noWhistle, hdue, h.noTx, h.noTenure, hroom, hfree, hbound, Bool.not_true, Option.isSome_none, Bool.or_self,
    Bool.false_eq_true, if_false]
  rfl

theorem linkHoldWindow_sends (i : SegId) (s : State) (h : CycleRuns s i) (hs : tblRising s.segs = true) (hd : tblRising s.drops = true)
    (hdue : s.holdDue i = true) (hroom : s.holdRoom i = true) (hfree : s.wordsOut i = false) (hbound : s.atBoundary i = true) :
    ∃ u : State, exec (.linkHoldWindow i) s = .next (((u.runFrames i).claimWires i).nextRtv i) ∧ (u.seg i).linkHold = (s.seg i).linkHold + 1 ∧
      u.out = s.out ++ holdWords i (s.mixed i) (s.base2 i) (s.seg i).rate2 (s.c2Drops i) ∧
      (∀ j, j ≠ i.val → u.seg j = s.seg j) ∧ (∀ g ∈ s.c2Drops i, (u.drop g).refreshTick = s.tick) ∧
      (∀ g, g ∉ s.c2Drops i → u.drop g = s.drop g) := by
  obtain ⟨hout, ⟨b, hseg⟩, hwires, -, hheard, hothers⟩ := s.holdWindow_keeps i hs hd h.noWhistle
  refine ⟨s.windowSent i, exec_linkHoldWindow_due i s h hdue hroom hfree hbound, ?_, hout, fun j hj => ?_, hheard, hothers⟩
  · unfold State.windowSent
    rw [State.seg_onSeg_same _ i _ (hwires.rising hs), hseg]
  · exact (State.seg_onSeg_other _ i j _ hj).trans (hwires.others j fun hin => hj (Set.mem_singleton_iff.mp hin))

/-! ### Whistle periods (R95) -/

/-- WHISTLE for a Whistle entry, and the two ALIGN words that open its period. -/
def State.whistleSent (s : State) (i : Nat) (e : Slot) : State :=
  ((s.releaseWires i).sendWords i false (message [header opWhistle 0 (e.len / 65536), BitVec.ofNat 16 e.len] false)).sendWords i true
    [alignWord, alignWord]

theorem State.whistleSent_drops (s : State) (i : Nat) (e : Slot) : (s.whistleSent i e).drops = s.drops := by
  have hsent : (s.whistleSent i e).offWire = s.offWire := by
    unfold State.whistleSent
    rw [State.offWire_sendWords, State.offWire_sendWords, State.offWire_releaseWires]
  exact State.drops_of_offWire hsent

theorem exec_whistle_due (i : SegId) (k : CalIndex) (s : State) (e : Slot) (h : CycleRuns s i) (hfrozen : (s.seg i).frozen = false)
    (hat : s.slotAt i k = some e) (hkind : e.kind = 6) (hbegun : e.start ≤ s.offsetNow i) (hbefore : s.offsetNow i < e.finish) :
    exec (.whistle i k) s =
      .next ((s.whistleSent i e).onSeg i fun x => { x with whistleEnd := some (x.cycleTick + ceilDiv (e.finish * 5) 6) }) := by
  rw [exec_whistle]
  unfold execWhistle
  simp only [s.settleWhistle_none i h.noWhistle, hat, h.clk, h.started, h.inService, h.noTx, h.noTenure, h.noWhistle, hfrozen, hkind,
    Nat.not_lt.mpr hbegun, Nat.not_le.mpr hbefore, Bool.not_true, Option.isSome_none, Bool.or_self, ne_eq, not_true_eq_false, decide_false,
    Bool.false_eq_true, if_false]
  rfl

theorem whistle_opens (i : SegId) (k : CalIndex) (s : State) (e : Slot) (h : CycleRuns s i) (hs : tblRising s.segs = true)
    (hfrozen : (s.seg i).frozen = false) (hat : s.slotAt i k = some e) (hkind : e.kind = 6) (hbegun : e.start ≤ s.offsetNow i)
    (hbefore : s.offsetNow i < e.finish) :
    ∃ t, exec (.whistle i k) s = .next t ∧ (t.seg i).whistleEnd = some ((s.seg i).cycleTick + ceilDiv (e.finish * 5) 6) ∧
      t.out = s.out ++ [.colant i 1 (message [header opWhistle 0 (e.len / 65536), BitVec.ofNat 16 e.len] false),
                        .colant i 2 [alignWord, alignWord]] ∧
      (∀ j, j ≠ i.val → t.seg j = s.seg j) ∧ t.drops = s.drops := by
  have hi : i.val ∈ ({i.val} : Set Nat) := rfl
  have hreleased := Wires.releaseWires s i
  obtain ⟨a, ha⟩ := s.releaseWires_seg i hs
  have hrising := hreleased.rising hs
  have hrising' := State.sendWords_rising _ i false (message [header opWhistle 0 (e.len / 65536), BitVec.ofNat 16 e.len] false) hrising
  have hwires : Wires {i.val} s (s.whistleSent i e) := (hreleased.trans (Wires.sendWords _ i _ _ hi)).trans (Wires.sendWords _ i _ _ hi)
  refine ⟨_, exec_whistle_due i k s e h hfrozen hat hkind hbegun hbefore, ?_, ?_, fun j hj => ?_, ?_⟩
  · rw [State.seg_onSeg_same _ i _ (hwires.rising hs)]
    unfold State.whistleSent
    rw [State.sendWords_seg _ i true _ hrising', State.sendWords_seg _ i false _ hrising, ha]
  · have hout : (s.releaseWires i).out = s.out := rfl
    show (s.whistleSent i e).out = _
    unfold State.whistleSent
    rw [State.sendWords_out, State.sendWords_out, wireWords_colant1, wireWords_aligned, hout, List.append_assoc]
    rfl
  · exact (State.seg_onSeg_other _ i j _ hj).trans (hwires.others j fun hin => hj (Set.mem_singleton_iff.mp hin))
  · rw [State.onSeg_drops]
    exact s.whistleSent_drops i e

/-! ### Slots (R226, R230) -/

/-- The time of a calendar entry that is a picture, control or Retriever slot has come, and its region is not open yet. -/
structure SlotDue (s : State) (i k : Nat) (e : Slot) : Prop where
  entry : s.slotAt i k = some e
  kind : e.kind = 1 ∨ e.kind = 2 ∨ e.kind = 3 ∨ e.kind = 5
  begun : e.start ≤ s.offsetNow i
  before : s.offsetNow i < e.finish
  shut : (s.seg i).region ≠ .slot k

/-- A slot's region opens on wires that are left to it, and its drop takes the third buffer where it may. -/
def State.slotOpened (s : State) (i k g : Nat) : State :=
  ((s.dropRun i).onSeg i fun x => { x with region := .slot k, rtvStep := 0 }).takeThird g

theorem State.slotOpened_keeps (s : State) (i k g : Nat) (hs : tblRising s.segs = true) :
    ((s.slotOpened i k g).seg i).region = .slot k ∧ (s.slotOpened i k g).streams = s.streams ∧ (s.slotOpened i k g).out = s.out ∧
      Stand s (s.slotOpened i k g) := by
  have hthird := Drops.takeThird ((s.dropRun i).onSeg i fun x => { x with region := .slot k, rtvStep := 0 }) g (K := {g}) rfl
  refine ⟨?_, ?_, hthird.out.trans (s.dropRun_out i), (s.dropRun_stand i).trans hthird.stands⟩
  · unfold State.slotOpened
    rw [hthird.seg, State.seg_onSeg_same _ i _ (s.dropRun_rising i hs)]
  · exact (State.streams_of_dropless hthird.rest).trans (State.streams_of_aside (s.dropRun_aside i))

/-- A slot's traffic is held back: FREEZE, a frozen arbiter, or a drop that may not be addressed (R101, R113, R248). -/
def barredOn (x : Segment) (d : Drop) : Bool := x.frozen || x.arb.freeze || !d.found || d.state == .retired || d.negoFail.isSome

theorem barredOn_iff (x : Segment) (d : Drop) : barredOn x d = true ↔
    x.frozen = true ∨ x.arb.freeze = true ∨ d.found = false ∨ d.state = .retired ∨ d.negoFail ≠ none := by
  simp [barredOn, or_assoc, Option.isSome_iff_ne_none]

theorem Stand.barredOn {s t : State} (h : Stand s t) (hd : tblRising s.drops = true) (x : Segment) (g : Nat) :
    barredOn x (t.drop g) = barredOn x (s.drop g) := by
  unfold Machine.barredOn
  rw [h.found hd, h.retired hd, h.negoFail hd]

section
variable {i : SegId} {k : CalIndex} {s : State} {e : Slot} (h : CycleRuns s i) (hslot : SlotDue s i k e)
include h hslot

/-- SLOT_START when it is due: an idle slot signals; a control slot goes to the requesters; a picture or Retriever slot sends what it may. -/
theorem exec_slotStart_due : exec (.slotStart i k) s =
    if s.slotIdle i e then .next ((((s.dropRun i).onSeg i fun x => { x with region := .slot k }).signalSeg i 0).settleIdle i)
    else
      let u := (if e.kind = 3 then s.releaseHolder i else s.releaseWires i).slotOpened i k (i.val * 32 + e.drop)
      if e.kind = 3 then .next (u.claimWires i)
      else if barredOn (s.seg i) (u.drop (i.val * 32 + e.drop)) then .next u
      else if e.kind = 1 then .next (u.rawSlot i e)
      else if e.kind = 2 then .next (u.waferSlot i e)
      else .next (u.nextRtv i) := by
  have hshut : ((s.seg i).region == .slot k) = false := beq_eq_false_iff_ne.mpr hslot.shut
  have hkind4 : (e.kind == 4) = false := beq_eq_false_iff_ne.mpr fun h4 => by have := hslot.kind; omega
  have hkind6 : (e.kind == 6) = false := beq_eq_false_iff_ne.mpr fun h6 => by have := hslot.kind; omega
  rw [exec_slotStart]
  unfold execSlotStart
  simp only [s.settleWhistle_none i h.noWhistle, hslot.entry, h.clk, h.started, h.inService, h.noTx, h.noTenure, hshut, hkind4, hkind6,
    Nat.not_lt.mpr hslot.begun, Nat.not_le.mpr hslot.before, decide_false, Bool.not_true, Option.isSome_none, Bool.or_self, Bool.false_eq_true,
    if_false]
  rfl

theorem exec_slotStart_control (hbusy : s.slotIdle i e = false) (h3 : e.kind = 3) :
    exec (.slotStart i k) s = .next (((s.releaseHolder i).slotOpened i k (i.val * 32 + e.drop)).claimWires i) := by
  rw [exec_slotStart_due h hslot, hbusy]
  simp only [h3, if_true, Bool.false_eq_true, if_false]

theorem exec_slotStart_picture (hd : tblRising s.drops = true) (hs : tblRising s.segs = true) (hbusy : s.slotIdle i e = false) (h3 : e.kind ≠ 3) :
    exec (.slotStart i k) s =
      let u := (s.releaseWires i).slotOpened i k (i.val * 32 + e.drop)
      if barredOn (s.seg i) (s.drop (i.val * 32 + e.drop)) then .next u
      else if e.kind = 1 then .next (u.rawSlot i e)
      else if e.kind = 2 then .next (u.waferSlot i e)
      else .next (u.nextRtv i) := by
  obtain ⟨-, -, -, hopened⟩ := (s.releaseWires i).slotOpened_keeps i k (i.val * 32 + e.drop) ((Wires.releaseWires s i).rising hs)
  have hstand := (Stand.of_drops (State.drops_of_offWire (s.offWire_releaseWires i))).trans hopened
  rw [exec_slotStart_due h hslot, hbusy]
  simp only [h3, if_false, Bool.false_eq_true, hstand.barredOn hd]

/-- A picture or Retriever slot: what its region's opening leaves, and what it sends where nothing bars it. -/
theorem slotStart_picture (hd : tblRising s.drops = true) (hs : tblRising s.segs = true) (hbusy : s.slotIdle i e = false) (h3 : e.kind ≠ 3) :
    let g := i.val * 32 + e.drop
    let u := (((s.releaseWires i).dropRun i).onSeg i fun x => { x with region := .slot k, rtvStep := 0 }).takeThird g
    (u.seg i).region = .slot k ∧ u.streams = s.streams ∧ u.out = s.out ∧
    ((s.seg i).frozen = true ∨ (s.seg i).arb.freeze = true ∨ (s.drop g).found = false ∨ (s.drop g).state = .retired ∨
      (s.drop g).negoFail ≠ none → exec (.slotStart i k) s = .next u) ∧
    ((s.seg i).frozen = false → (s.seg i).arb.freeze = false → (s.drop g).found = true → (s.drop g).state ≠ .retired →
      (s.drop g).negoFail = none →
      (e.kind = 1 → exec (.slotStart i k) s = .next (u.rawSlot i e)) ∧ (e.kind = 2 → exec (.slotStart i k) s = .next (u.waferSlot i e)) ∧
      (e.kind = 5 → exec (.slotStart i k) s = .next (u.nextRtv i))) := by
  intro g u
  obtain ⟨hregion, hstreams, hout, -⟩ := (s.releaseWires i).slotOpened_keeps i k g ((Wires.releaseWires s i).rising hs)
  have hexec := exec_slotStart_picture h hslot hd hs hbusy h3
  refine ⟨hregion, hstreams.trans (State.streams_of_offWire (s.offWire_releaseWires i)), hout, fun hbar => ?_,
    fun hfrozen hfreeze hfound hstate hnego => ?_⟩
  · rw [hexec, if_pos ((barredOn_iff _ _).mpr hbar)]
    rfl
  · have hfree : barredOn (s.seg i) (s.drop g) = false := by simp [barredOn, hfrozen, hfreeze, hfound, hstate, hnego]
    have hsend := hexec.trans (if_neg (Bool.eq_false_iff.mp hfree))
    exact ⟨fun h1 => hsend.trans (if_pos h1), fun h2 => hsend.trans ((if_neg (by omega)).trans (if_pos h2)),
      fun h5 => hsend.trans ((if_neg (by omega)).trans (if_neg (by omega)))⟩

/-- A control slot goes to the requesters. -/
theorem slotStart_control (hs : tblRising s.segs = true) (hbusy : s.slotIdle i e = false) (h3 : e.kind = 3) :
    let u := (((s.releaseHolder i).dropRun i).onSeg i fun x => { x with region := .slot k, rtvStep := 0 }).takeThird (i.val * 32 + e.drop)
    exec (.slotStart i k) s = .next (u.claimWires i) ∧ (u.seg i).region = .slot k ∧ u.streams = s.streams := by
  obtain ⟨hregion, hstreams, -⟩ := (s.releaseHolder i).slotOpened_keeps i k (i.val * 32 + e.drop) (tblRising_set _ _ _ _ hs)
  exact ⟨exec_slotStart_control h hslot hbusy h3, hregion, hstreams.trans (State.streams_of_offWire (s.offWire_releaseHolder i))⟩

end

/-! ### The SYNC (R64, R65, R333, R387) -/

theorem broadcast_two (op : Nat) (a b : W16) :
    broadcast op [a, b] = colWord (header op 0 0) true false :: [colWord a false false, colWord b false true] := rfl

theorem sync_not_align : colWord (header opSync 0 0) true false ≠ alignWord := by decide

/-- The countdown's SYNC goes out on wires that nothing else holds. -/
def State.syncSent (s : State) (i : Nat) (c2 : Bool) (seq : Byte) (n : Nat) : State :=
  ((s.releaseWires i).dropRun i).sendWords i c2 (broadcast opSync [BitVec.ofNat 16 (seq.toNat * 256 + n / 65536), BitVec.ofNat 16 n])

/-- What a SYNC does to the drops that hear it. -/
def State.syncHeard (s : State) (gs : List Nat) (seq : Byte) : State :=
  gs.foldl (fun s g => s.expectCrcs g seq) (gs.foldl (fun s g => (s.commitWafer g).refreshed g) (gs.foldl (fun s g => s.takeThird g) s))

/-- The segment once its SYNC has been launched at offset off. -/
def State.syncCounted (s : State) (i off : Nat) (c2 : Bool) (seq : Byte) : State :=
  s.onSeg i fun x => { x with seq := seq, syncNs := some x.endNs, syncC2 := c2, syncNow := false, wordsEnd := off + 6, region := .openTime }

theorem exec_sync_due (i : SegId) (s : State) (h : CycleRuns s i) (hfrozen : (s.seg i).frozen = false) (hnone : (s.seg i).syncNs = none)
    (hphase : s.boot.phase ≠ .service) (hwhen : s.syncFree i = true ∨ (s.cycS i ≤ s.offsetNow i ∧ s.offsetNow i ≤ s.cycS i + 6)) :
    exec (.sync i) s =
      let seq := (s.seg i).seq + 1
      let u := s.syncSent i (s.base2 i) seq (s.countdown i (s.base2 i))
      .next ((u.syncHeard (u.segDrops i) seq).syncCounted i (s.offsetNow i) (s.base2 i) seq) := by
  have hphase' : (s.boot.phase == .service) = false := beq_eq_false_iff_ne.mpr hphase
  have hdue : (!s.syncFree i && (decide (s.offsetNow i < s.cycS i) || decide (s.cycS i + 6 < s.offsetNow i))) = false := by
    rcases hwhen with hfree | ⟨hfrom, huntil⟩
    · rw [hfree]; rfl
    · simp [Nat.not_lt.mpr hfrom, Nat.not_lt.mpr huntil]
  rw [exec_sync]
  unfold execSync
  simp only [s.settleWhistle_none i h.noWhistle, h.clk, h.started, h.inService, h.noTx, h.noTenure, hfrozen, hnone, hphase', hdue, Bool.not_true,
    Option.isSome_none, Bool.or_self, Bool.false_eq_true, if_false]
  rfl

/-- The drops that hear a SYNC are refreshed, and their records change alone. -/
theorem State.syncHeard_drops (s : State) (gs : List Nat) (seq : Byte) : Drops Drop.standing {g | g ∈ gs} s (s.syncHeard gs seq) ∧
    (tblRising s.drops = true → ∀ g ∈ gs, ((s.syncHeard gs seq).drop g).refreshTick = s.tick) := by
  have hthird := Drops.foldl (fun u g => Drops.takeThird u g (K := {g}) rfl) gs s
  have hcommit := fun u : State => Drops.foldl (fun w g => (refreshes_commit w g).1) gs u
  have hexpect := fun u : State => Drops.foldl (fun w g => Drops.expectCrcs w g seq (K := {g}) rfl) gs u
  refine ⟨((hthird.coarser Drop.standing_of_bare).trans (hcommit _)).trans ((hexpect _).coarser Drop.standing_of_bare), fun hd g hg => ?_⟩
  have hd' := (hthird.kept hd).1
  have hheard := refreshes_commit.foldl gs _ hd' g hg
  have hkept := ((hexpect _).kept ((hcommit _).kept hd').1).2 g
  unfold State.syncHeard
  rw [Drop.refreshTick_of_bare hkept, hheard]
  exact congrArg Timebase.tick (State.tb_of_dropless hthird.rest)

/-- The SYNC's words, beside the end of what the slot carried. -/
theorem State.syncSent_keeps (s : State) (i : Nat) (c2 : Bool) (seq : Byte) (n : Nat) (hs : tblRising s.segs = true) :
    (s.syncSent i c2 seq n).out = s.out ++ (if c2 && !(s.seg i).rate2 then [.colant i 2 [alignWord, alignWord]] else [])
        ++ [.colant i (if c2 then 2 else 1) (broadcast opSync [BitVec.ofNat 16 (seq.toNat * 256 + n / 65536), BitVec.ofNat 16 n])] ∧
      ((s.syncSent i c2 seq n).seg i).endNs = (s.seg i).endNs ∧ Wires {i} s (s.syncSent i c2 seq n) ∧ Stand s (s.syncSent i c2 seq n) ∧
      (s.syncSent i c2 seq n).tick = s.tick ∧ (∀ g, g ∉ s.runDrop i → (s.syncSent i c2 seq n).drop g = s.drop g) := by
  obtain ⟨a, ha⟩ := s.releaseWires_seg i hs
  have hreleased := Wires.releaseWires s i
  have hrising := hreleased.rising hs
  have hreldrops := State.drops_of_offWire (s.offWire_releaseWires i)
  have hseg : ((s.releaseWires i).dropRun i).seg i = { s.seg i with arb := a, run := none } := by
    rw [State.dropRun_seg _ i hrising, ha]
  have hout : ((s.releaseWires i).dropRun i).out = s.out := (s.releaseWires i).dropRun_out i
  have hsent := fun ws => State.offWire_sendWords ((s.releaseWires i).dropRun i) i c2 ws
  unfold State.syncSent
  refine ⟨?_, ?_, ?_, ?_, ?_, fun g hg => ?_⟩
  · rw [State.sendWords_out, broadcast_two, wireWords_unaligned _ _ _ _ _ sync_not_align, hout, hseg, List.append_assoc]
  · rw [State.sendWords_seg _ i c2 _ ((s.releaseWires i).dropRun_rising i hrising), hseg]
  · exact (hreleased.trans (Wires.dropRun _ i rfl)).trans (Wires.sendWords _ i _ _ rfl)
  · exact ((Stand.of_drops hreldrops).trans ((s.releaseWires i).dropRun_stand i)).trans (Stand.of_drops (State.drops_of_offWire (hsent _)))
  · have htb := (State.tb_of_aside ((s.releaseWires i).dropRun_aside i)).trans (State.tb_of_offWire (s.offWire_releaseWires i))
    exact congrArg Timebase.tick ((State.tb_of_offWire (hsent _)).trans htb)
  · have hrun : g ∉ (s.releaseWires i).runDrop i := by
      unfold State.runDrop
      rw [ha]
      exact hg
    rw [State.drop_of_drops (State.drops_of_offWire (hsent _)), State.dropRun_others _ i g hrun, State.drop_of_drops hreldrops]

theorem sync_launches (i : SegId) (s : State) (h : CycleRuns s i) (hs : tblRising s.segs = true) (hd : tblRising s.drops = true)
    (hfrozen : (s.seg i).frozen = false) (hnone : (s.seg i).syncNs = none) (hphase : s.boot.phase ≠ .service)
    (hwhen : s.syncFree i = true ∨ (s.cycS i ≤ s.offsetNow i ∧ s.offsetNow i ≤ s.cycS i + 6)) :
    let c2 := s.base2 i
    let n := s.countdown i c2
    ∃ t, exec (.sync i) s = .next t ∧ (t.seg i).seq = (s.seg i).seq + 1 ∧ (t.seg i).syncNs = some (s.seg i).endNs ∧ (t.seg i).syncC2 = c2 ∧
      t.out = s.out ++ (if c2 && !(s.seg i).rate2 then [.colant i 2 [alignWord, alignWord]] else [])
        ++ [.colant i (if c2 then 2 else 1)
             (broadcast opSync [BitVec.ofNat 16 (((s.seg i).seq + 1).toNat * 256 + n / 65536), BitVec.ofNat 16 n])] ∧
      (∀ g ∈ s.segDrops i, (t.drop g).refreshTick = s.tick) ∧
      (∀ g, g ∉ s.segDrops i → (∀ r, (s.seg i).run = some r → g ≠ i.val * 32 + r.drop) → t.drop g = s.drop g) ∧
      (∀ j, j ≠ i.val → t.seg j = s.seg j) := by
  intro c2 n
  have hexec := exec_sync_due i s h hfrozen hnone hphase hwhen
  obtain ⟨hout, hend, hwires, hstand, htick, hothers⟩ := s.syncSent_keeps i c2 ((s.seg i).seq + 1) n hs
  change exec (.sync i) s = .next (((s.syncSent i c2 ((s.seg i).seq + 1) n).syncHeard ((s.syncSent i c2 ((s.seg i).seq + 1) n).segDrops i)
    ((s.seg i).seq + 1)).syncCounted i (s.offsetNow i) c2 ((s.seg i).seq + 1)) at hexec
  generalize s.syncSent i c2 ((s.seg i).seq + 1) n = u at hexec hout hend hwires hstand htick hothers
  rw [hstand.segDrops hd] at hexec
  obtain ⟨hdrops, hheard⟩ := u.syncHeard_drops (s.segDrops i) ((s.seg i).seq + 1)
  generalize u.syncHeard (s.segDrops i) ((s.seg i).seq + 1) = w at hexec hdrops hheard
  have hrising : tblRising w.segs = true := by rw [hdrops.segs]; exact hwires.rising hs
  have hseg : (w.syncCounted i (s.offsetNow i) c2 ((s.seg i).seq + 1)).seg i = _ := w.seg_onSeg_same i _ hrising
  refine ⟨_, hexec, ?_, ?_, ?_, hdrops.out.trans hout, fun g hg => (hheard (hstand hd).1 g hg).trans htick, fun g hg hrun => ?_, fun j hj => ?_⟩
  · rw [hseg]
  · rw [hseg, hdrops.seg, hend]
  · rw [hseg]
  · refine (hdrops.others g hg).trans (hothers g ?_)
    rintro ⟨r, hr, hdrop⟩
    exact hrun r hr hdrop
  · exact ((w.seg_onSeg_other i j _ hj).trans (hdrops.seg j)).trans (hwires.others j fun hin => hj (Set.mem_singleton_iff.mp hin))

/-- Settles O30: the cycle's start, then each command of a running cycle. -/
theorem cyclesStartAndSendTheirWords : Obligations.CyclesStartAndSendTheirWords := by
  refine ⟨cycleStart_begins, fun i s hr hw hclk hstarted hret htx htenure => ?running⟩
  have h : CycleRuns s i := ⟨hw, hclk, hstarted, hret, htx, htenure⟩
  obtain ⟨-, hs, hd, -⟩ := hr
  refine ⟨linkHoldWindow_sends i s h hs hd, fun k e => whistle_opens i k s e h hs, fun k e hat hkind hbegun hbefore hshut => ?slot,
    sync_launches i s h hs hd⟩
  have hslot : SlotDue s i k e := ⟨hat, hkind, hbegun, hbefore, hshut⟩
  exact ⟨fun hidle => (exec_slotStart_due h hslot).trans (if_pos hidle), slotStart_picture h hslot hd hs, slotStart_control h hslot hs⟩

end Sys2Proof.Machine
end

section
/-! The ends of a Colant transaction (O28). -/

namespace Sys2Proof.Machine

open Sys2Proof

section
variable {i : SegId} {s : State} {x : Tx} (htx : (s.seg i).tx = some x) (a : ColAnswer)
include htx

/-- Words that begin outside the span where a header is accepted are none (R84). -/
theorem exec_colantResponse_outOfSpan (hspan : s.inSpan i x a.sinceNs = false) : exec (.colantResponse i a) s = .next s := by
  rw [exec_colantResponse, execColantResponse, htx]
  simp only [hspan, Bool.not_false, if_true]

/-- More BUSY words than 256 end the transaction without an answer (R84). -/
theorem exec_colantResponse_tooBusy (hspan : s.inSpan i x a.sinceNs = true)
    (hmany : 256 < x.busy + (a.words.takeWhile (isBusy x.drop)).length) :
    exec (.colantResponse i a) s = .next (s.finishTx i x 257 .silent) := by
  rw [exec_colantResponse, execColantResponse, htx]
  simp only [hspan, hmany, Bool.not_true, Bool.false_eq_true, if_false, if_true]

/-- BUSY words alone, up to 256 in all, keep the transaction and are counted (R84). -/
theorem exec_colantResponse_busy (hspan : s.inSpan i x a.sinceNs = true)
    (hfew : x.busy + (a.words.takeWhile (isBusy x.drop)).length ≤ 256) (hall : a.words.drop (a.words.takeWhile (isBusy x.drop)).length = []) :
    exec (.colantResponse i a) s =
      .next (s.onSeg i fun y => { y with tx := some { x with busy := x.busy + (a.words.takeWhile (isBusy x.drop)).length } }) := by
  rw [exec_colantResponse, execColantResponse, htx]
  simp only [hspan, Nat.not_lt.mpr hfew, hall, Bool.not_true, Bool.false_eq_true, if_false]

/-- What follows the BUSY words is judged, and ends the transaction (R83). -/
theorem exec_colantResponse_answer (hspan : s.inSpan i x a.sinceNs = true)
    (hfew : x.busy + (a.words.takeWhile (isBusy x.drop)).length ≤ 256) {w : ColWord} {ws : List ColWord}
    (hrest : a.words.drop (a.words.takeWhile (isBusy x.drop)).length = w :: ws) :
    exec (.colantResponse i a) s = .next (s.finishTx i x (x.busy + (a.words.takeWhile (isBusy x.drop)).length)
      (judge x.op x.drop (x.lens (w :: ws)) x.colant2 (w :: ws))) := by
  rw [exec_colantResponse, execColantResponse, htx]
  simp only [hspan, Nat.not_lt.mpr hfew, hrest, Bool.not_true, Bool.false_eq_true, if_false]

theorem exec_colantTimeout_eq : exec (.colantTimeout i) s =
    if s.past x.startTick (s.responseSpan i x) then .next (s.finishTx i x x.busy .silent) else .next s := by
  rw [exec_colantTimeout, execColantTimeout, htx]

end

/-- Settles O28: what begins outside the span is none; in it BUSY words are counted, and what follows them, or the span's end, ends the transaction. -/
theorem transactionsEnd : Obligations.TransactionsEnd := fun _ _ _ a htx =>
  ⟨exec_colantResponse_outOfSpan htx a,
    fun hspan => ⟨exec_colantResponse_tooBusy htx a hspan,
      fun hfew hall => exec_colantResponse_busy htx a hspan hfew (List.drop_of_length_le (Nat.le_of_eq hall.symm)),
      fun _ _ hfew hrest => exec_colantResponse_answer htx a hspan hfew hrest⟩,
    fun hpast => (exec_colantTimeout_eq htx).trans (if_pos hpast),
    fun hpast => (exec_colantTimeout_eq htx).trans (if_neg (Bool.eq_false_iff.mp hpast))⟩

end Sys2Proof.Machine
end

section
/-! Guest commands, what waiting guests get (O34), and guest tenures (O33). -/

namespace Sys2Proof.Machine

open Sys2Proof

/-! ### Guest commands as received (R76, R81, R86, R87) -/

/-- Words after a guest's header, with the CRC at Colant-2 rate. -/
def Tenure.wordsAfter (x : Tenure) (n : Nat) : Nat := n + b2n x.colant2

/-- The bit F stands on the last word and on no other (R76). -/
def lastMarked (ws : List ColWord) : Bool := ws.zipIdx.all fun y => y.1.f == (y.2 + 1 == ws.length)

/-- The CRC that ends a guest's words at Colant-2 rate is theirs (R81). -/
def Tenure.crcGood (x : Tenure) (ws : List ColWord) : Bool :=
  !x.colant2 || (ws.map ColWord.data).getLast?.getD 0 == crc16 (ws.map ColWord.data).dropLast

section
variable {i : SegId} {s : State} {x : Tenure} {h : ColWord} (rest : List ColWord)
  (htenure : (s.seg i).tenure = some x) (hopen : x.open s.tick = true) (hwait : x.wait = none) (hgood : goodWord h = true) (hc : h.c = true)
include htenure hopen hwait hgood hc

/-- A RETURN header ends the guest's use of its tenure. -/
theorem exec_guestCommand_return (hop : headOp h.data = opReturn) : exec (.guestCommand i (h :: rest)) s = .next (s.returnTenure i) := by
  rw [exec_guestCommand]
  unfold execGuestCommand
  simp only [htenure, hopen, hwait, hgood, hc, hop, Bool.not_true, Option.isSome_none, Bool.or_self, Bool.false_eq_true, if_false, if_true]

variable {n : Nat} (hop : headOp h.data ≠ opReturn) (hlen : guestLen (headOp h.data) (headParam h.data) = some n)
include hop hlen

/-- Another command's words: parity is judged first, then the length, then the CRC; good ones are acted on. -/
theorem exec_guestCommand_judged : exec (.guestCommand i (h :: rest)) s =
    if rest.all goodWord = false then .next ((s.nakGuest i x 0x01).countError 3 i)
    else if rest.length ≠ x.wordsAfter n ∨ lastMarked (h :: rest) = false then .next (s.nakGuest i x 0x05)
    else if x.crcGood (h :: rest) = false then .next (s.nakGuest i x 0x02)
    else .next (s.guestAct i x (headOp h.data) (headDrop h.data)
      (((rest.map ColWord.data).getD 0 0).toNat % 256 * 65536 + ((rest.map ColWord.data).getD 1 0).toNat)
      (if headOp h.data = opRdb ∨ headOp h.data = opWrb then headParam h.data + 1 else 1)
      (((rest.map ColWord.data).drop 2).take (if headOp h.data = opRdb ∨ headOp h.data = opWrb then headParam h.data + 1 else 1))) := by
  have hformat : (!lastMarked (h :: rest) || decide (rest.length ≠ n + b2n x.colant2)) =
      decide (rest.length ≠ x.wordsAfter n ∨ lastMarked (h :: rest) = false) := by
    rw [Bool.eq_iff_iff, Bool.or_eq_true, Bool.not_eq_true', decide_eq_true_iff, decide_eq_true_iff, or_comm]
    rfl
  have hcrc : (x.colant2 && ((h :: rest).map ColWord.data).getLast?.getD 0 != crc16 ((h :: rest).map ColWord.data).dropLast) = !x.crcGood (h :: rest) := by
    unfold Tenure.crcGood
    cases x.colant2 <;> simp [bne]
  rw [exec_guestCommand]
  unfold execGuestCommand
  unfold lastMarked at hformat
  simp only [htenure, hopen, hwait, hgood, hc, hop, hlen, hformat, hcrc, Bool.not_true, Option.isSome_none, Bool.or_self, Bool.false_eq_true, if_false,
    Bool.not_eq_true', decide_eq_true_eq, lastMarked]
  rfl

end

/-! ### What waiting guests get (R203, R207–R210) -/

section
variable {i : SegId} {s : State} {p : Nat} {d : DmaRead} (hread : s.guestRead i = some (p, d))
include hread

/-- A result that cannot end the oldest request changes nothing. -/
theorem exec_guestReadCompletion_ignored {y : ReadResult} (hends : s.endsWith d y = false) : exec (.guestReadCompletion i y) s = .next s := by
  rw [exec_guestReadCompletion]
  unfold execGuestReadCompletion
  simp only [hread, hends, Bool.not_false, if_true]

variable {y : ReadResult} {x : Tenure} {c : GuestCmd} (hends : s.endsWith d y = true) (hwaits : s.guestWaits i d.read = some (x, c))
include hends hwaits

/-- A request of the awaited read has ended, and others of it have not. -/
theorem exec_guestReadCompletion_more (hmore : (s.endRequest d y).2 = none) :
    exec (.guestReadCompletion i y) s = .next ((s.endRequest d y).1.readFailed p y) := by
  rw [exec_guestReadCompletion]
  unfold execGuestReadCompletion
  simp only [hread, hends, hwaits, hmore, Bool.not_true, Bool.false_eq_true, if_false, Option.map_none, Option.getD_none, Option.isSome_none]

/-- With the last request the guest is answered, and what waits for the entry or the semaphore goes on. -/
theorem exec_guestReadCompletion_last {z : ReadResult} (hlast : (s.endRequest d y).2 = some z) :
    exec (.guestReadCompletion i y) s =
      .next (((((s.endRequest d y).1.readFailed p y).answerRead i x c z).resumeRoom p).grantSem p) := by
  rw [exec_guestReadCompletion]
  unfold execGuestReadCompletion
  simp only [hread, hends, hwaits, hlast, Bool.not_true, Bool.false_eq_true, if_false, Option.map_some, Option.getD_some, Option.isSome_some,
    if_true]

end

theorem State.answerRead_data (s : State) (i : Nat) (x : Tenure) {c : GuestCmd} (bytes : List Byte) (hpass : c.refused = false) :
    s.answerRead i x c (.data bytes) = s.answerGuest i x opRdata 0 (c.words bytes) := by
  simp only [State.answerRead, hpass, Bool.false_eq_true, if_false]

section
variable {i : SegId} {s : State} {x : Tenure} {c : GuestCmd} (htenure : (s.seg i).tenure = some x)
include htenure

/-- A guest that waits for a read or an entry is answered NAK TIMEOUT once its window's ceiling has passed. -/
theorem exec_holdCeiling_read (hwait : x.wait = some (.posted c) ∨ x.wait = some (.room c) ∨ ∃ id, x.wait = some (.read c id)) :
    exec (.holdCeiling i) s = if s.past c.arrival (c.hold * 10) then .next (s.nakGuest i x 0x10) else .next s := by
  rw [exec_holdCeiling]
  unfold execHoldCeiling
  rcases hwait with hwait | hwait | ⟨id, hwait⟩ <;> simp only [htenure, hwait]

/-- One that waits for the semaphore waits for it no more, and is answered NAK. -/
theorem exec_holdCeiling_semaphore (hwait : x.wait = some (.semaphore c)) (hpast : s.past c.arrival (c.hold * 10) = true) :
    exec (.holdCeiling i) s =
      .next ((s.onBridge x.part fun b => { b with semWaiting := b.semWaiting.filter (· != .guest i) }).nakGuest i x 0x04) := by
  rw [exec_holdCeiling]
  unfold execHoldCeiling
  simp only [htenure, hwait, hpast, if_true]

end

/-- The oldest posted guest write of partition p leaves, and its entry is free. -/
def State.postSent (s : State) (p : Nat) (g : GuestPost) (rest : List GuestPost) : State :=
  ((s.onBridge p fun b => { b with guestPosted := rest }).sendPost p g).grantSem p

section
variable {i : SegId} {s : State} {p : Nat} {g : GuestPost} {rest : List GuestPost} (howner : s.postOwner i = some p)
  (hposted : (s.bridge p).guestPosted = g :: rest)
include howner hposted

theorem exec_guestPostedEntry_leaves (hnone : (s.postSent p g rest).waitingPost p = none) :
    exec (.guestPostedEntry i) s = .next (s.postSent p g rest) := by
  rw [exec_guestPostedEntry]
  unfold execGuestPostedEntry
  unfold State.postSent at hnone ⊢
  simp only [howner, hposted, hnone]

/-- A guest write that waits takes the free entry (R208). -/
theorem exec_guestPostedEntry_accepts {k : Nat} {x : Tenure} {c : GuestCmd} (hwaits : (s.postSent p g rest).waitingPost p = some (k, x, c))
    (hroom : ((s.postSent p g rest).bridge p).postRoom = true) :
    exec (.guestPostedEntry i) s = .next ((s.postSent p g rest).acceptGuest k x c) := by
  rw [exec_guestPostedEntry]
  unfold execGuestPostedEntry
  unfold State.postSent at hwaits hroom ⊢
  simp only [howner, hposted, hwaits, hroom, if_true]

end

/-- Settles O34: a command's words by the order of their checks; each waiting guest by what its read, its ceiling or its entry brings. -/
theorem guestCommandsAreJudgedAndAnswered : Obligations.GuestCommandsAreJudgedAndAnswered := by
  refine ⟨fun i s x h rest n htenure hopen hwait hgood hc => ⟨exec_guestCommand_return rest htenure hopen hwait hgood hc, fun hop hlen => ?judged⟩,
    fun i s x c htenure => ⟨fun p d hread hwaits => ?read, fun id hwait hearly => ?early, fun hwait hpast => ?ceiling, fun hwait hpast => ?semaphore⟩,
    fun i s p g rest howner hposted => ⟨exec_guestPostedEntry_leaves howner hposted, fun k x c => exec_guestPostedEntry_accepts howner hposted⟩⟩
  case judged =>
    have hexec := exec_guestCommand_judged rest htenure hopen hwait hgood hc hop hlen
    have hparity : rest.all goodWord = true → ¬ rest.all goodWord = false := fun h => by simp [h]
    have hformat : rest.length = x.wordsAfter n → lastMarked (h :: rest) = true →
        ¬ (rest.length ≠ x.wordsAfter n ∨ lastMarked (h :: rest) = false) := fun hfull hf hbad => by simp [hfull, hf] at hbad
    refine ⟨fun hbad => hexec.trans (if_pos hbad), fun hall hbad => ?_, fun hall hfull hf hcrc => ?_, fun hall hfull hf hcrc => ?_⟩
    · exact hexec.trans ((if_neg (hparity hall)).trans (if_pos hbad))
    · exact hexec.trans ((if_neg (hparity hall)).trans ((if_neg (hformat hfull hf)).trans (if_pos hcrc)))
    · have hcrc' : ¬ x.crcGood (h :: rest) = false := fun hbad => Bool.false_ne_true (hbad.symm.trans hcrc)
      exact hexec.trans ((if_neg (hparity hall)).trans ((if_neg (hformat hfull hf)).trans (if_neg hcrc')))
  case read =>
    refine ⟨fun y hends => ⟨exec_guestReadCompletion_more hread hends hwaits, fun bytes hlast hpass => ?_, fun hlast => ?_, fun hlast => ?_⟩,
      fun y => exec_guestReadCompletion_ignored hread⟩
    · rw [exec_guestReadCompletion_last hread hends hwaits hlast, State.answerRead_data _ i x bytes hpass]
    · rcases hlast with hlast | hlast <;> rw [exec_guestReadCompletion_last hread hends hwaits hlast] <;> rfl
    · rcases hlast with hlast | hlast <;> rw [exec_guestReadCompletion_last hread hends hwaits hlast] <;> rfl
  case early =>
    have hnot : s.past c.arrival (c.hold * 10) = false := decide_eq_false (Nat.not_le.mpr hearly)
    rw [exec_holdCeiling_read htenure (.inr (.inr ⟨id, hwait⟩)), hnot]
    rfl
  case ceiling => rw [exec_holdCeiling_read htenure hwait, if_pos ((s.past_iff _ _).mpr hpast)]
  case semaphore => exact exec_holdCeiling_semaphore htenure hwait ((s.past_iff _ _).mpr hpast)

/-! ### Tenures (R104, R226) -/

/-- The guest slot k's region opens on wires that are left to it. -/
def State.guestOpened (s : State) (i k : Nat) : State := ((s.releaseWires i).dropRun i).onSeg i fun x => { x with region := .slot k }

/-- Words of a guest slot that a link-hold window before its GRANT has taken (R235, log entry 135). -/
def State.lateWords (s : State) (i : Nat) (e : Slot) : Nat := if e.start + 72 ≤ s.offsetNow i then (if e.rate == 1 then 72 else 36) else 0

/-- Words that a GRANT grants: the slot's length without a late start's and the GRANT's own. -/
def State.grantWords (s : State) (i : Nat) (e : Slot) : Nat := e.len - s.lateWords i e - (if e.rate == 1 then 3 else 2)

/-- The GRANT goes out to drop g. -/
def State.grantSent (s : State) (i g n : Nat) (e : Slot) : State :=
  (s.refreshed g).sendWords i (e.rate == 1) (message [header opGrant e.drop (n / 65536), BitVec.ofNat 16 n] (e.rate == 1))

/-- The tenure of n words that a slot's GRANT begins, late words of it gone, its count from the GRANT's end on. -/
def grantedTenure (e : Slot) (tick late n : Nat) : Tenure :=
  { drop := e.drop, part := e.part, colant2 := e.rate == 1, words := n, returned := false, frozen := false, wait := none,
    startTick := tick + ceilDiv ((e.len - late - n) * (if e.rate == 1 then 25 else 50)) 30 }

theorem State.guestOpened_keeps (s : State) (i k : Nat) (hs : tblRising s.segs = true) :
    ((s.guestOpened i k).seg i).region = .slot k ∧ tblRising (s.guestOpened i k).segs = true ∧ Stand s (s.guestOpened i k) ∧
      (s.guestOpened i k).tick = s.tick := by
  have hreleased := (Wires.releaseWires s i).rising hs
  have hdropped := (s.releaseWires i).dropRun_rising i hreleased
  refine ⟨?_, tblRising_set _ _ _ _ hdropped, ?_, ?_⟩
  · unfold State.guestOpened
    rw [State.seg_onSeg_same _ i _ hdropped]
  · exact (Stand.of_drops (State.drops_of_offWire (s.offWire_releaseWires i))).trans ((s.releaseWires i).dropRun_stand i)
  · have htb := (State.tb_of_aside ((s.releaseWires i).dropRun_aside i)).trans (State.tb_of_offWire (s.offWire_releaseWires i))
    exact congrArg Timebase.tick htb

theorem State.grantSent_keeps (s : State) (i g n : Nat) (e : Slot) (hs : tblRising s.segs = true) :
    ((s.grantSent i g n e).seg i).region = (s.seg i).region ∧ tblRising (s.grantSent i g n e).segs = true ∧ (s.grantSent i g n e).tick = s.tick := by
  have hseg : (s.refreshed g).seg i = s.seg i := (Drops.refreshed s g (K := {g}) rfl).seg i
  unfold State.grantSent
  have htb := State.tb_of_offWire ((s.refreshed g).offWire_sendWords i (e.rate == 1)
    (message [header opGrant e.drop (n / 65536), BitVec.ofNat 16 n] (e.rate == 1)))
  refine ⟨?_, State.sendWords_rising _ i _ _ hs, congrArg Timebase.tick htb⟩
  rw [State.sendWords_seg (s.refreshed g) i _ _ hs, hseg]

/-- GRANT at a guest slot that carries its traffic, in a running cycle. -/
theorem exec_grant_due (i : SegId) (k : CalIndex) (s : State) (e : Slot) (h : CycleRuns s i) (hs : tblRising s.segs = true)
    (hd : tblRising s.drops = true) (hshut : (s.seg i).region ≠ .slot k) (hat : s.slotAt i k = some e) (hkind : e.kind = 4)
    (hbegun : e.start ≤ s.offsetNow i) (hbefore : s.offsetNow i < e.finish) (hbusy : s.slotIdle i e = false) (hfrozen : (s.seg i).frozen = false)
    (hfreeze : (s.seg i).arb.freeze = false) (hstate : (s.drop (i.val * 32 + e.drop)).state ≠ .retired)
    (hnego : (s.drop (i.val * 32 + e.drop)).negoFail = none) (hwords : s.wordsOut i = false) (hfirst : (s.windowFirst i e && s.holdRoom i) = false) :
    exec (.grant i k) s = .next (((s.guestOpened i k).grantSent i (i.val * 32 + e.drop) (s.grantWords i e) e).onSeg i fun x =>
      { x with tenure := some (grantedTenure e ((s.guestOpened i k).grantSent i (i.val * 32 + e.drop) (s.grantWords i e) e).tick
                 (s.lateWords i e) (s.grantWords i e)) }) := by
  obtain ⟨-, -, hstand, -⟩ := s.guestOpened_keeps i k hs
  have hretired : (((s.guestOpened i k).drop (i.val * 32 + e.drop)).state == .retired) = false :=
    (hstand.retired hd _).trans (beq_eq_false_iff_ne.mpr hstate)
  have hfail : ((s.guestOpened i k).drop (i.val * 32 + e.drop)).negoFail.isSome = false := by rw [hstand.negoFail hd, hnego]; rfl
  have hregion : ((s.seg i).region == .slot k) = false := beq_eq_false_iff_ne.mpr hshut
  unfold State.guestOpened at hretired hfail
  rw [exec_grant]
  unfold execGrant
  simp only [s.settleWhistle_none i h.noWhistle, hat, h.clk, h.started, h.inService, h.noTx, h.noTenure, hregion, hkind, hbusy, hfrozen, hfreeze,
    hretired, hfail, hwords, hfirst, Nat.not_lt.mpr hbegun, Nat.not_le.mpr hbefore, decide_false, Bool.not_true, Option.isSome_none, ne_eq,
    not_true_eq_false, Bool.or_self, Bool.false_eq_true, if_false]
  rfl

theorem State.settleWhistle_seg (s : State) (i : Nat) (hs : tblRising s.segs = true) :
    ∃ w b c, (s.settleWhistle i).seg i = { s.seg i with whistleEnd := w, freezeAgain := b, rate2 := c } := by
  unfold State.settleWhistle
  dsimp only
  split
  · split
    · exact ⟨_, _, _, rfl⟩
    · obtain ⟨b, hb⟩ := s.closeWhistle_seg i hs
      exact ⟨_, _, _, hb⟩
  · exact ⟨_, _, _, rfl⟩

theorem State.dropTenure_seg (s : State) (i : Nat) (hs : tblRising s.segs = true) : (s.dropTenure i).seg i = { s.seg i with tenure := none } := by
  unfold State.dropTenure
  cases htenure : (s.seg i).tenure with
  | none => simp only [← htenure]
  | some x =>
    have hseg := s.seg_onSeg_same i (fun y => { y with tenure := none }) hs
    exact hseg

/-- The end of a tenure leaves open time without one. -/
theorem State.closeTenure_seg (s : State) (i : Nat) (hs : tblRising s.segs = true) :
    ((s.closeTenure i).seg i).tenure = none ∧ ((s.closeTenure i).seg i).region = .openTime := by
  have hdropped := (Wires.dropTenure s i (k := {i}) rfl).rising hs
  have hopened : tblRising ((s.dropTenure i).onSeg i fun x => { x with region := .openTime }).segs = true := tblRising_set _ _ _ _ hdropped
  obtain ⟨w, b, c, hseg⟩ := State.settleWhistle_seg _ i hopened
  have hrising := (Wires.settleWhistle ((s.dropTenure i).onSeg i fun x => { x with region := .openTime }) i (k := {i}) rfl).rising hopened
  rw [State.seg_onSeg_same _ i _ hdropped, s.dropTenure_seg i hs] at hseg
  unfold State.closeTenure
  generalize ((s.dropTenure i).onSeg i fun x => { x with region := .openTime }).settleWhistle i = u at hseg hrising
  dsimp only
  split
  · rw [hseg]
    exact ⟨rfl, rfl⟩
  · rw [State.seg_onSeg_same _ i _ (u.sendWords_rising i _ _ hrising), u.sendWords_seg i _ _ hrising, hseg]
    exact ⟨rfl, rfl⟩

/-- Settles O33: the GRANT's words and its segment after them, RETURN, and the end of the count. -/
theorem tenuresAreGrantedReturnedAndEnded : Obligations.TenuresAreGrantedReturnedAndEnded := by
  rintro i s ⟨-, hs, hd, -⟩
  refine ⟨fun k e hw hclk hstarted hret htx htenure hshut hat hkind hbegun hbefore hbusy hfrozen hfreeze hstate hnego hwords hfirst => ?grant,
    fun x htenure hopen hwait => ?returns, fun x htenure hover => ?ends⟩
  case grant =>
    obtain ⟨hregion, hrising, -, htick⟩ := s.guestOpened_keeps i k hs
    obtain ⟨hregion', hrising', htick'⟩ := (s.guestOpened i k).grantSent_keeps i (i.val * 32 + e.drop) (s.grantWords i e) e hrising
    refine ⟨_, exec_grant_due i k s e ⟨hw, hclk, hstarted, hret, htx, htenure⟩ hs hd hshut hat hkind hbegun hbefore hbusy hfrozen hfreeze hstate
      hnego hwords hfirst, ?_⟩
    rw [State.seg_onSeg_same _ i _ hrising', htick', htick]
    exact ⟨hregion'.trans hregion, rfl⟩
  case returns =>
    rw [exec_guestReturn]
    unfold execGuestReturn
    simp only [htenure, hopen, hwait, Option.isNone_none, Bool.and_self, if_true]
    rfl
  case ends =>
    refine ⟨s.closeTenure i, ?_, s.closeTenure_seg i hs⟩
    rw [exec_tenureEnd]
    unfold execTenureEnd
    simp only [htenure, Nat.not_lt.mpr hover, if_false]

end Sys2Proof.Machine
end

section
/-! What operations on drops and their segments keep: time, map and limits, the bearing of segments, and of drops' records what a view shows
(R88, R112–R115, R205, R453). -/

namespace Sys2Proof.Machine

open Sys2Proof

/-! ### The relation -/

/-- Time, the map, the windows of drops and segments, and the entries of bank pair 10. -/
def State.ground (s : State) := (s.tb, s.map, s.flt.winDrop, s.flt.winSeg, (s.pair 10).active)

/-- How a segment stands: its clock, whether it is enumerated or to be reset, the transaction on its wires, its conflicts. -/
structure Bearing where
  clk : Bool
  enumerated : Bool
  resetDue : Bool
  tx : Option Tx
  conflict : W32

def Segment.bearing (x : Segment) : Bearing := ⟨x.clk, x.enumerated, x.resetDue, x.tx, x.conflict⟩

variable {β γ : Type}

/-- From s to t the ground stays, what has been sent stays sent, w shows each segment's bearing as it was, and v each record of a drop outside K. -/
structure Keeps (v : Drop → β) (K : Set Nat) (w : Bearing → γ) (s t : State) : Prop where
  ground : t.ground = s.ground
  out : s.out <+: t.out
  drops : tblRising s.drops = true → tblRising t.drops = true ∧ ∀ g, g ∉ K → v (t.drop g) = v (s.drop g)
  segs : tblRising s.segs = true → tblRising t.segs = true ∧ ∀ i, w (t.seg i).bearing = w (s.seg i).bearing

variable {v : Drop → β} {K : Set Nat} {w : Bearing → γ} {s t u : State}

namespace Keeps

theorem refl (s : State) : Keeps v K w s s := ⟨rfl, List.prefix_refl _, fun h => ⟨h, fun _ _ => rfl⟩, fun h => ⟨h, fun _ => rfl⟩⟩

theorem trans (h : Keeps v K w s t) (k : Keeps v K w t u) : Keeps v K w s u where
  ground := k.ground.trans h.ground
  out := h.out.trans k.out
  drops := fun hs => ⟨(k.drops (h.drops hs).1).1, fun g hg => ((k.drops (h.drops hs).1).2 g hg).trans ((h.drops hs).2 g hg)⟩
  segs := fun hs => ⟨(k.segs (h.segs hs).1).1, fun i => ((k.segs (h.segs hs).1).2 i).trans ((h.segs hs).2 i)⟩

theorem tick (h : Keeps v K w s t) : t.tick = s.tick := congrArg (fun x => Timebase.tick x.1) h.ground

theorem map (h : Keeps v K w s t) : t.map = s.map := congrArg (fun x => x.2.1) h.ground

theorem winDrop (h : Keeps v K w s t) : t.flt.winDrop = s.flt.winDrop := congrArg (fun x => x.2.2.1) h.ground

theorem winSeg (h : Keeps v K w s t) : t.flt.winSeg = s.flt.winSeg := congrArg (fun x => x.2.2.2.1) h.ground

theorem active (h : Keeps v K w s t) : (t.pair 10).active = (s.pair 10).active := congrArg (fun x => x.2.2.2.2) h.ground

/-! ### Steps of the state's own -/

/-- A change of neither drops nor segments. -/
theorem aside (h : Keeps v K w s t) (hground : u.ground = t.ground) (hdrops : u.drops = t.drops) (hsegs : u.segs = t.segs)
    (hout : t.out <+: u.out) : Keeps v K w s u where
  ground := hground.trans h.ground
  out := h.out.trans hout
  drops := fun hs => by
    obtain ⟨hrising, hview⟩ := h.drops hs
    exact ⟨hdrops ▸ hrising, fun g hg => by rw [State.drop_of_drops hdrops, hview g hg]⟩
  segs := fun hs => by
    obtain ⟨hrising, hview⟩ := h.segs hs
    exact ⟨hsegs ▸ hrising, fun i => by rw [State.seg_of_segs hsegs, hview i]⟩

theorem ite {c : Prop} [Decidable c] (ht : Keeps v K w s t) (hu : Keeps v K w s u) : Keeps v K w s (if c then t else u) := by
  split
  · exact ht
  · exact hu

theorem foldl {α : Type} {f : State → α → State} {l : List α} (h : Keeps v K w s t)
    (hf : ∀ u x, x ∈ l → Keeps v K w s u → Keeps v K w s (f u x)) : Keeps v K w s (l.foldl f t) := by
  induction l generalizing t with
  | nil => exact h
  | cons x l ih => exact ih (hf t x List.mem_cons_self h) fun u y hy => hf u y (List.mem_cons_of_mem x hy)

theorem onDrop (h : Keeps v K w s t) {g : Nat} {f : Drop → Drop} (hf : g ∉ K → v (f (t.drop g)) = v (t.drop g)) :
    Keeps v K w s (t.onDrop g f) :=
  h.trans ⟨rfl, List.prefix_refl _, fun ht => ⟨t.rising_onDrop g f ht, fun k hk => by
    by_cases hkg : k = g
    · subst hkg
      rw [t.drop_onDrop_same k f ht, hf hk]
    · rw [t.drop_onDrop_other g k f hkg]⟩, fun ht => ⟨ht, fun _ => rfl⟩⟩

theorem onSeg (h : Keeps v K w s t) {i : Nat} {f : Segment → Segment} (hf : ∀ x, w (f x).bearing = w x.bearing := by exact fun _ => rfl) :
    Keeps v K w s (t.onSeg i f) :=
  h.trans ⟨rfl, List.prefix_refl _, fun ht => ⟨ht, fun _ _ => rfl⟩, fun ht => ⟨tblRising_set _ _ _ _ ht, fun k => by
    by_cases hki : k = i
    · subst hki
      rw [t.seg_onSeg_same k f ht, hf]
    · rw [t.seg_onSeg_other i k f hki]⟩⟩

theorem onPart (h : Keeps v K w s t) {p : Nat} {f : Partition → Partition} : Keeps v K w s (t.onPart p f) :=
  h.aside rfl rfl rfl (List.prefix_refl _)

theorem onBridge (h : Keeps v K w s t) {p : Nat} {f : Bridge → Bridge} : Keeps v K w s (t.onBridge p f) := h.onPart

theorem onPlant (h : Keeps v K w s t) {f : Plant → Plant} : Keeps v K w s (t.onPlant f) := h.aside rfl rfl rfl (List.prefix_refl _)

theorem onFlt (h : Keeps v K w s t) {f : Flt → Flt} (hdrop : (f t.flt).winDrop = t.flt.winDrop := by rfl)
    (hseg : (f t.flt).winSeg = t.flt.winSeg := by rfl) : Keeps v K w s (t.onFlt f) := by
  refine h.aside ?_ rfl rfl (List.prefix_refl _)
  show (t.tb, t.map, (f t.flt).winDrop, (f t.flt).winSeg, (t.pair 10).active) = t.ground
  rw [hdrop, hseg]
  rfl

theorem setFault (h : Keeps v K w s t) {i : Nat} {x : FaultRec} : Keeps v K w s (t.setFault i x) := by
  unfold State.setFault
  exact h.onFlt

theorem setLive (h : Keeps v K w s t) {i : Nat} {b : Bool} : Keeps v K w s (t.setLive i b) := h.setFault

theorem traceRec (h : Keeps v K w s t) {l : LogRec} : Keeps v K w s (t.traceRec l) := by
  unfold State.traceRec
  exact h.onFlt

theorem storeRec (h : Keeps v K w s t) {l : LogRec} : Keeps v K w s (t.storeRec l) := by
  unfold State.storeRec
  exact ite h h.onFlt

theorem emit (h : Keeps v K w s t) {o : Output} : Keeps v K w s (t.emit o) := by
  unfold State.emit
  dsimp only
  split
  · exact h.aside rfl rfl rfl (List.prefix_append _ _)
  · exact h.aside rfl rfl rfl (List.prefix_append _ _)

theorem fairly (h : Keeps v K w s t) (k : Keeps v K w s u) : Keeps v K w s (t.fairly u) := by
  rcases t.fairly_eq u with heq | ⟨l, heq⟩ <;> rw [heq]
  · exact k
  · exact { k with ground := k.ground, out := h.out.trans (List.prefix_append _ _) }

/-! ### Records and doorbells (R403, R440–R463) -/

section
variable {ring : Ringer} (hring : ∀ u b, Keeps v K w s u → Keeps v K w s (ring u b)) (h : Keeps v K w s t)
include hring h

theorem putLog {p : Nat} {l : LogRec} : Keeps v K w s (t.putLog ring p l) := by
  unfold State.putLog State.writeLog
  exact ite (hring _ _ h.onPart.emit) h.onPart

theorem putGap {p : Nat} : Keeps v K w s (t.putGap ring p) := by
  unfold State.putGap
  exact ite h (h.onPart.putLog hring)

theorem logTo {l : LogRec} {p : Nat} : Keeps v K w s (t.logTo ring l p) := by
  have hgap := h.putGap (p := p) hring
  unfold State.logTo
  exact ite (hgap.putLog hring) hgap.onPart

theorem decideBy {l : LogRec} {ps : List Nat} : Keeps v K w s (t.decideBy ring l ps) :=
  h.fairly (h.foldl fun _ _ _ hu => hu.logTo hring)

theorem endIntervalBy {cls i : Nat} : Keeps v K w s (t.endIntervalBy ring cls i) := by
  unfold State.endIntervalBy
  dsimp only
  split
  · exact h
  · exact ite h (ite h.onFlt (h.decideBy hring).onFlt)

theorem occurBy {type cls i : Nat} {detail : W32} {window : Nat} {ps : List Nat} :
    Keeps v K w s (t.occurBy ring type cls i detail window ps) := by
  have htraced := fun l => (h.endIntervalBy (cls := cls) (i := i) hring).traceRec (l := l)
  unfold State.occurBy
  dsimp only
  split
  · exact (htraced _).onFlt
  · exact ((htraced _).decideBy hring).onFlt

theorem stickBy {i : Nat} {detail : W32} : Keeps v K w s (t.stickBy ring i detail) := by
  have hset := fun x => h.setFault (i := i) (x := x)
  have hsignalled := fun x (ks ps : List Nat) => (((hset x).foldl (l := ks) (f := fun u k => u.ringVendor ring k)
    fun _ _ _ hu => hu.foldl fun _ _ _ hu => hring _ _ hu).foldl (l := ps) (f := fun u p => ring u (.shared (2816 + 32 * p + 19)))
    fun _ _ _ hu => hring _ _ hu)
  unfold State.stickBy
  exact ite (hset _) (ite (hring _ _ (hsignalled _ _ _)) (hsignalled _ _ _))

theorem raiseBy {i : Nat} {detail : W32} : Keeps v K w s (t.raiseBy ring i detail) := by
  have hoccurred := fun l => (h.stickBy (i := i) (detail := detail) hring).occurBy
    (type := 1) (cls := 0) (i := i) (detail := detail) (window := 0) (ps := l) hring
  unfold State.raiseBy
  exact ite (hoccurred _).storeRec (hoccurred _)

end

theorem capture (h : Keeps v K w s t) {split level : Bool} {k : AccKind} {space req addr : Nat} :
    Keeps v K w s (t.capture 10 split level k space req addr).1 := by
  obtain ⟨c, heq, hvalid⟩ := t.capture_pair 10 split level k space req addr
  have hne : ({ t.pair 10 with cap := c (t.pair 10) } : BankPair) ≠ {} := fun hdefault => by
    have hcap : c (t.pair 10) = {} := congrArg BankPair.cap hdefault
    rw [hcap] at hvalid
    cases hvalid
  have hpair : (t.onPair 10 fun b => { b with cap := c b }).pair 10 = { t.pair 10 with cap := c (t.pair 10) } := tblGet_set_ne _ _ _ _ hne
  rw [heq]
  refine h.aside ?_ rfl rfl (List.prefix_refl _)
  unfold State.ground
  rw [hpair]
  rfl

theorem bell (h : Keeps v K w s t) {b : Bell} : Keeps v K w s (t.bell b) := by
  have hcounted : ∀ u b, Keeps v K w s u → Keeps v K w s (State.countBell u b) := fun _ _ hu => hu.capture
  unfold State.bell State.refuseBell
  refine ite ?_ (ite (h.capture.setLive.raiseBy hcounted) h.capture)
  rw [t.strike_eq b]
  exact h.aside rfl rfl rfl (List.prefix_refl _)

theorem signal (h : Keeps v K w s t) {n : Nat} : Keeps v K w s (t.signal n) := h.bell

theorem signalSeg (h : Keeps v K w s t) {i k : Nat} : Keeps v K w s (t.signalSeg i k) := h.bell

theorem signalUnit (h : Keeps v K w s t) {p k : Nat} : Keeps v K w s (t.signalUnit p k) := h.bell

theorem decideRec (h : Keeps v K w s t) {l : LogRec} {ps : List Nat} : Keeps v K w s (t.decideRec l ps) := h.decideBy fun _ _ hu => hu.bell

theorem raise (h : Keeps v K w s t) {i : Nat} {detail : W32} : Keeps v K w s (t.raise i detail) := h.raiseBy fun _ _ hu => hu.bell

theorem stick (h : Keeps v K w s t) {i : Nat} {detail : W32} : Keeps v K w s (t.stick i detail) := h.stickBy fun _ _ hu => hu.bell

theorem occur (h : Keeps v K w s t) {type cls i : Nat} {detail : W32} {window : Nat} {ps : List Nat} :
    Keeps v K w s (t.occur type cls i detail window ps) := h.occurBy fun _ _ hu => hu.bell

theorem noteError (h : Keeps v K w s t) {cls i : Nat} : Keeps v K w s (t.noteError cls i) := by
  unfold State.noteError State.addError
  exact h.onFlt.occur

theorem occurRetire (h : Keeps v K w s t) {i : Nat} {detail : W32} {window : Nat} : Keeps v K w s (t.occurRetire i detail window) := by
  have hended : Keeps v K w s (t.endInterval 0 i) := h.endIntervalBy fun _ _ hu => hu.bell
  unfold State.occurRetire
  dsimp only
  refine hended.traceRec.storeRec.decideRec.onFlt ?_ ?_ <;> split <;> rfl

/-- Where no threshold of drops is set, an error of a drop is only counted (R451). -/
theorem countDrop (h : Keeps v K w s t) (hthresh : s.flt.winDrop.thresh = 0) {g : Nat} : Keeps v K w s (t.countError 4 g) := by
  have hnoted := h.noteError (cls := 4) (i := g)
  have hzero : ((t.noteError 4 g).flt.winCfg 4).thresh = 0 := (congrArg WinCfg.thresh hnoted.winDrop).trans hthresh
  unfold State.countError
  simp only [hzero, ne_eq, not_true_eq_false, false_and, if_false]
  exact hnoted

theorem countSeg (h : Keeps v K w s t) (hthresh : s.flt.winSeg.thresh = 0) {i : Nat} : Keeps v K w s (t.countError 3 i) := by
  have hnoted := h.noteError (cls := 3) (i := i)
  have hzero : ((t.noteError 3 i).flt.winCfg 3).thresh = 0 := (congrArg WinCfg.thresh hnoted.winSeg).trans hthresh
  unfold State.countError
  simp only [hzero, ne_eq, not_true_eq_false, false_and, if_false]
  exact hnoted

theorem updateTakeover (h : Keeps v K w s t) : Keeps v K w s t.updateTakeover := by
  unfold State.updateTakeover
  refine h.foldl fun u c _ hu => ite hu ?_
  have hcust : ∀ x, Keeps v K w s (u.onCust c fun y => { y with takeover := x }) := fun x => hu.aside rfl rfl rfl (List.prefix_refl _)
  exact ((hcust _).foldl fun _ _ _ h => h.bell).foldl fun _ _ _ h => h.bell

/-! ### Words on the wires (R75, R95) -/

theorem sendWords (h : Keeps v K w s t) {i : Nat} {c2 : Bool} {ws : List ColWord} : Keeps v K w s (t.sendWords i c2 ws) := by
  unfold State.sendWords
  dsimp only
  refine emit ?_
  split
  · exact ite h.emit h.emit.onSeg
  · exact ite h h.onSeg

theorem whistlePeriod (h : Keeps v K w s t) {i n : Nat} {ws : List ColWord} : Keeps v K w s (t.whistlePeriod i n ws) :=
  h.sendWords.sendWords.sendWords

theorem settleWhistle (h : Keeps v K w s t) {i : Nat} : Keeps v K w s (t.settleWhistle i) := by
  unfold State.settleWhistle State.closeWhistle
  dsimp only
  split
  · exact ite h (ite h.onSeg.sendWords.sendWords h.onSeg.sendWords)
  · exact h

theorem sendTo (h : Keeps v K w s t) {g op addr len : Nat} {data : List W16} {c2 : Bool} : Keeps v K w s (t.sendTo g op addr len data c2) :=
  h.sendWords

theorem sendC2 (h : Keeps v K w s t) {i n : Nat} {ws : List ColWord} : Keeps v K w s (t.sendC2 i n ws) := ite h.sendWords h.whistlePeriod

theorem exchange (h : Keeps v K w s t) {g op addr len : Nat} {data : List W16} : Keeps v K w s (t.exchange g op addr len data) :=
  ite h.whistlePeriod h.sendTo

theorem endCause (h : Keeps v K w s t) {i k : Nat} : Keeps v K w s (t.endCause i k) := h.onSeg.setLive

theorem answered (h : Keeps v K w s t) {i : Nat} : Keeps v K w s (t.answered i) := ite h.endCause.onSeg h

theorem segCause (h : Keeps v K w s t) (hthresh : s.flt.winSeg.thresh = 0) {i k : Nat} : Keeps v K w s (t.segCause i k) :=
  ite h (h.onSeg.setLive.raise.countSeg hthresh)

/-! ### What the bridge holds for a drop (R198, R205, R210, R453) -/

theorem onWin (h : Keeps v K w s t) {p n : Nat} {f : Window → Window} : Keeps v K w s (t.onWin p n f) := by
  unfold State.onWin
  exact h.onBridge

theorem onItem (h : Keeps v K w s t) {p id : Nat} {f : Item → Item} : Keeps v K w s (t.onItem p id f) := by
  unfold State.onItem
  exact h.onBridge

theorem invalidateAll (h : Keeps v K w s t) {p : Nat} {f : Window → Bool} : Keeps v K w s (t.invalidateAll p f) := by
  unfold State.invalidateAll
  refine h.foldl fun u e _ hu => ?_
  unfold State.invalidate
  split
  · exact hu
  · exact ite hu.onWin.signalUnit hu.onWin

theorem invalidateDrop (h : Keeps v K w s t) {g : Nat} : Keeps v K w s (t.invalidateDrop g) := h.foldl fun _ _ _ hu => hu.invalidateAll

theorem suspendPrefetch (h : Keeps v K w s t) {g : Nat} : Keeps v K w s (t.suspendPrefetch g) := h.foldl fun _ _ _ hu => hu.onBridge

theorem journal (h : Keeps v K w s t) {p : Nat} {e : JrnEntry} : Keeps v K w s (t.journal p e) := by
  have hwin : Keeps v K w s (if e.nowin then t else t.onWin p e.window fun w => { w with failCnt := satInc w.failCnt }) := ite h h.onWin
  unfold State.journal
  exact ite hwin.onBridge hwin.onBridge.signalUnit

theorem removeItem (h : Keeps v K w s t) {p id : Nat} : Keeps v K w s (t.removeItem p id) := h.onBridge.foldl fun _ _ _ hu => hu.emit

theorem sendCpl (h : Keeps v K w s t) {p tag addr : Nat} {ep : Bool} {bytes : List Byte} : Keeps v K w s (t.sendCpl p tag addr ep bytes) :=
  h.foldl fun _ _ _ hu => hu.emit

theorem writeHost (h : Keeps v K w s t) {p addr : Nat} {bytes : List Byte} : Keeps v K w s (t.writeHost p addr bytes) :=
  h.foldl fun _ _ _ hu => hu.emit

theorem sendPost (h : Keeps v K w s t) {p : Nat} {g : GuestPost} : Keeps v K w s (t.sendPost p g) := by
  have hwritten := fun e => ite (c := (t.part p).dmaOk = true) (h.foldl (l := g.pieces) (f := fun u x => u.writeHost p x.1 x.2) fun _ _ _ hu => hu.writeHost)
    (h.journal (p := p) (e := e))
  exact ite (hwritten _).onBridge (hwritten _)

theorem flushPosted (h : Keeps v K w s t) {p : Nat} : Keeps v K w s (t.flushPosted p) := h.onBridge.foldl fun _ _ _ hu => hu.sendPost

theorem recordReadErr (h : Keeps v K w s t) {p : Nat} {f : FailRec} : Keeps v K w s (t.recordReadErr p f) := h.onBridge

theorem countFail (h : Keeps v K w s t) {p : Nat} {f : FailRec} : Keeps v K w s (t.countFail p f) := ite h h.onWin

theorem completeRead (h : Keeps v K w s t) {p : Nat} {r : ReadReq} : Keeps v K w s (t.completeRead p r) := by
  have hflushed := h.flushPosted (p := p)
  unfold State.completeRead
  dsimp only
  split
  · exact hflushed.sendCpl
  · exact ite hflushed.recordReadErr.countFail.sendCpl hflushed.recordReadErr.countFail.emit

theorem nakGuest (h : Keeps v K w s t) {i reason : Nat} {x : Tenure} : Keeps v K w s (t.nakGuest i x reason) := by
  have hbusy : Keeps v K w s (t.busySince i x) := by
    unfold State.busySince
    split
    · exact ite h h.emit
    · exact h
  unfold State.nakGuest State.answerGuest
  exact hbusy.sendWords.onSeg

theorem startReads (h : Keeps v K w s t) {p : Nat} {d : DmaFor} {l : List ((Nat × Nat) × Bool)} : Keeps v K w s (t.startReads p d l) := by
  refine h.foldl fun u x _ hu => ?_
  unfold State.startRequest
  have hkept : ∀ m n, Keeps v K w s { u with nextId := n, dma := m } := fun _ _ => hu.aside rfl rfl rfl (List.prefix_refl _)
  exact ite (hkept _ _).emit (hkept _ _)

theorem beginGuestRead (h : Keeps v K w s t) {p i : Nat} {c : GuestCmd} : Keeps v K w s (t.beginGuestRead p i c) := by
  unfold State.beginGuestRead State.startGuestRead State.holdGuest
  exact ite h.flushPosted.startReads.onSeg h.onSeg

theorem grantFrom (h : Keeps v K w s t) {p : Nat} {l : List SemWaiter} : Keeps v K w s (t.grantFrom p l) := by
  induction l generalizing t with
  | nil => exact h.onBridge
  | cons x rest ih =>
    cases x with
    | atomic id =>
      unfold State.grantFrom State.atomicTakes
      exact h.onBridge.onBridge.onItem
    | guest i =>
      unfold State.grantFrom State.guestTakes
      split
      · split
        · exact ite h.onBridge.onBridge.beginGuestRead (ih h.nakGuest)
        · exact ih h
      · exact ih h

theorem grantSem (h : Keeps v K w s t) {p : Nat} : Keeps v K w s (t.grantSem p) := ite h.grantFrom h

theorem endAtomic (h : Keeps v K w s t) {p : Nat} {it : Item} {a : AtomicRun} : Keeps v K w s (t.endAtomic p it a) := by
  unfold State.endAtomic State.freeSem
  refine grantSem ?_
  have hfreed := fun f g => (ite (c := a.step = 0) (h.removeItem (p := p) (id := it.id)).onBridge
    (h.removeItem (p := p) (id := it.id)).onBridge : Keeps v K w s (if a.step = 0 then State.onBridge _ p f else State.onBridge _ p g)).flushPosted (p := p)
  split
  · exact (hfreed _ _).emit
  · exact (hfreed _ _).recordReadErr.countFail.emit

theorem settleItem (h : Keeps v K w s t) {p id : Nat} : Keeps v K w s (t.settleItem p id) := by
  unfold State.settleItem
  split
  · exact h
  · refine ite h ?_
    split
    · split
      · exact h.onItem
      · exact ite h h.endAtomic
    · split
      · exact h.removeItem.completeRead.grantSem
      · exact h.removeItem

theorem failHead (h : Keeps v K w s t) {p id cause nak : Nat} : Keeps v K w s (t.failHead p id cause nak) := by
  unfold State.failHead
  split
  · exact h
  · split
    · split
      · exact h.onItem.settleItem
      · exact h
    · refine settleItem ?_
      split
      · exact h.onItem
      · exact h.onItem
      · exact h.journal.onItem

theorem failNoDrop (h : Keeps v K w s t) {n p : Nat} {f : Nat → Nat → Bool} : Keeps v K w s (t.failNoDrop n p f) := by
  induction n generalizing t with
  | zero => exact h
  | succ n ih =>
    unfold State.failNoDrop
    split
    · exact h
    · exact ih h.failHead

theorem failNoDropAll (h : Keeps v K w s t) {f : Nat → Nat → Bool} : Keeps v K w s (t.failNoDropAll f) :=
  h.fairly (h.foldl fun _ _ _ hu => hu.onBridge.failNoDrop)

theorem failIssued (h : Keeps v K (fun _ : Bearing => ()) s t) {i cause : Nat} : Keeps v K (fun _ : Bearing => ()) s (t.failIssued i cause) := by
  unfold State.failIssued
  split
  · split
    · exact h.onSeg.failHead
    · exact h.onSeg.onPlant.emit
    · exact h.onSeg
  · exact h

end Keeps

end Sys2Proof.Machine
end

section
/-! A drop's mode on record, retirement and loss (R88, R205, R453, R514), and ATTN, polls and latched status (O29). -/

namespace Sys2Proof.Machine

open Sys2Proof

variable {β γ : Type} {v : Drop → β} {K : Set Nat} {w : Bearing → γ} {s t u : State}

/-! ### Modes and retirement -/

/-- The mode on record changed, and nothing else of R88 and R205 done yet. -/
def State.modeSet (s : State) (g : Nat) (c2 : Bool) : State := s.onDrop g fun d => { d with colant2 := c2, c2Silent := 0 }

/-- What a retirement leaves of a drop's record. -/
def Drop.retire (d : Drop) : Drop :=
  { d with state := .retired, activeAt := none, tlmDue := none, expected := [], passes := [], restoring := false, tlmLater := none }

theorem State.setMode_same (s : State) (g : Nat) (c2 : Bool) (h : (s.drop g).colant2 = c2) : s.setMode g c2 = s := by
  unfold State.setMode
  rw [h, beq_self_eq_true]
  rfl

/-- Who the drop is: its state, descriptor and path delay, and whether its renewal is due. -/
def Drop.card (d : Drop) : DropState × Option Descriptor × Option Nat × Bool := (d.state, d.desc, d.delay, d.renewDue)

/-- That, and its mode, Wafer version and depth on record, and a failed negotiation's tick. -/
def Drop.link (d : Drop) : (DropState × Option Descriptor × Option Nat × Bool) × Bool × Nat × Nat × Option Nat :=
  (d.card, d.colant2, d.wafer, d.depth, d.negoFail)

namespace Keeps

theorem dropsRising (h : Keeps v K w s t) (hd : tblRising s.drops = true) : tblRising t.drops = true := (h.drops hd).1

theorem view (h : Keeps v ∅ w s t) (hd : tblRising s.drops = true) (g : Nat) : v (t.drop g) = v (s.drop g) := (h.drops hd).2 g (Set.notMem_empty g)

theorem rederive (h : Keeps v K w s t) {i : Nat} : Keeps v K w s (t.rederive i) := by
  unfold State.rederive
  exact h.onSeg

theorem remix {i : Nat} {f : State → State} (h : Keeps v K w s (f t)) : Keeps v K w s (t.remix i f) := ite h h.rederive

/-- What follows a change of the mode on record leaves the records of drops. -/
theorem modeChanged {g : Nat} {c2 : Bool} (hne : (t.drop g).colant2 ≠ c2) (h : Keeps v K w s (t.modeSet g c2)) : Keeps v K w s (t.setMode g c2) := by
  have hremixed : Keeps v K w s (t.remix (g / 32) fun u => u.modeSet g c2) := remix h
  unfold State.setMode
  rw [if_neg (by simpa using hne)]
  exact ite hremixed.invalidateDrop.suspendPrefetch.signalSeg hremixed.invalidateDrop.suspendPrefetch

theorem setMode (h : Keeps v K w s t) {g : Nat} {c2 : Bool} (hv : g ∉ K → ∀ d, v { d with colant2 := c2, c2Silent := 0 } = v d) :
    Keeps v K w s (t.setMode g c2) := by
  by_cases hsame : (t.drop g).colant2 = c2
  · rwa [t.setMode_same g c2 hsame]
  · exact modeChanged hsame (h.onDrop fun hg => hv hg _)

theorem onWaf (h : Keeps v K w s t) {g : Nat} {f : WaferDrop → WaferDrop} (hv : g ∉ K → ∀ d x, v { d with waf := x } = v d) :
    Keeps v K w s (t.onWaf g f) := h.onDrop fun hg => hv hg _ _

theorem idleEntries (h : Keeps v K w s t) {i n : Nat} : Keeps v K w s (t.idleEntries i n) := by
  unfold State.idleEntries
  exact h.onSeg

theorem endService (h : Keeps v K w s t) {i : Nat} {f : Nat → Bool} : Keeps v K w s (t.endService i f) := by
  unfold State.endService
  exact ite h.onSeg.onPlant.emit h

theorem onReleased (h : Keeps v K w s t) {f : List (Nat × Nat) → List (Nat × Nat)} :
    Keeps v K w s { t with waf := { t.waf with released := f t.waf.released } } := h.aside rfl rfl rfl (List.prefix_refl _)

theorem markUnknown (h : Keeps v K w s t) {g : Nat} (hv : g ∉ K → ∀ d x, v { d with waf := x } = v d) : Keeps v K w s (t.markUnknown g) := by
  unfold State.markUnknown
  exact h.onWaf hv

/-- A retirement, where the view shows the drop as before or K has it (R453). -/
theorem retireDrop (h : Keeps v K w s t) {g : Nat} (hv : g ∉ K → ∀ d, v d.retire = v d) : Keeps v K w s (t.retireDrop g) := by
  have hretired : Keeps v K w s (t.onDrop g Drop.retire) := h.onDrop fun hg => hv hg _
  unfold State.retireDrop
  refine ite h ?_
  refine updateTakeover (failNoDropAll ?_)
  refine onReleased (onSeg (endService ?_))
  refine invalidateDrop (signalSeg ?_)
  exact hretired.setLive.stick.occurRetire.idleEntries

/-- An error of a drop, where the view shows the drop as before its retirement or K has it (R451, R453). -/
theorem countOrRetire (h : Keeps v K w s t) {g : Nat} (hv : g ∉ K → ∀ d, v d.retire = v d) : Keeps v K w s (t.countError 4 g) := by
  unfold State.countError
  exact ite (h.noteError.retireDrop hv) h.noteError

end Keeps

/-- A change of mode changes the mode on record, and nothing else of the link. -/
theorem State.setMode_link (s : State) (g : Nat) (c2 : Bool) (hd : tblRising s.drops = true) : tblRising (s.setMode g c2).drops = true ∧
    ((s.setMode g c2).drop g).link = ((s.drop g).card, c2, (s.drop g).wafer, (s.drop g).depth, (s.drop g).negoFail) := by
  by_cases hsame : (s.drop g).colant2 = c2
  · rw [s.setMode_same g c2 hsame, ← hsame]
    exact ⟨hd, rfl⟩
  · have hset := s.rising_onDrop g (fun d => { d with colant2 := c2, c2Silent := 0 }) hd
    have hkept : Keeps Drop.link ∅ (fun _ : Bearing => ()) (s.modeSet g c2) (s.setMode g c2) := Keeps.modeChanged hsame (Keeps.refl _)
    refine ⟨hkept.dropsRising hset, (hkept.view hset g).trans ?_⟩
    unfold State.modeSet
    rw [s.drop_onDrop_same g _ hd]
    rfl

/-! ### ATTN (R107, R214) -/

/-- How ATTN stands on a segment. -/
def Segment.attention (x : Segment) : Bool × Option Nat × Option Nat × Option Nat := (x.attn, x.roundTick, x.zeroSince, x.stray)

theorem State.queueHk_attention (s : State) (i k : Nat) (h : HkItem) (hs : tblRising s.segs = true) :
    tblRising (s.queueHk i h).segs = true ∧ ((s.queueHk i h).seg k).attention = (s.seg k).attention := by
  refine ⟨tblRising_set _ _ _ _ hs, ?_⟩
  unfold State.queueHk
  by_cases hk : k = i
  · subst hk
    rw [s.seg_onSeg_same k _ hs]
    split <;> rfl
  · rw [s.seg_onSeg_other i k _ hk]

theorem State.queueAll_attention (l : List Nat) (s : State) (i k : Nat) (item : Nat → HkItem) (hs : tblRising s.segs = true) :
    tblRising (l.foldl (fun s n => s.queueHk i (item n)) s).segs = true ∧
      ((l.foldl (fun s n => s.queueHk i (item n)) s).seg k).attention = (s.seg k).attention := by
  induction l generalizing s with
  | nil => exact ⟨hs, rfl⟩
  | cons n l ih =>
    obtain ⟨hrising, hseg⟩ := s.queueHk_attention i k (item n) hs
    obtain ⟨hrising', hseg'⟩ := ih _ hrising
    exact ⟨hrising', hseg'.trans hseg⟩

/-- A round queues its POLLs and is marked as begun. -/
theorem State.pollRound_attention (s : State) (i : Nat) (hs : tblRising s.segs = true) :
    ((s.pollRound i).seg i).attention = ((s.seg i).attn, some s.tick, (s.seg i).zeroSince, (s.seg i).stray) := by
  unfold State.pollRound
  dsimp only
  obtain ⟨hrising, hseg⟩ := State.queueAll_attention _ s i i pollItem hs
  simp only [Segment.attention, Prod.mk.injEq] at hseg
  obtain ⟨hattn, -, hzero, hstray⟩ := hseg
  rw [State.seg_onSeg_same _ i _ hrising]
  simp only [Segment.attention, hattn, hzero, hstray]

theorem State.endCause_seg (s : State) (i k : Nat) (hs : tblRising s.segs = true) :
    (s.endCause i k).seg i = { s.seg i with causes := (s.seg i).causes &&& ~~~(BitVec.ofNat 4 (2 ^ (k - 1))) } := by
  have hseg := s.seg_onSeg_same i (fun x => { x with causes := x.causes &&& ~~~(BitVec.ofNat 4 (2 ^ (k - 1))) }) hs
  exact hseg

/-- ATTN has been asserted on a segment, and no round begun yet. -/
def State.attnRaised (s : State) (i : Nat) : State :=
  s.onSeg i fun x => { x with attn := true, attnTick := s.tick, zeroSince := some s.tick, stray := none }

theorem exec_attnAsserted_first (i : SegId) (s : State) (hclk : (s.seg i).clk = true) (hattn : (s.seg i).attn = false) :
    exec (.attnAsserted i) s = .next ((s.attnRaised i).pollRound i) := by
  rw [exec_attnAsserted]
  unfold execAttnAsserted
  simp only [hclk, hattn, Bool.not_true, Bool.or_self, Bool.false_eq_true, if_false]
  rfl

theorem State.attnRaised_attention (s : State) (i : Nat) (hs : tblRising s.segs = true) :
    (((s.attnRaised i).pollRound i).seg i).attention = (true, some s.tick, some s.tick, none) := by
  have hseg : (s.attnRaised i).seg i = { s.seg i with attn := true, attnTick := s.tick, zeroSince := some s.tick, stray := none } :=
    s.seg_onSeg_same i _ hs
  rw [(s.attnRaised i).pollRound_attention i (tblRising_set _ _ _ _ hs), hseg]
  rfl

/-- ATTN has been released on a segment, and its cause still stands. -/
def State.attnDropped (s : State) (i : Nat) : State := s.onSeg i fun x => { x with attn := false, zeroSince := none, stray := none, roundTick := none }

theorem exec_attnReleased_asserted (i : SegId) (s : State) (hattn : (s.seg i).attn = true) :
    exec (.attnReleased i) s = .next ((s.attnDropped i).endCause i 3) := by
  rw [exec_attnReleased]
  unfold execAttnReleased
  simp only [hattn, Bool.not_true, Bool.false_eq_true, if_false]
  rfl

theorem State.attnDropped_seg (s : State) (i : Nat) (hs : tblRising s.segs = true) :
    (s.attnDropped i).seg i = { s.seg i with attn := false, zeroSince := none, stray := none, roundTick := none } := s.seg_onSeg_same i _ hs

theorem exec_strayAttention_due (i : SegId) (s : State) {k : Nat} (hzero : (s.seg i).zeroSince = some k) (hstray : (s.seg i).stray = none)
    (hattn : (s.seg i).attn = true) (hdue : k + 100000 ≤ s.tick) :
    exec (.strayAttention i) s = .next ((s.onSeg i fun x => { x with stray := some s.tick }).signalSeg i 1) := by
  have hpast : s.past k (ticksOfMs 1) = true := (s.past_iff k _).mpr hdue
  rw [exec_strayAttention]
  unfold execStrayAttention
  simp only [hzero, hstray, hattn, hpast, Bool.and_self, if_true]

theorem exec_stuckAttn_due (i : SegId) (s : State) {k : Nat} (hstray : (s.seg i).stray = some k) (hattn : (s.seg i).attn = true)
    (hdue : k + 100000000 ≤ s.tick) : exec (.stuckAttn i) s = .next (s.segCause i 3) := by
  have hpast : s.past k (ticksOfS 1) = true := (s.past_iff k _).mpr hdue
  rw [exec_stuckAttn]
  unfold execStuckAttn
  simp only [hstray, hattn, hpast, Bool.and_self, if_true]

theorem exec_pollRound_full (i : SegId) (s : State) (hclk : (s.seg i).clk = true) (henum : (s.seg i).enumerated = true)
    (hdue : (s.seg i).fullPollTick + 10000000 ≤ s.tick) :
    exec (.pollRound i) s = .next (((s.pollable i).foldl (fun s g => s.queueHk i (pollItem (g % 32))) s).onSeg i fun x =>
      { x with fullPollTick := s.tick }) := by
  have hpast : s.past (s.seg i).fullPollTick (ticksOfMs 100) = true := (s.past_iff _ _).mpr hdue
  rw [exec_pollRound]
  unfold execPollRound
  simp only [hclk, henum, hpast, Bool.not_true, Bool.or_self, Bool.false_eq_true, if_false, if_true]

/-! ### Status (R108, R213, R514) -/

/-- A mask of some of a word's bits is 0: each of them is. -/
theorem getLsbD_of_and_eq_zero {x m : W16} (h : x &&& m = 0) (k : Nat) (hm : m.getLsbD k = true) : x.getLsbD k = false := by
  have hbit := congrArg (fun y : W16 => y.getLsbD k) h
  simpa [hm] using hbit

/-- The oldest answer of a POLL is taken. -/
def State.statTaken (s : State) (i : Nat) (rest : List (Nat × W16)) : State := s.onSeg i fun y => { y with stats := rest }

theorem exec_statReceived_oldest (i : SegId) (s : State) {n : Nat} {x : W16} {rest : List (Nat × W16)} (hstats : (s.seg i).stats = (n, x) :: rest) :
    exec (.statReceived i) s =
      .next (if x.getLsbD 15 then ((s.statTaken i rest).stat (i.val * 32 + n) x).breakStray i
        else (s.statTaken i rest).stat (i.val * 32 + n) x) := by
  rw [exec_statReceived]
  unfold execStatReceived
  simp only [hstats]
  rfl

/-- The record of a drop with a STAT latched. -/
def Drop.latch (d : Drop) (x : W16) : Drop :=
  { d with latched := d.latched ||| x.extractLsb' 0 13, lastStat := x.extractLsb' 13 3, discardLoss := false, waf := { d.waf with sinceLastPoll := [] } }

/-- A STAT with no error bit and no lost link is latched, and ATTN 1 signals (R213). -/
theorem State.stat_clean (s : State) (g : Nat) {x : W16} (hclean : x &&& 0x0F00 = 0) :
    s.stat g x = if x.getLsbD 15 then (s.onDrop g (·.latch x)).signal g else s.onDrop g (·.latch x) := by
  have hkept : x &&& ~~~(0x300#16) = x := by
    have hsplit : x &&& 0x300#16 = 0 := by
      have hmasked := congrArg (fun y : W16 => y &&& 0x300#16) hclean
      simpa [BitVec.and_assoc] using hmasked
    have hall : x = x &&& 0x300#16 ||| x &&& ~~~(0x300#16) := by rw [← BitVec.and_or_distrib_left, BitVec.or_not_self, BitVec.and_allOnes]
    rw [hsplit] at hall
    simpa using hall.symm
  have hbits : statCrcErr x = false ∧ statParErr x = false ∧ statLost x = false ∧ statReverted x = false :=
    ⟨getLsbD_of_and_eq_zero hclean 11 rfl, getLsbD_of_and_eq_zero hclean 10 rfl, getLsbD_of_and_eq_zero hclean 9 rfl,
      getLsbD_of_and_eq_zero hclean 8 rfl⟩
  obtain ⟨hcrc, hpar, hlost, hrev⟩ := hbits
  unfold State.stat
  simp only [hkept, ite_self, hcrc, hpar, hlost, hrev, Bool.or_false, Bool.false_and, Bool.false_eq_true, if_false]
  rfl

/-- A source that arrives at its group is pending, or has fired (R406, R407). -/
theorem State.arm_rung (s : State) (n : Nat) (hr : tblRising s.evc.sources = true) (hpending : (s.source n).pending = true) :
    ((s.arm n).source n).pending = true ∨ ((s.arm n).source n).fired = true := by
  have hcommit : ((s.commit n).source n).fired = true := by
    have hset : (s.setSource n { s.source n with pending := false, fired := true, window := some (s.tick + 12, s.target n) }).source n = _ :=
      tblGet_set_same _ _ _ _ hr
    unfold State.commit
    dsimp only
    split
    · exact congrArg Source.fired hset
    · exact congrArg Source.fired hset
  unfold State.arm
  dsimp only
  split
  · exact .inl hpending
  · split
    · exact .inl hpending
    · split
      · exact .inr hcommit
      · exact .inl hpending

theorem State.ringShared_rung (s : State) (n : Nat) (hr : tblRising s.evc.sources = true) (hn : reservedSource n = false) :
    ((s.ringShared n).source n).pending = true ∨ ((s.ringShared n).source n).fired = true := by
  have hset : ∀ x : Source, (s.setSource n x).source n = x := fun x => tblGet_set_same _ _ _ _ hr
  have harrived : ∀ x : Source, x.pending = true → ((s.setSource n x).source n).pending = true := fun x hx => by rw [hset, hx]
  unfold State.ringShared
  simp only [hn, Bool.false_eq_true, if_false]
  split
  · exact .inl (harrived _ rfl)
  · exact State.arm_rung _ n (tblRising_set _ _ _ _ hr) (harrived _ rfl)

/-- A STAT that is latched and no more leaves every other record and the segment. -/
theorem State.stat_clean_keeps (s : State) (g : Nat) {x : W16} (hclean : x &&& 0x0F00 = 0) (hd : tblRising s.drops = true) :
    (s.stat g x).segs = s.segs ∧ (s.stat g x).drop g = (s.drop g).latch x ∧ ∀ k, k ≠ g → (s.stat g x).drop k = s.drop k := by
  have hrung : (s.stat g x).unrung = (s.onDrop g (·.latch x)).unrung := by
    rw [s.stat_clean g hclean]
    split
    · exact State.unrung_signal _ g
    · rfl
  have hdrop := State.drop_of_drops (State.drops_of_unrung hrung)
  exact ⟨(State.segs_of_unrung hrung :), (hdrop g).trans (s.drop_onDrop_same g _ hd), fun k hk => (hdrop k).trans (s.drop_onDrop_other g k _ hk)⟩

/-- Where the guard lets doorbells pass, ATTN 1 in such a STAT rings the drop's source, and partitions' records stay. -/
theorem State.stat_clean_rings (s : State) (g : Nat) {x : W16} (hclean : x &&& 0x0F00 = 0) (hg : g < 2048) (hr : tblRising s.evc.sources = true)
    (hb : s.bellsPass = true) :
    (x.getLsbD 15 = true → ((s.stat g x).source g).pending = true ∨ ((s.stat g x).source g).fired = true) ∧ (s.stat g x).parts = s.parts := by
  have hsource : reservedSource g = false := by
    unfold reservedSource
    simp only [Bool.and_eq_false_imp, decide_eq_true_iff]
    omega
  have hpasses := State.bell_passes (s.onDrop g (·.latch x)) (.shared g) hb
  rw [s.stat_clean g hclean]
  unfold State.signal
  rw [hpasses]
  refine ⟨fun hattn => ?_, ?_⟩
  · rw [if_pos hattn]
    exact State.ringShared_rung (s.onDrop g (·.latch x)) g hr hsource
  · split
    · rw [State.strike_eq]
      rfl
    · rfl

/-- A STAT of a lost or reverted link has been latched, counted where the link was lost, and signalled. -/
def State.lossHeard (s : State) (g : Nat) (x : W16) : State :=
  (if x.getLsbD 9 then (s.onDrop g (·.latch x)).countError 4 g else s.onDrop g (·.latch x)).signal g

/-- The link of a drop is on record as lost, and its renewal due. -/
def State.lossRecorded (s : State) (g : Nat) : State :=
  (((s.setMode g false).invalidateDrop g).markUnknown g).onDrop g fun d => { d with wafer := 0, renewDue := true }

/-- Then the drop is on record in Colant-1 mode and has its renewal due, unless the error has retired it (R453, R514). -/
theorem State.stat_loss (s : State) (g : Nat) {x : W16} (hclean : x &&& 0x0C00 = 0) (hloss : x.getLsbD 9 = true ∨ x.getLsbD 8 = true)
    (hdiscard : (s.drop g).discardLoss = false) :
    s.stat g x = if (((s.lossHeard g x).drop g).state != .retired) = true then (s.lossHeard g x).lossRecorded g else s.lossHeard g x := by
  have hcrc : statCrcErr x = false := getLsbD_of_and_eq_zero hclean 11 rfl
  have hpar : statParErr x = false := getLsbD_of_and_eq_zero hclean 10 rfl
  have hany : (statLost x || statReverted x) = true := Bool.or_eq_true _ _ ▸ hloss
  have hrings : (statAttn x || statLost x || statReverted x) = true := by rw [Bool.or_assoc, hany, Bool.or_true]
  unfold State.stat
  simp only [hdiscard, hcrc, hpar, hany, hrings, Bool.true_and, Bool.false_eq_true, if_false, if_true]
  rfl

theorem State.lossRecorded_drop (s : State) (g : Nat) (hd : tblRising s.drops = true) :
    ((s.lossRecorded g).drop g).colant2 = false ∧ ((s.lossRecorded g).drop g).renewDue = true := by
  obtain ⟨hset, hlink⟩ := s.setMode_link g false hd
  have hkept : Keeps Drop.link ∅ (fun _ : Bearing => ()) (s.setMode g false) (((s.setMode g false).invalidateDrop g).markUnknown g) :=
    (Keeps.refl _).invalidateDrop.markUnknown fun _ _ _ => rfl
  have hcolant2 := congrArg (fun x => x.2.1) ((hkept.view hset g).trans hlink)
  unfold State.lossRecorded
  rw [State.drop_onDrop_same _ g _ (hkept.dropsRising hset)]
  exact ⟨hcolant2, rfl⟩

theorem State.lossHeard_rising (s : State) (g : Nat) (x : W16) (hd : tblRising s.drops = true) : tblRising (s.lossHeard g x).drops = true := by
  have hlatched : Keeps (fun _ : Drop => ()) {g} (fun _ : Bearing => ()) s (s.onDrop g (·.latch x)) := (Keeps.refl s).onDrop fun _ => rfl
  exact (((Keeps.ite (c := x.getLsbD 9 = true) (hlatched.countOrRetire fun _ _ => rfl) hlatched).signal (n := g)).drops hd).1

theorem State.stat_loss_renews (s : State) (g : Nat) {x : W16} (hclean : x &&& 0x0C00 = 0) (hloss : x.getLsbD 9 = true ∨ x.getLsbD 8 = true)
    (hdiscard : (s.drop g).discardLoss = false) (hd : tblRising s.drops = true) (hstate : ((s.stat g x).drop g).state ≠ .retired) :
    ((s.stat g x).drop g).colant2 = false ∧ ((s.stat g x).drop g).renewDue = true := by
  have hloss := s.stat_loss g hclean hloss hdiscard
  by_cases hretired : ((s.lossHeard g x).drop g).state = .retired
  · rw [if_neg (by rw [hretired]; decide)] at hloss
    rw [hloss] at hstate
    exact absurd hretired hstate
  · rw [if_pos (bne_iff_ne.mpr hretired)] at hloss
    rw [hloss]
    exact State.lossRecorded_drop _ g (s.lossHeard_rising g x hd)

/-- Settles O29: rounds by their segment's fields; a STAT by the bits it has. -/
theorem attentionAndStatus : Obligations.AttentionAndStatus := by
  refine ⟨fun i s hr => ?rounds, fun i s n x rest hr hstats hn => ?status⟩
  case rounds =>
    obtain ⟨-, hs, -⟩ := hr
    refine ⟨fun hclk hattn => ?_, fun hattn => ?_, fun k hzero hstray hattn hdue => exec_strayAttention_due i s hzero hstray hattn hdue,
      fun k hstray hattn hdue => exec_stuckAttn_due i s hstray hattn hdue, exec_pollRound_full i s⟩
    · have hround := s.attnRaised_attention i hs
      simp only [Segment.attention, Prod.mk.injEq] at hround
      obtain ⟨hattn', hround', hzero, -⟩ := hround
      exact ⟨_, exec_attnAsserted_first i s hclk hattn, hattn', hround', hzero⟩
    · refine ⟨_, exec_attnReleased_asserted i s hattn, ?_⟩
      rw [State.endCause_seg _ i 3 (tblRising_set _ _ _ _ hs), s.attnDropped_seg i hs]
      exact ⟨rfl, rfl, rfl⟩
  case status =>
    obtain ⟨-, hs, hd, -, -, -, -, -, -, hsources, -⟩ := hr
    intro u
    have hexec := exec_statReceived_oldest i s hstats
    have hseg : (s.statTaken i rest).seg i = { s.seg i with stats := rest } := s.seg_onSeg_same i _ hs
    have hdrops : ∀ g, (s.statTaken i rest).drop g = s.drop g := State.drop_of_drops rfl
    have hbells : (s.statTaken i rest).bellsPass = s.bellsPass := State.bellsPass_of_pairs rfl
    have hu : u = (s.statTaken i rest).stat (i.val * 32 + n) x := rfl
    clear_value u
    subst hu
    refine ⟨hexec, fun hclean => ?clean, fun hclean hloss hdiscard hstate => ?loss⟩
    case clean =>
      obtain ⟨hsegs, hdrop, hothers⟩ := (s.statTaken i rest).stat_clean_keeps (i.val * 32 + n) hclean hd
      rw [hdrops] at hdrop
      refine ⟨?_, congrArg Drop.latched hdrop, congrArg Drop.lastStat hdrop, fun g hg => (hothers g hg).trans (hdrops g), fun hb =>
        (s.statTaken i rest).stat_clean_rings _ hclean (by omega) hsources (hbells.trans hb)⟩
      rw [State.seg_of_segs hsegs, hseg]
    case loss => exact (s.statTaken i rest).stat_loss_renews _ hclean hloss (hdrops _ ▸ hdiscard) hd hstate

end Sys2Proof.Machine
end

section
/-! What exchanges with a drop keep of its record (R112, R113, R394). -/

namespace Sys2Proof.Machine

open Sys2Proof

variable {β γ : Type} {v : Drop → β} {K : Set Nat} {w : Bearing → γ} {s t u : State} {g : Nat}

/-! ### Views of a drop's record -/

/-- At drop g, outside K, v shows no more than the view a. -/
def Within {α : Type} (a : Drop → α) (v : Drop → β) (K : Set Nat) (g : Nat) : Prop := g ∉ K → ∀ x y, a x = a y → v x = v y

theorem Within.self {α : Type} (a : Drop → α) : Within a a K g := fun _ _ _ h => h

theorem Within.link_of_card (h : Within Drop.card v K g) : Within Drop.link v K g := fun hg x y hxy => h hg x y (congrArg Prod.fst hxy)

/-- No threshold for drops is set, and bank pair 10 is empty. -/
structure Lenient (s : State) : Prop where
  thresh : s.flt.winDrop.thresh = 0
  pair : (s.pair 10).active = []

namespace Keeps

theorem lenient (h : Keeps v K w s t) (hl : Lenient s) : Lenient t := ⟨(congrArg WinCfg.thresh h.winDrop).trans hl.thresh, h.active.trans hl.pair⟩

/-- The guard lets the schedulers reach every word of a drop. -/
theorem schedAccess (h : Keeps v K w s t) (hpair : (s.pair 10).active = []) (k : AccKind) (g addr len : Nat) (hk : k ≠ .fetch := by decide) :
    t.schedAccess k g addr len = (true, t) := t.schedAccess_unlisted k g addr len hk (h.active.trans hpair)

/-- An exchange begins. -/
theorem beginExchange (h : Keeps v K w s t) {cost : Nat} (hbegun : t.beginExchange g cost = some u) : Keeps v K w s u := by
  unfold State.beginExchange at hbegun
  obtain ⟨a, -, ha⟩ := Option.map_eq_some_iff.mp hbegun
  rw [← ha]
  exact h.settleWhistle.onSeg

/-! ### Answers (R102, R250, R452) -/

theorem refreshed (h : Keeps v K w s t) (hv : Within Drop.link v K g) : Keeps v K w s (t.refreshed g) := h.onDrop fun hg => hv hg _ _ rfl

theorem heardWith {a : Answer} (hfresh : ∀ {u}, Keeps v K w s u → Keeps v K w s (u.refreshed g))
    (hcount : ∀ {u}, Keeps v K w s u → Keeps v K w s (u.countError 4 g)) (h : Keeps v K w s t) : Keeps v K w s (t.heard g a) := by
  have hanswered : Keeps v K w s (if a.answered then t.answered (g / 32) else t) := ite h.answered h
  have hrefreshed := ite (c := a.refreshes = true) (hfresh hanswered) hanswered
  exact ite (hcount hrefreshed) hrefreshed

theorem heard (h : Keeps v K w s t) (hl : Lenient s) (hv : Within Drop.link v K g) {a : Answer} : Keeps v K w s (t.heard g a) :=
  heardWith (fun hu => hu.refreshed hv) (fun hu => hu.countDrop hl.thresh) h

/-! ### Negotiation (R113, R329) -/

theorem setDepth (h : Keeps v K w s t) (hv : Within Drop.card v K g) {n : Nat} : Keeps v K w s (t.setDepth g n) := by
  have hset : Keeps v K w s (t.onDrop g fun d => { d with depth := n }) := h.onDrop fun hg => hv hg _ _ rfl
  exact ite hset (hset.markUnknown fun hg _ _ => hv hg _ _ rfl)

end Keeps

/-- One Wafer version is written and answered, unless the drop has been retired. -/
def State.tryWafer (s : State) (g n : Nat) (a : Answer) : State :=
  if (s.drop g).state = .retired then s
  else
    let s := s.onDrop g fun d => { d with wafer := n, negoFail := none }
    (s.exchange g opWr 0xFFFF05 1 [BitVec.ofNat 16 (s.drop g).mode]).heard g a

/-- The answers that name the Wafer version taken. -/
def State.waferAnswered (s : State) (g : Nat) (l : List Answer) : Nat :=
  waferTaken (s.waferWanted g) ((List.range (s.waferWanted g + 1)).map fun k => l.getD k .silent == .ack)

theorem State.negotiated_eq (s : State) (g : Nat) (l : List Answer) (hpair : (s.pair 10).active = []) :
    s.negotiated g l = (List.range (s.waferWanted g - s.waferAnswered g l + 1)).foldl
      (fun u k => u.tryWafer g (s.waferWanted g - k) (l.getD k .silent))
      (s.setDepth g (depthBits (((s.drop g).desc.map fun x => field x.caps.toNat 7 6).getD 0))) := by
  unfold State.negotiated
  simp only [s.schedAccess_unlisted .write g 0xFFFF05 1 (by decide) hpair, Bool.not_true, Bool.false_eq_true, if_false]
  rfl

/-- LEVEL has been written to the drop and answered. -/
def State.levelWritten (s : State) (g : Nat) (a : NegoAnswers) : State :=
  (s.sendTo g opWr 0xFFFF05 1 [BitVec.ofNat 16 (packFields [(2, 14), (depthCode (s.drop g).depth, 10)])] false).heard g
    (writeAnswer (g % 32) false a.level)

/-- The answers to the MEASUREs that a negotiation sends. -/
def linkSeries (a : NegoAnswers) (n : Nat) : List Answer :=
  measureSeries ((List.range 16).map fun k => measureAnswer n (a.measures.getD k []))

/-- The drop is in Colant-2 mode and has been sent MEASUREs; its answers have been heard. p is its path delay. -/
def State.linkMeasured (s : State) (g : Nat) (a : NegoAnswers) (p : Nat) : State :=
  (linkSeries a (g % 32)).foldl (fun s x => s.heard g x)
    ((s.setMode g true).sendC2 (g / 32) (16 * measureCost p) ((linkSeries a (g % 32)).flatMap fun _ => message (measureWords (g % 32)) true))

/-- A drop that may be negotiated: found, not retired, with LEVEL 0x2. -/
def Drop.negotiable (d : Drop) : Bool := !(!d.found || d.state == .retired || (d.desc.map Descriptor.level).getD 1 != 2)

theorem State.negotiate_eq (s : State) (g : Nat) (a : NegoAnswers) (hpair : (s.pair 10).active = []) :
    s.negotiate g a =
      if (s.drop g).negotiable = false then s
      else if acked (g % 32) false a.level = false then (s.levelWritten g a).negotiationFails g
      else if (linkSeries a (g % 32)).length = 16 ∧ (linkSeries a (g % 32)).all (·.passes) = true then
        ((s.levelWritten g a).linkMeasured g a ((s.drop g).delay.getD 520)).negotiated g (a.wafer.map (writeAnswer (g % 32) true))
      else ((s.levelWritten g a).linkMeasured g a ((s.drop g).delay.getD 520)).negotiationFails g := by
  unfold State.negotiate
  simp only [s.schedAccess_unlisted .write g 0xFFFF05 1 (by decide) hpair, Bool.not_true, Bool.false_eq_true, if_false, Bool.not_eq_true',
    Drop.negotiable, Bool.not_eq_false']
  rfl

namespace Keeps

theorem tryWafer (h : Keeps v K w s t) (hl : Lenient s) (hv : Within Drop.link v K g)
    (hwafer : g ∉ K → ∀ d n, v { d with wafer := n, negoFail := none } = v d) {n : Nat} {a : Answer} : Keeps v K w s (t.tryWafer g n a) :=
  ite h ((h.onDrop fun hg => hwafer hg _ _).exchange.heard hl hv)

theorem negotiated (h : Keeps v K w s t) (hl : Lenient s) (hv : Within Drop.card v K g) {l : List Answer} :
    Keeps v K w s (t.negotiated g l) := by
  rw [t.negotiated_eq g l (h.lenient hl).pair]
  exact (h.setDepth hv).foldl fun _ _ _ hu => hu.tryWafer hl hv.link_of_card fun hg _ _ => hv hg _ _ rfl

theorem negotiationFails (h : Keeps v K w s t) (hv : Within Drop.card v K g) : Keeps v K w s (t.negotiationFails g) :=
  (h.setMode fun hg _ => hv hg _ _ rfl).onDrop fun hg => hv hg _ _ rfl

theorem levelWritten (h : Keeps v K w s t) (hl : Lenient s) (hv : Within Drop.link v K g) {a : NegoAnswers} :
    Keeps v K w s (t.levelWritten g a) := h.sendTo.heard hl hv

/-- What a negotiation does to the drop after its mode has changed. -/
theorem afterMode {a : NegoAnswers} {p : Nat} (hl : Lenient s) (hv : Within Drop.link v K g) (h : Keeps v K w s (t.setMode g true)) :
    Keeps v K w s (t.linkMeasured g a p) := h.sendC2.foldl fun _ _ _ hu => hu.heard hl hv

theorem negotiate (h : Keeps v K w s t) (hl : Lenient s) (hv : Within Drop.card v K g) {a : NegoAnswers} : Keeps v K w s (t.negotiate g a) := by
  have hwritten := h.levelWritten (a := a) hl hv.link_of_card
  have hmeasured := fun p => (hwritten.setMode fun hg _ => hv hg _ _ rfl).afterMode (a := a) (p := p) hl hv.link_of_card
  rw [t.negotiate_eq g a (h.lenient hl).pair]
  exact ite h (ite (hwritten.negotiationFails hv) (ite ((hmeasured _).negotiated hl hv) ((hmeasured _).negotiationFails hv)))

/-! ### The path delay, q and telemetry (R64, R65, R394) -/

theorem writeQ (h : Keeps v K w s t) (hpair : (s.pair 10).active = []) (hv : Within Drop.link v K g) : Keeps v K w s (t.writeQ g) := by
  unfold State.writeQ
  simp only [h.schedAccess hpair .write g 0xFFFF09 1, Bool.not_true, Bool.false_eq_true, if_false]
  exact ite h (h.exchange.onDrop fun hg => hv hg _ _ rfl)

theorem setQdelays (h : Keeps v K w s t) (hpair : (s.pair 10).active = []) {i : Nat} : Keeps v K w s (t.setQdelays i) := by
  refine h.foldl fun u k _ hu => ite hu ?_
  unfold State.queueQ
  simp only [hu.schedAccess hpair .write k 0xFFFF09 1, Bool.not_true, Bool.false_eq_true, if_false]
  exact hu.onSeg

theorem measureDrop (h : Keeps v K w s t) (hl : Lenient s) (hv : g ∉ K → ∀ d x n, v { d with delay := x, pMeasTick := n } = v d) {x : Discovery} :
    Keeps v K w s (t.measureDrop g x) := by
  have hmeasured : Keeps v K w s ((t.sendTo g opMeasure 0 1 [] false).onDrop g fun d =>
      { d with delay := x.turnaroundNs.map (oneWay false), pMeasTick := t.tick }) :=
    h.sendTo.onDrop fun hg => hv hg _ _ _
  exact ite h (ite hmeasured.answered (hmeasured.countDrop hl.thresh))

/-- The telemetry static words are read: what the answer does is `heard`. -/
theorem readStaticWith (hpair : (s.pair 10).active = []) {ws : List ColWord} (hheard : ∀ {u a}, Keeps v K w s u → Keeps v K w s (u.heard g a))
    (hv : g ∉ K → ∀ d x y z, v { d with tlmStatic := x, tlmLater := y, tlmDue := z } = v d) (h : Keeps v K w s t) :
    Keeps v K w s (t.readStatic g ws) := by
  have hruns : ∀ n, Keeps v K w s (t.readRuns g 0xFFFF20 n).1 := fun n => by
    unfold State.readRuns
    simp only [h.schedAccess hpair .read g 0xFFFF20 n]
    exact h.foldl fun _ _ _ hu => hu.exchange
  unfold State.readStatic
  exact (ite (hheard (hruns _)) (hruns _)).onDrop fun hg => hv hg _ _ _ _

theorem readTelemetry (h : Keeps v K w s t) (hl : Lenient s) (hv : Within Drop.link v K g) {x : Discovery} :
    Keeps v K w s (t.readTelemetry g x) :=
  ite h (ite (h.onDrop fun hg => hv hg _ _ rfl) (h.readStaticWith hl.pair (fun hu => hu.heard hl hv) fun hg _ _ _ _ => hv hg _ _ rfl))

theorem renewTiles (h : Keeps v K w s t) (hv : Within Drop.link v K g) : Keeps v K w s (t.renewTiles g) :=
  ite (h.markUnknown fun hg _ _ => hv hg _ _ rfl) (h.onWaf fun hg _ _ => hv hg _ _ rfl)

/-! ### The descriptor is read (R112) -/

theorem readAttempts (h : Keeps v K w s t) (hl : Lenient s) {n : Nat} {l : List (List ColWord)} {first : Bool} :
    Keeps v K w s (t.readAttempts n g l first).1 := by
  induction n generalizing t l first with
  | zero => exact h
  | succ n ih =>
    unfold State.readAttempts
    simp only [h.schedAccess hl.pair .read g 0xFFFF00 11, Bool.not_true, Bool.false_eq_true, if_false]
    split
    · exact h.sendTo.answered
    · have hsent : Keeps v K w s (t.sendTo g opRdb 0xFFFF00 11 [] false) := h.sendTo
      have hnext : ∀ (u : State) (c : Bool), Keeps v K w s u →
          Keeps v K w s (if c then (u, DropRead.empty) else u.readAttempts n g (l.drop 1) false).1 := fun u c hu => by
        cases c
        · exact ih hu
        · exact hu
      exact hnext _ _ (ite hsent (hsent.countDrop hl.thresh))

end Keeps

end Sys2Proof.Machine
end

section
/-! Negotiation, the wait after its failure, and renewal (O27). -/

namespace Sys2Proof.Machine

open Sys2Proof

variable {s t u : State} {g : Nat}

/-! ### The link after a negotiation (R113, R329) -/

theorem Drop.link_eq_iff {d : Drop} {c : DropState × Option Descriptor × Option Nat × Bool} {m : Bool} {n k : Nat} {x : Option Nat} :
    d.link = (c, m, n, k, x) ↔ d.card = c ∧ d.colant2 = m ∧ d.wafer = n ∧ d.depth = k ∧ d.negoFail = x := by
  simp only [Drop.link, Prod.mk.injEq]

theorem State.waferWanted_of {s t : State} (hdesc : (t.drop g).desc = (s.drop g).desc) (hmap : t.map = s.map) : t.waferWanted g = s.waferWanted g := by
  unfold State.waferWanted Drop.cap
  simp only [hdesc, hmap]

theorem State.waferAnswered_of {s t : State} (hdesc : (t.drop g).desc = (s.drop g).desc) (hmap : t.map = s.map) (l : List Answer) :
    t.waferAnswered g l = s.waferAnswered g l := by
  unfold State.waferAnswered
  rw [State.waferWanted_of hdesc hmap]

theorem State.waferAnswered_le (s : State) (g : Nat) (l : List Answer) : s.waferAnswered g l ≤ s.waferWanted g := Nat.sub_le _ _

theorem State.negotiationFails_link (s : State) (g : Nat) (hd : tblRising s.drops = true) :
    ((s.negotiationFails g).drop g).link = ((s.drop g).card, false, 0, (s.drop g).depth, some s.tick) := by
  obtain ⟨hrising, hlink⟩ := s.setMode_link g false hd
  unfold State.negotiationFails
  rw [State.drop_onDrop_same _ g _ hrising]
  generalize (s.setMode g false).drop g = d at hlink
  obtain ⟨hcard, hcolant2, -, hdepth, -⟩ := Drop.link_eq_iff.mp hlink
  exact Drop.link_eq_iff.mpr ⟨hcard, hcolant2, rfl, hdepth, rfl⟩

theorem State.setDepth_link (s : State) (g n : Nat) (hd : tblRising s.drops = true) : tblRising (s.setDepth g n).drops = true ∧
    ((s.setDepth g n).drop g).link = ((s.drop g).card, (s.drop g).colant2, (s.drop g).wafer, n, (s.drop g).negoFail) := by
  have hkept : Keeps Drop.link ∅ (fun _ : Bearing => ()) (s.onDrop g fun d => { d with depth := n }) (s.setDepth g n) :=
    Keeps.ite (Keeps.refl _) ((Keeps.refl _).markUnknown fun _ _ _ => rfl)
  have hset := s.rising_onDrop g (fun d => { d with depth := n }) hd
  refine ⟨hkept.dropsRising hset, (hkept.view hset g).trans ?_⟩
  rw [s.drop_onDrop_same g _ hd]
  rfl

theorem State.tryWafer_link (s : State) (g n : Nat) (a : Answer) (hl : Lenient s) (hd : tblRising s.drops = true)
    (hstate : (s.drop g).state ≠ .retired) :
    ((s.tryWafer g n a).drop g).link = ((s.drop g).card, (s.drop g).colant2, n, (s.drop g).depth, none) := by
  have hset := s.rising_onDrop g (fun d => { d with wafer := n, negoFail := none }) hd
  have hlink : ((s.onDrop g fun d => { d with wafer := n, negoFail := none }).drop g).link =
      ((s.drop g).card, (s.drop g).colant2, n, (s.drop g).depth, none) := by rw [s.drop_onDrop_same g _ hd]; rfl
  have hlenient : Lenient (s.onDrop g fun d => { d with wafer := n, negoFail := none }) := ⟨hl.thresh, hl.pair⟩
  unfold State.tryWafer
  rw [if_neg hstate]
  have hheard : ∀ u, Lenient u → tblRising u.drops = true → ∀ ws, (((u.exchange g opWr 0xFFFF05 1 ws).heard g a).drop g).link = (u.drop g).link :=
    fun u hu hrising ws =>
      have hkept : Keeps Drop.link ∅ (fun _ : Bearing => ()) u ((u.exchange g opWr 0xFFFF05 1 ws).heard g a) :=
        (Keeps.refl u).exchange.heard hu (Within.self _)
      hkept.view hrising g
  exact (hheard _ hlenient hset _).trans hlink

/-- The values tried last the drop holds: its native depth, and the Wafer version it acknowledged. -/
theorem State.negotiated_link (s : State) (g : Nat) (l : List Answer) (hl : Lenient s) (hd : tblRising s.drops = true)
    (hstate : (s.drop g).state ≠ .retired) :
    ((s.negotiated g l).drop g).link = ((s.drop g).card, (s.drop g).colant2, s.waferAnswered g l,
      depthBits (((s.drop g).desc.map fun x => field x.caps.toNat 7 6).getD 0), none) := by
  rw [s.negotiated_eq g l hl.pair, List.range_succ, List.foldl_append, List.foldl_cons, List.foldl_nil,
    Nat.sub_sub_self (s.waferAnswered_le g l)]
  generalize depthBits _ = n
  obtain ⟨hset, hlink⟩ := s.setDepth_link g n hd
  obtain ⟨hcard, hcolant2, -, hdepth, -⟩ := Drop.link_eq_iff.mp hlink
  have hlenient : Lenient (s.setDepth g n) :=
    ((Keeps.refl s : Keeps (fun _ => ()) ∅ (fun _ => ()) s s).setDepth (g := g) (n := n) fun _ _ _ _ => rfl).lenient hl
  have htried : Keeps (fun d => (d.card, d.colant2, d.depth)) ∅ (fun _ : Bearing => ()) (s.setDepth g n)
      ((List.range (s.waferWanted g - s.waferAnswered g l)).foldl (fun u k => u.tryWafer g (s.waferWanted g - k) (l.getD k .silent)) (s.setDepth g n)) :=
    (Keeps.refl _).foldl fun u k _ hu => hu.tryWafer hlenient
      (fun _ x y hxy => congrArg (fun z => (z.1, z.2.1, z.2.2.2.1)) hxy) fun _ _ _ => rfl
  have hview := htried.view hset g
  simp only [hcard, hcolant2, hdepth, Prod.mk.injEq] at hview
  obtain ⟨hcard', hcolant2', hdepth'⟩ := hview
  have hstate' := fun h => hstate ((congrArg (fun x => x.1) hcard').symm.trans h)
  rw [State.tryWafer_link _ g _ _ (htried.lenient hlenient) (htried.dropsRising hset) hstate', hcard', hcolant2', hdepth']

theorem Drop.negotiable_state {d : Drop} (h : d.negotiable = true) : d.state ≠ .retired := by
  rintro hretired
  simp [Drop.negotiable, hretired] at h

section
variable (s : State) (g : Nat) (a : NegoAnswers) (hl : Lenient s) (hd : tblRising s.drops = true) (hnego : (s.drop g).negotiable = true)
include hl hd hnego

/-- A LEVEL write that is not acknowledged leaves the drop in Colant-1 mode (R113, log entry 8). -/
theorem State.negotiate_refused (hack : acked (g % 32) false a.level = false) :
    ((s.negotiate g a).drop g).link = ((s.drop g).card, false, 0, (s.drop g).depth, some s.tick) := by
  have hkept : Keeps Drop.link ∅ (fun _ : Bearing => ()) s (s.levelWritten g a) := (Keeps.refl s).levelWritten hl (Within.self _)
  obtain ⟨hcard, -, -, hdepth, -⟩ := Drop.link_eq_iff.mp (hkept.view hd g)
  rw [s.negotiate_eq g a hl.pair, if_neg (by rw [hnego]; decide), if_pos hack, State.negotiationFails_link _ g (hkept.dropsRising hd), hcard, hdepth,
    hkept.tick]

/-- With LEVEL acknowledged and all 16 MEASUREs passed the drop is in Colant-2 mode at the Wafer version it acknowledges and its native depth. -/
theorem State.negotiate_passed (hack : acked (g % 32) false a.level = true) (hlength : (linkSeries a (g % 32)).length = 16)
    (hpass : (linkSeries a (g % 32)).all (·.passes) = true) :
    ((s.negotiate g a).drop g).link = ((s.drop g).card, true, s.waferAnswered g (a.wafer.map (writeAnswer (g % 32) true)),
      depthBits (((s.drop g).desc.map fun x => field x.caps.toNat 7 6).getD 0), none) := by
  have hwritten : Keeps Drop.link ∅ (fun _ : Bearing => ()) s (s.levelWritten g a) := (Keeps.refl s).levelWritten hl (Within.self _)
  have hground : Keeps (fun _ : Drop => ()) ∅ (fun _ : Bearing => ()) s ((s.levelWritten g a).setMode g true) :=
    ((Keeps.refl s).levelWritten hl fun _ _ _ _ => rfl).setMode fun _ _ => rfl
  have hmeasured : Keeps Drop.link ∅ (fun _ : Bearing => ()) ((s.levelWritten g a).setMode g true)
      ((s.levelWritten g a).linkMeasured g a ((s.drop g).delay.getD 520)) := Keeps.afterMode (hground.lenient hl) (Within.self _) (Keeps.refl _)
  obtain ⟨hset, hlink⟩ := (s.levelWritten g a).setMode_link g true (hwritten.dropsRising hd)
  obtain ⟨hcard, hcolant2, -⟩ := Drop.link_eq_iff.mp ((hmeasured.view hset g).trans hlink)
  obtain ⟨hcardWritten, -⟩ := Drop.link_eq_iff.mp (hwritten.view hd g)
  rw [hcardWritten] at hcard
  rw [s.negotiate_eq g a hl.pair, if_neg (by rw [hnego]; decide), if_neg (by rw [hack]; decide), if_pos ⟨hlength, hpass⟩]
  generalize (s.levelWritten g a).linkMeasured g a ((s.drop g).delay.getD 520) = u at hmeasured hcard hcolant2
  have hdesc : (u.drop g).desc = (s.drop g).desc := congrArg (fun x => x.2.1) hcard
  have hstate : (u.drop g).state ≠ .retired := fun h => Drop.negotiable_state hnego ((congrArg (fun x => x.1) hcard).symm.trans h)
  rw [u.negotiated_link g _ (hmeasured.lenient (hground.lenient hl)) (hmeasured.dropsRising hset) hstate, hcard, hcolant2,
    State.waferAnswered_of hdesc (hmeasured.map.trans hground.map), hdesc]

end

/-- Sixteen MEASUREs that all pass are all of the series (R113). -/
theorem linkSeries_passed (a : NegoAnswers) (n : Nat) (hlength : 16 ≤ a.measures.length)
    (hpass : (a.measures.take 16).all (fun m => (measureAnswer n m).passes) = true) :
    (linkSeries a n).length = 16 ∧ (linkSeries a n).all (·.passes) = true := by
  have hlist : (List.range 16).map (fun k => measureAnswer n (a.measures.getD k [])) = (a.measures.take 16).map (measureAnswer n) := by
    refine List.ext_getElem (by simp [hlength]) fun k hk _ => ?_
    have hk' : k < a.measures.length := by simp at hk; omega
    simp [List.getElem?_eq_getElem hk']
  have hall : ((a.measures.take 16).map (measureAnswer n)).all (·.passes) = true := by rwa [List.all_map]
  have hsixteen : ((a.measures.take 16).map (measureAnswer n)).length = 16 := by simp [hlength]
  have hseries : linkSeries a n = (a.measures.take 16).map (measureAnswer n) := by
    unfold linkSeries measureSeries
    rw [hlist, List.takeWhile_eq_self_iff.mpr (List.all_eq_true.mp hall), hsixteen, List.take_of_length_le (Nat.le_succ_of_le hsixteen.le),
      List.take_of_length_le hsixteen.le]
  rw [hseries]
  exact ⟨hsixteen, hall⟩

/-! ### The command NEGOTIATION -/

/-- A renegotiation: its drop's tiles are UNKNOWN, its expected CRCs go, and its change is signalled (R334, R387, R401). -/
def State.renegotiated (s : State) (g : Nat) (a : NegoAnswers) : State :=
  (((s.negotiate g a).markUnknown g).onDrop g fun d => { d with expected := [] }).signalSeg (g / 32) 2

theorem exec_negotiation_begun (g : DropId) (a : NegoAnswers) (s : State) {u : State} (hnego : (s.drop g).negotiable = true)
    (hcolant2 : (s.drop g).colant2 = false) (hfail : (s.drop g).negoFail = none)
    (hbegun : s.beginExchange g (s.negotiationCost g ((s.drop g).delay.getD 520)) = some u) :
    exec (.negotiation g a) s = .next (u.renegotiated g a) := by
  unfold Drop.negotiable at hnego
  rw [Bool.not_eq_true', Bool.or_eq_false_iff, Bool.or_eq_false_iff] at hnego
  obtain ⟨⟨hfound, hstate⟩, hlevel⟩ := hnego
  rw [exec_negotiation]
  unfold execNegotiation
  simp only [hfound, hstate, hlevel, hcolant2, hfail, hbegun, Option.isSome_none, Bool.or_self, Bool.false_eq_true, if_false]
  rfl

theorem State.renegotiated_link (s : State) (g : Nat) (a : NegoAnswers) (hl : Lenient s) (hd : tblRising s.drops = true) :
    ((s.renegotiated g a).drop g).link = ((s.negotiate g a).drop g).link := by
  have hnegotiated : Keeps (fun _ : Drop => ()) ∅ (fun _ : Bearing => ()) s (s.negotiate g a) := (Keeps.refl s).negotiate hl fun _ _ _ _ => rfl
  have hkept : Keeps Drop.link ∅ (fun _ : Bearing => ()) (s.negotiate g a) (s.renegotiated g a) :=
    (((Keeps.refl _).markUnknown fun _ _ _ => rfl).onDrop fun _ => rfl).signalSeg
  exact hkept.view (hnegotiated.dropsRising hd) g

/-- A negotiation that begins ends in Colant-1 mode with its wait, or in Colant-2 mode (R113). -/
theorem negotiation_begun (g : DropId) (a : NegoAnswers) (s : State) {u : State} {x : Descriptor} (hl : Lenient s) (hd : tblRising s.drops = true)
    (hbegun : s.beginExchange g (s.negotiationCost g ((s.drop g).delay.getD 520)) = some u) (hnego : (s.drop g).negotiable = true)
    (hdesc : (s.drop g).desc = some x) :
    ((u.renegotiated g a).drop g).desc = some x ∧
    (acked (g.val % 32) false a.level = false →
      ((u.renegotiated g a).drop g).colant2 = false ∧ ((u.renegotiated g a).drop g).wafer = 0 ∧
      ((u.renegotiated g a).drop g).negoFail = some s.tick) ∧
    (acked (g.val % 32) false a.level = true → 16 ≤ a.measures.length →
      (a.measures.take 16).all (fun m => (measureAnswer (g.val % 32) m).passes) = true →
      ((u.renegotiated g a).drop g).colant2 = true ∧ ((u.renegotiated g a).drop g).negoFail = none ∧
      ((u.renegotiated g a).drop g).depth = depthBits (field x.caps.toNat 7 6) ∧
      ((u.renegotiated g a).drop g).wafer = s.waferAnswered g (a.wafer.map (writeAnswer (g.val % 32) true))) := by
  have hkept : Keeps id ∅ (fun _ : Bearing => ()) s u := (Keeps.refl s).beginExchange hbegun
  have hrising := hkept.dropsRising hd
  have hdrop : u.drop g = s.drop g := hkept.view hd g
  have hlink := u.renegotiated_link g a (hkept.lenient hl) hrising
  rw [← hdrop] at hnego hdesc
  refine ⟨?_, fun hack => ?_, fun hack hlength hpass => ?_⟩
  · have hcard : Keeps Drop.card ∅ (fun _ : Bearing => ()) u (u.negotiate g a) := (Keeps.refl u).negotiate (hkept.lenient hl) (Within.self _)
    have hsame := (congrArg Prod.fst hlink).trans (hcard.view hrising g)
    exact (congrArg (fun c => c.2.1) hsame).trans hdesc
  · obtain ⟨-, hcolant2, hwafer, -, hfail⟩ := Drop.link_eq_iff.mp (hlink.trans (u.negotiate_refused g a (hkept.lenient hl) hrising hnego hack))
    exact ⟨hcolant2, hwafer, hkept.tick ▸ hfail⟩
  · obtain ⟨hsixteen, hall⟩ := linkSeries_passed a _ hlength hpass
    obtain ⟨-, hcolant2, hwafer, hdepth, hfail⟩ :=
      Drop.link_eq_iff.mp (hlink.trans (u.negotiate_passed g a (hkept.lenient hl) hrising hnego hack hsixteen hall))
    rw [hdesc] at hdepth
    exact ⟨hcolant2, hfail, hdepth, hwafer.trans (State.waferAnswered_of (congrArg Drop.desc hdrop) hkept.map _)⟩

/-! ### The command NEGOTIATION_FAIL_WAIT -/

/-- DD_MODE is read 3 ms after the failure, and the answer's depth is on record. -/
def State.modeRead (s : State) (g : Nat) (answer : Option W16) : State :=
  let s := (s.sendTo g opRd 0xFFFF05 1 [] false).onDrop g fun d => { d with negoFail := none }
  ((answer.map fun w => s.setDepth g (depthBits (field w.toNat 11 10))).getD s).heard g (answer.elim .silent fun w => .rdata [w] false)

/-- The telemetry that was put off is read, and the delays that have changed are written. -/
def State.waitEnded (s : State) (g : Nat) : State :=
  ((s.drop g).tlmLater.elim s fun ws => if (s.drop g).state = .retired then s else s.readStatic g ws).setQdelays (g / 32)

theorem exec_negotiationFailWait_due (g : DropId) (answer : Option W16) (s : State) {k : Nat} {u : State} (hfail : (s.drop g).negoFail = some k)
    (hdue : k + 300000 ≤ s.tick) (hstate : (s.drop g).state ≠ .retired) (hpair : (s.pair 10).active = [])
    (hbegun : s.beginExchange g (max (costW2 opRd 0xFFFF05 1 [] false 520)
      (if (s.drop g).tlmLater.isSome then costW2 opRdb 0xFFFF20 46 [] false 520 else 0)) = some u) :
    exec (.negotiationFailWait g answer) s = .next ((u.modeRead g answer).waitEnded g) := by
  have hkept : Keeps id ∅ (fun _ : Bearing => ()) s u := (Keeps.refl s).beginExchange hbegun
  have hpast : s.past k (ticksOfMs 3) = true := (s.past_iff k _).mpr hdue
  rw [exec_negotiationFailWait]
  unfold execNegotiationFailWait
  simp only [hfail, hpast, hstate, hbegun, u.schedAccess_unlisted .read g 0xFFFF05 1 (by decide) (hkept.active.trans hpair), Bool.not_true,
    Bool.false_eq_true, if_false, if_true]
  unfold State.waitEnded State.modeRead
  dsimp only
  split
  · next h => rw [h]; rfl
  · next h => rw [h]; rfl

/-- The wait for a negotiation's failure, the depth and the refresh of a drop's record. -/
def Drop.waiting (d : Drop) : Option Nat × Nat × Nat := (d.negoFail, d.depth, d.refreshTick)

/-- The read of DD_MODE is on the wires, and the wait is over. -/
def State.modeAsked (s : State) (g : Nat) : State := (s.sendTo g opRd 0xFFFF05 1 [] false).onDrop g fun d => { d with negoFail := none }

theorem State.modeRead_some (s : State) (g : Nat) (x : W16) :
    s.modeRead g (some x) = (((s.modeAsked g).setDepth g (depthBits (field x.toNat 11 10))).answered (g / 32)).refreshed g := rfl

theorem Keeps.modeAsked (s : State) (g : Nat) : Keeps (fun _ : Drop => ()) ∅ (fun _ : Bearing => ()) s (s.modeAsked g) :=
  (Keeps.refl s).sendTo.onDrop fun _ => rfl

theorem Keeps.modeRead (s : State) (g : Nat) (x : W16) : Keeps (fun _ : Drop => ()) ∅ (fun _ : Bearing => ()) s (s.modeRead g (some x)) :=
  ((Keeps.modeAsked s g).setDepth fun _ _ _ _ => rfl).answered.refreshed fun _ _ _ _ => rfl

/-- A word of DD_MODE has been read: the wait is over, its depth is on record, and the drop is refreshed (R102, R113). -/
theorem State.modeRead_waiting (s : State) (g : Nat) (x : W16) (hd : tblRising s.drops = true) :
    ((s.modeRead g (some x)).drop g).waiting = (none, depthBits (field x.toNat 11 10), s.tick) := by
  have hsent : Keeps id ∅ (fun _ : Bearing => ()) s (s.sendTo g opRd 0xFFFF05 1 [] false) := (Keeps.refl s).sendTo
  have hnone : ((s.modeAsked g).drop g).negoFail = none := by
    unfold State.modeAsked
    rw [State.drop_onDrop_same _ g _ (hsent.dropsRising hd)]
  have hasked := Keeps.modeAsked s g
  obtain ⟨hset, hlink⟩ := (s.modeAsked g).setDepth_link g (depthBits (field x.toNat 11 10)) (hasked.dropsRising hd)
  have hanswered : Keeps Drop.link ∅ (fun _ : Bearing => ()) ((s.modeAsked g).setDepth g (depthBits (field x.toNat 11 10)))
      (((s.modeAsked g).setDepth g (depthBits (field x.toNat 11 10))).answered (g / 32)) := (Keeps.refl _).answered
  obtain ⟨-, -, -, hdepth, hfail⟩ := Drop.link_eq_iff.mp ((hanswered.view hset g).trans hlink)
  have htick : (((s.modeAsked g).setDepth g (depthBits (field x.toNat 11 10))).answered (g / 32)).tick = s.tick :=
    (((hasked.setDepth fun _ _ _ _ => rfl).answered : Keeps (fun _ : Drop => ()) ∅ (fun _ : Bearing => ()) s _)).tick
  rw [s.modeRead_some g x]
  generalize ((s.modeAsked g).setDepth g (depthBits (field x.toNat 11 10))).answered (g / 32) = y at hanswered hdepth hfail htick
  unfold State.refreshed
  rw [y.drop_onDrop_same g _ (hanswered.dropsRising hset)]
  simp only [Drop.waiting, hdepth, hfail, htick, hnone]

/-- What comes after leaves the record of the wait, even where an error retires the drop. -/
theorem State.waitEnded_waiting (s : State) (g : Nat) (hd : tblRising s.drops = true) (hpair : (s.pair 10).active = [])
    (hfresh : (s.drop g).refreshTick = s.tick) : ((s.waitEnded g).drop g).waiting = (s.drop g).waiting := by
  have hrefresh : ∀ {u}, Keeps Drop.waiting ∅ (fun _ : Bearing => ()) s u → Keeps Drop.waiting ∅ (fun _ : Bearing => ()) s (u.refreshed g) :=
    fun {u} hu => hu.onDrop fun _ => by
      have hwaiting : (u.drop g).waiting = _ := hu.view hd g
      simp only [Drop.waiting, Prod.mk.injEq] at hwaiting ⊢
      obtain ⟨-, -, htick⟩ := hwaiting
      exact ⟨trivial, trivial, hu.tick.trans (hfresh.symm.trans htick.symm)⟩
  have hheard : ∀ {u a}, Keeps Drop.waiting ∅ (fun _ : Bearing => ()) s u → Keeps Drop.waiting ∅ (fun _ : Bearing => ()) s (u.heard g a) :=
    fun hu => hu.heardWith hrefresh fun hu => hu.countOrRetire fun _ _ => rfl
  have hread : Keeps Drop.waiting ∅ (fun _ : Bearing => ()) s
      ((s.drop g).tlmLater.elim s fun ws => if (s.drop g).state = .retired then s else s.readStatic g ws) := by
    cases (s.drop g).tlmLater with
    | none => exact Keeps.refl s
    | some ws => exact Keeps.ite (Keeps.refl s) (Keeps.readStaticWith hpair hheard (fun _ _ _ _ _ => rfl) (Keeps.refl s))
  exact (hread.setQdelays hpair).view hd g

/-! ### The attempts to read a descriptor (R112) -/

/-- The words of a good attempt. -/
def Attempt.good? : Attempt → Option (List W16)
  | .good ws => some ws
  | _ => none

/-- What attempts after the first come to. -/
def laterResult (l : List Attempt) : DropRead := (l.findSome? Attempt.good?).elim .conflict .found

theorem firstGood_words (l : List Attempt) : (firstGood l).map (·.1) = l.findSome? Attempt.good? := by
  unfold firstGood
  generalize 0 = n
  induction l generalizing n with
  | nil => rfl
  | cons x l ih => cases x <;> simp [List.findSome?_cons, Attempt.good?, ih]

theorem readResult_later (x : Attempt) (l : List Attempt) (hx : x ≠ .silent) : (readResult (x :: l)).1 = laterResult ((x :: l).take 3) := by
  have hwords := firstGood_words ((x :: l).take 3)
  unfold readResult laterResult
  rw [← hwords]
  cases x with
  | silent => exact absurd rfl hx
  | good | bad => dsimp only; split <;> simp_all

/-- Drop g may be read: it is not retired, no threshold for drops is set and bank pair 10 is empty. -/
structure Readable (s : State) (g : Nat) : Prop where
  lenient : Lenient s
  rising : tblRising s.drops = true
  state : (s.drop g).state ≠ .retired

theorem Readable.keeps {γ : Type} {w : Bearing → γ} {s t : State} (hr : Readable s g) (h : Keeps Drop.card ∅ w s t) : Readable t g :=
  ⟨h.lenient hr.lenient, h.dropsRising hr.rising, fun hret => hr.state ((congrArg (fun c => c.1) (h.view hr.rising g)).symm.trans hret)⟩

section
variable {s : State} (hr : Readable s g) (n : Nat) (l : List (List ColWord)) (first : Bool)
include hr

theorem State.readAttempts_good {ws : List W16} (hgood : attemptOf (g % 32) (l.headD []) = .good ws) : (s.readAttempts (n + 1) g l first).2 = .found ws := by
  unfold State.readAttempts
  simp only [s.schedAccess_unlisted .read g 0xFFFF00 11 (by decide) hr.lenient.pair, hgood, Bool.not_true, Bool.false_eq_true, if_false]

theorem State.readAttempts_silent (hsilent : attemptOf (g % 32) (l.headD []) = .silent) : (s.readAttempts (n + 1) g l true).2 = .empty := by
  unfold State.readAttempts
  simp only [s.schedAccess_unlisted .read g 0xFFFF00 11 (by decide) hr.lenient.pair, hsilent, Bool.not_true, Bool.false_eq_true, if_false]
  rfl

/-- An attempt that is neither good nor the silent first is followed by the next. -/
theorem State.readAttempts_next (hbad : (attemptOf (g % 32) (l.headD [])).good? = none)
    (hlater : (first && attemptOf (g % 32) (l.headD []) == .silent) = false) :
    ∃ u, Readable u g ∧ (s.readAttempts (n + 1) g l first).2 = (u.readAttempts n g (l.drop 1) false).2 := by
  have hcounted : Keeps Drop.card ∅ (fun _ : Bearing => ()) s ((s.sendTo g opRdb 0xFFFF00 11 [] false).countError 4 g) :=
    (Keeps.refl s).sendTo.countDrop hr.lenient.thresh
  have hnext := hr.keeps hcounted
  refine ⟨_, hnext, ?_⟩
  have hstate : ((((s.sendTo g opRdb 0xFFFF00 11 [] false).countError 4 g).drop g).state == .retired) = false := beq_eq_false_iff_ne.mpr hnext.state
  rw [State.readAttempts]
  simp only [s.schedAccess_unlisted .read g 0xFFFF00 11 (by decide) hr.lenient.pair, Bool.not_true, Bool.false_eq_true, if_false]
  cases hattempt : attemptOf (g % 32) (l.headD []) with
  | good ws => rw [hattempt] at hbad; cases hbad
  | silent | bad =>
    rw [hattempt] at hlater
    simp only [hlater, hstate, Bool.false_and, Bool.or_self, Bool.false_eq_true, if_false]

end

theorem attemptOf_nil (n : Nat) : attemptOf n [] = .silent := rfl

theorem laterResult_of_good {x : Attempt} {ws : List W16} (l : List Attempt) (h : x.good? = some ws) : laterResult (x :: l) = .found ws := by
  simp [laterResult, h]

theorem laterResult_of_bad {x : Attempt} (l : List Attempt) (h : x.good? = none) : laterResult (x :: l) = laterResult l := by
  simp [laterResult, h]

theorem Attempt.good?_eq_some {x : Attempt} {ws : List W16} (h : x.good? = some ws) : x = .good ws := by
  cases x <;> simp_all [Attempt.good?]

/-- Attempts after the first: the first good one counts, and where none is good the number is a conflict. -/
theorem State.readAttempts_later (n : Nat) (s : State) (l : List (List ColWord)) (hr : Readable s g) :
    (s.readAttempts n g l false).2 = laterResult ((l.map (attemptOf (g % 32))).take n) := by
  induction n generalizing s l with
  | zero => rfl
  | succ n ih =>
    cases hgood : (attemptOf (g % 32) (l.headD [])).good? with
    | some ws =>
      rw [State.readAttempts_good hr n l false (Attempt.good?_eq_some hgood)]
      cases l with
      | nil => cases hgood
      | cons a l => exact (laterResult_of_good _ hgood).symm
    | none =>
      obtain ⟨u, hu, heq⟩ := State.readAttempts_next hr n l false hgood rfl
      rw [heq, ih u (l.drop 1) hu]
      cases l with
      | nil => simp
      | cons a l => exact (laterResult_of_bad _ hgood).symm

/-- A drop number's result is that of its attempts. -/
theorem State.readDrop_result (s : State) (x : Discovery) (hr : Readable s g) :
    (s.readDrop g x).2 = (readResult (x.attempts.map (attemptOf (g % 32)))).1 := by
  unfold State.readDrop
  cases x.attempts with
  | nil => exact State.readAttempts_silent hr 2 [] (attemptOf_nil _)
  | cons a l =>
    rw [List.map_cons]
    cases hattempt : attemptOf (g % 32) a with
    | silent => exact State.readAttempts_silent hr 2 (a :: l) hattempt
    | good ws =>
      rw [readResult_later _ _ (by simp), State.readAttempts_good hr 2 (a :: l) true hattempt]
      rfl
    | bad =>
      have hbad : (attemptOf (g % 32) ((a :: l).headD [])).good? = none := by rw [List.headD_cons, hattempt]; rfl
      obtain ⟨u, hu, heq⟩ := State.readAttempts_next hr 2 (a :: l) true hbad (by rw [List.headD_cons, hattempt]; rfl)
      rw [readResult_later _ _ (by simp), heq, State.readAttempts_later 2 u _ hu]
      rfl

theorem Keeps.readDrop {β γ : Type} {v : Drop → β} {K : Set Nat} {w : Bearing → γ} {s t : State} (h : Keeps v K w s t) (hl : Lenient s) (g : Nat)
    (x : Discovery) : Keeps v K w s (t.readDrop g x).1 := h.readAttempts hl

/-! ### A drop on record anew, or lost (R112, R514) -/

theorem State.record_card (s : State) (g : Nat) (x : Descriptor) (hd : tblRising s.drops = true) :
    ((s.record g x).drop g).card = ((s.drop g).state, some x, none, false) := by
  unfold State.record
  rw [s.drop_onDrop_same g _ hd]
  rfl

theorem Keeps.record {β γ : Type} {v : Drop → β} {K : Set Nat} {w : Bearing → γ} {s t : State} (h : Keeps v K w s t) {x : Descriptor} (hg : g ∈ K) :
    Keeps v K w s (t.record g x) := by
  unfold State.record
  exact h.onDrop fun hout => absurd hg hout

/-- The delay-only MEASURE has been sent, and its delay is on record. -/
def State.delayTaken (s : State) (g : Nat) (x : Discovery) : State :=
  (s.sendTo g opMeasure 0 1 [] false).onDrop g fun d => { d with delay := x.turnaroundNs.map (oneWay false), pMeasTick := s.tick }

theorem State.measureDrop_eq (s : State) (g : Nat) (x : Discovery) (hstate : (s.drop g).state ≠ .retired) : s.measureDrop g x =
    if x.turnaroundNs.isSome then (s.delayTaken g x).answered (g / 32) else (s.delayTaken g x).countError 4 g := by
  unfold State.measureDrop
  rw [if_neg hstate]
  rfl

theorem State.delayTaken_card (s : State) (g : Nat) (x : Discovery) (hd : tblRising s.drops = true) : tblRising (s.delayTaken g x).drops = true ∧
    ((s.delayTaken g x).drop g).card = ((s.drop g).state, (s.drop g).desc, x.turnaroundNs.map (oneWay false), (s.drop g).renewDue) := by
  have hsent : Keeps Drop.card ∅ (fun _ : Bearing => ()) s (s.sendTo g opMeasure 0 1 [] false) := (Keeps.refl s).sendTo
  have hcard := hsent.view hd g
  have hrising := hsent.dropsRising hd
  unfold State.delayTaken
  refine ⟨State.rising_onDrop _ g _ hrising, ?_⟩
  rw [State.drop_onDrop_same _ g _ hrising]
  generalize (s.sendTo g opMeasure 0 1 [] false).drop g = d at hcard
  simp only [Drop.card, Prod.mk.injEq] at hcard ⊢
  obtain ⟨hstate, hdesc, -, hdue⟩ := hcard
  exact ⟨hstate, hdesc, trivial, hdue⟩

theorem State.measureDrop_card (s : State) (x : Discovery) (hr : Readable s g) : Readable (s.measureDrop g x) g ∧
    ((s.measureDrop g x).drop g).card = ((s.drop g).state, (s.drop g).desc, x.turnaroundNs.map (oneWay false), (s.drop g).renewDue) := by
  obtain ⟨hrising, hcard⟩ := s.delayTaken_card g x hr.rising
  have hground : Keeps (fun _ : Drop => ()) ∅ (fun _ : Bearing => ()) s (s.delayTaken g x) := (Keeps.refl s).sendTo.onDrop fun _ => rfl
  have htaken : Readable (s.delayTaken g x) g := ⟨hground.lenient hr.lenient, hrising, fun h => hr.state ((congrArg (fun c => c.1) hcard).symm.trans h)⟩
  have hkept : Keeps Drop.card ∅ (fun _ : Bearing => ()) (s.delayTaken g x) (s.measureDrop g x) := by
    rw [s.measureDrop_eq g x hr.state]
    exact Keeps.ite (Keeps.refl _).answered ((Keeps.refl _).countDrop htaken.lenient.thresh)
  exact ⟨htaken.keeps hkept, (hkept.view hrising g).trans hcard⟩

/-- A drop treated as newly found: on record anew, measured, and no renewal due, whatever its negotiation comes to (R514). -/
theorem State.discover_card (s : State) (x : Descriptor) (a : Discovery) (hr : Readable s g) :
    tblRising (s.discover g x a).drops = true ∧
      ((s.discover g x a).drop g).card = ((s.drop g).state, some x, a.turnaroundNs.map (oneWay false), false) := by
  have hrecorded := s.record_card g x hr.rising
  have hground : Keeps (fun _ : Drop => ()) {g} (fun _ : Bearing => ()) s (s.record g x) := (Keeps.refl s).record rfl
  have hready : Readable (s.record g x) g :=
    ⟨hground.lenient hr.lenient, hground.dropsRising hr.rising, fun h => hr.state ((congrArg (fun c => c.1) hrecorded).symm.trans h)⟩
  obtain ⟨hmeasured, hcard⟩ := (s.record g x).measureDrop_card a hready
  have hkept : Keeps Drop.card ∅ (fun _ : Bearing => ()) ((s.record g x).measureDrop g a) (s.discover g x a) :=
    ((((Keeps.refl _).writeQ hmeasured.lenient.pair (Within.self Drop.card).link_of_card).setQdelays hmeasured.lenient.pair).negotiate hmeasured.lenient
      (Within.self _)).renewTiles (Within.self Drop.card).link_of_card |>.readTelemetry hmeasured.lenient (Within.self Drop.card).link_of_card
  refine ⟨hkept.dropsRising hmeasured.rising, (hkept.view hmeasured.rising g).trans (hcard.trans ?_)⟩
  simp only [Drop.card, Prod.mk.injEq] at hrecorded
  obtain ⟨hstate, hdesc, -, hdue⟩ := hrecorded
  rw [hstate, hdesc, hdue]

/-- What the loss of a drop leaves of its record. -/
def Drop.lose (d : Drop) : Drop :=
  { d with state := .absent, colant2 := false, wafer := 0, delay := none, activeAt := none, passes := [], renewDue := false, negoFail := none,
           tlmStatic := [], tlmDue := none, tlmLater := none }

theorem Keeps.afterLoss {β γ : Type} {v : Drop → β} {K : Set Nat} {w : Bearing → γ} {s t : State} (h : Keeps v K w s (t.onDrop g Drop.lose)) :
    Keeps v K w s (t.loseDrop g) := by
  have hlost : Keeps v K w s (t.remix (g / 32) fun s => s.onDrop g Drop.lose) := Keeps.remix h
  unfold State.loseDrop
  refine updateTakeover (signalSeg (failNoDropAll ?_))
  exact (hlost.onSeg).invalidateDrop.suspendPrefetch

theorem State.loseDrop_link (s : State) (g : Nat) (hd : tblRising s.drops = true) :
    ((s.loseDrop g).drop g).link = ((.absent, (s.drop g).desc, none, false), false, 0, (s.drop g).depth, none) := by
  have hkept : Keeps Drop.link ∅ (fun _ : Bearing => ()) (s.onDrop g Drop.lose) (s.loseDrop g) := Keeps.afterLoss (Keeps.refl _)
  rw [hkept.view (s.rising_onDrop g _ hd) g, s.drop_onDrop_same g _ hd]
  rfl

/-! ### The command DROP_RENEWAL -/

section
variable (g : DropId) (a : Discovery) (s : State) {u : State} (hdue : (s.drop g).renewDue = true) (hfound : (s.drop g).found = true)
  (hstate : (s.drop g).state ≠ .retired) (hfail : (s.drop g).negoFail = none) (hbegun : s.beginExchange g (s.discoverCost g a) = some u)
  (hread : ((u.readDrop g a).1.drop g).state ≠ .retired)
include hdue hfound hstate hfail hbegun hread

theorem exec_dropRenewal_found {ws : List W16} (hresult : (u.readDrop g a).2 = .found ws) :
    exec (.dropRenewal g a) s = .next (((u.readDrop g a).1.discover g (descriptorOf ws) a).signalSeg (g / 32) 2) := by
  rw [exec_dropRenewal]
  unfold execDropRenewal
  simp only [hdue, hfound, beq_eq_false_iff_ne.mpr hstate, hfail, hbegun, hresult, beq_eq_false_iff_ne.mpr hread, Option.isSome_none, Bool.not_true,
    Bool.or_self, Bool.false_eq_true, if_false]

theorem exec_dropRenewal_lost (hresult : (u.readDrop g a).2 = .empty ∨ (u.readDrop g a).2 = .conflict) :
    exec (.dropRenewal g a) s = .next ((u.readDrop g a).1.loseDrop g) := by
  rw [exec_dropRenewal]
  unfold execDropRenewal
  rcases hresult with hresult | hresult <;>
    simp only [hdue, hfound, beq_eq_false_iff_ne.mpr hstate, hfail, hbegun, hresult, beq_eq_false_iff_ne.mpr hread, Option.isSome_none, Bool.not_true,
      Bool.or_self, Bool.false_eq_true, if_false]

end

/-- A renewal that begins ends with the drop on record anew and measured, or ABSENT (R514, log entry 96). -/
theorem dropRenewal_begun (g : DropId) (a : Discovery) (s : State) {u : State} (hr : Readable s g) (hdue : (s.drop g).renewDue = true)
    (hfound : (s.drop g).found = true) (hfail : (s.drop g).negoFail = none) (hbegun : s.beginExchange g (s.discoverCost g a) = some u) :
    ∃ t, exec (.dropRenewal g a) s = .next t ∧ (t.drop g).renewDue = false ∧
      (∀ ws, (readResult (a.attempts.map (attemptOf (g.val % 32)))).1 = .found ws →
        (t.drop g).desc = some (descriptorOf ws) ∧ (t.drop g).delay = a.turnaroundNs.map (oneWay false)) ∧
      ((readResult (a.attempts.map (attemptOf (g.val % 32)))).1 = .empty ∨ (readResult (a.attempts.map (attemptOf (g.val % 32)))).1 = .conflict →
        (t.drop g).state = .absent ∧ (t.drop g).colant2 = false) := by
  have hu : Readable u g := hr.keeps ((Keeps.refl s : Keeps Drop.card ∅ (fun _ : Bearing => ()) s s).beginExchange hbegun)
  have hread : Readable (u.readDrop g a).1 g := hu.keeps ((Keeps.refl u : Keeps Drop.card ∅ (fun _ : Bearing => ()) u u).readDrop hu.lenient g a)
  have hresult := u.readDrop_result a hu
  generalize (readResult (a.attempts.map (attemptOf (g.val % 32)))).1 = r at hresult
  cases r with
  | found ws =>
    refine ⟨_, exec_dropRenewal_found g a s hdue hfound hr.state hfail hbegun hread.state hresult, ?_⟩
    obtain ⟨hrising, hcard⟩ := (u.readDrop g a).1.discover_card (descriptorOf ws) a hread
    have hkept : Keeps Drop.card ∅ (fun _ : Bearing => ()) ((u.readDrop g a).1.discover g (descriptorOf ws) a)
        (((u.readDrop g a).1.discover g (descriptorOf ws) a).signalSeg (g / 32) 2) := (Keeps.refl _).signalSeg
    have hview := (hkept.view hrising g).trans hcard
    simp only [Drop.card, Prod.mk.injEq] at hview
    obtain ⟨-, hdesc, hdelay, hdue'⟩ := hview
    refine ⟨hdue', fun ws' hws => ?_, fun h => by rcases h with h | h <;> cases h⟩
    cases hws
    exact ⟨hdesc, hdelay⟩
  | empty | conflict =>
    refine ⟨_, exec_dropRenewal_lost g a s hdue hfound hr.state hfail hbegun hread.state (by simp [hresult]), ?_⟩
    obtain ⟨hcard, hcolant2, -⟩ := Drop.link_eq_iff.mp ((u.readDrop g a).1.loseDrop_link g hread.rising)
    simp only [Drop.card, Prod.mk.injEq] at hcard
    obtain ⟨hstate, -, -, hdue'⟩ := hcard
    exact ⟨hdue', fun ws hws => by (cases hws), fun _ => ⟨hstate, hcolant2⟩⟩

/-- Settles O27: each command begins its exchange, and the drop's record follows from the answers. -/
theorem dropsAreNegotiatedAndRenewed : Obligations.DropsAreNegotiatedAndRenewed := by
  refine ⟨⟨fun g a s x hr hthresh hpair hbegun hdesc hstate hcolant2 hfail hlevel hfound => ?negotiation,
    fun g answer s k hr hfail hdue hstate hpair hbegun => ?wait⟩, fun g a s hr hdue hfound hstate hfail hthresh hpair hbegun => ?renewal⟩
  case negotiation =>
    obtain ⟨-, -, hd, -⟩ := hr
    obtain ⟨u, hu⟩ := Option.isSome_iff_exists.mp hbegun
    have hnego : (s.drop g).negotiable = true := by
      simp [Drop.negotiable, hfound, hstate, hdesc, hlevel]
    exact ⟨_, exec_negotiation_begun g a s hnego hcolant2 hfail hu, negotiation_begun g a s ⟨hthresh, hpair⟩ hd hu hnego hdesc⟩
  case wait =>
    obtain ⟨-, -, hd, -⟩ := hr
    obtain ⟨u, hu⟩ := Option.isSome_iff_exists.mp hbegun
    have hkept : Keeps id ∅ (fun _ : Bearing => ()) s u := (Keeps.refl s).beginExchange hu
    refine ⟨_, exec_negotiationFailWait_due g answer s hfail hdue hstate hpair hu, ?_⟩
    cases answer with
    | none => exact ⟨fun h => (by cases h), fun v h => (by cases h)⟩
    | some x =>
      have hread := Keeps.modeRead u g x
      have hwaiting := u.modeRead_waiting g x (hkept.dropsRising hd)
      have hfresh : ((u.modeRead g (some x)).drop g).refreshTick = (u.modeRead g (some x)).tick :=
        (congrArg (fun y => y.2.2) hwaiting).trans hread.tick.symm
      have hended := ((u.modeRead g (some x)).waitEnded_waiting g (hread.dropsRising (hkept.dropsRising hd))
        (hread.active.trans (hkept.active.trans hpair)) hfresh).trans hwaiting
      simp only [Drop.waiting, Prod.mk.injEq] at hended
      obtain ⟨hnone, hdepth, htick⟩ := hended
      refine ⟨fun _ => ⟨hnone, htick.trans hkept.tick⟩, fun y hy => ?_⟩
      cases hy
      exact hdepth
  case renewal =>
    obtain ⟨-, -, hd, -⟩ := hr
    obtain ⟨u, hu⟩ := Option.isSome_iff_exists.mp hbegun
    exact dropRenewal_begun g a s ⟨⟨hthresh, hpair⟩, hd, hstate⟩ hdue hfound hfail hu

end Sys2Proof.Machine
end

section
/-! The reset and the enumeration of a segment (O26). -/

namespace Sys2Proof.Machine

open Sys2Proof

variable {β γ : Type} {v : Drop → β} {K : Set Nat} {w : Bearing → γ} {s t u : State} {g : Nat}

/-! ### Reset (R88, R115, R458) -/

/-- The record of a drop whose link has been lost. -/
def Drop.unlinked (d : Drop) : Prop := d.colant2 = false ∧ d.wafer = 0 ∧ d.qdelay = 0

namespace Keeps

theorem linkLost (h : Keeps v K w s t) (hg : g ∈ K) : Keeps v K w s (t.linkLost g) :=
  ite h (((h.setMode fun hout => absurd hg hout).invalidateDrop).onDrop fun hout => absurd hg hout)

theorem stopClock (h : Keeps v K (fun _ : Bearing => ()) s t) {i : Nat} : Keeps v K (fun _ : Bearing => ()) s (t.stopClock i) := by
  have hdropped : Keeps v K (fun _ : Bearing => ()) s (t.dropTenure i) := by
    unfold State.dropTenure
    split
    · exact h
    · exact h.onSeg.onBridge
  unfold State.stopClock
  exact hdropped.endCause.onSeg.emit

end Keeps

theorem State.stopClock_bearing (s : State) (i : Nat) (hs : tblRising s.segs = true) :
    ((s.stopClock i).seg i).clk = false ∧ ((s.stopClock i).seg i).tx = none := by
  have hrising : tblRising ((s.dropTenure i).endCause i 3).segs = true := by
    have hdropped := (Wires.dropTenure s i (k := {i}) rfl).rising hs
    exact tblRising_set _ _ _ _ hdropped
  unfold State.stopClock
  dsimp only
  rw [State.emit_seg, State.seg_onSeg_same _ i _ hrising]
  exact ⟨rfl, rfl⟩

theorem State.linkLost_unlinked (s : State) (g : Nat) (hd : tblRising s.drops = true) (hstate : (s.drop g).state ≠ .retired) :
    ((s.linkLost g).drop g).unlinked ∧ ((s.linkLost g).drop g).state ≠ .retired := by
  obtain ⟨hset, hlink⟩ := s.setMode_link g false hd
  have hkept : Keeps Drop.link ∅ (fun _ : Bearing => ()) (s.setMode g false) ((s.setMode g false).invalidateDrop g) := (Keeps.refl _).invalidateDrop
  obtain ⟨hcard, hcolant2, -⟩ := Drop.link_eq_iff.mp ((hkept.view hset g).trans hlink)
  unfold State.linkLost
  rw [if_neg hstate, State.drop_onDrop_same _ g _ (hkept.dropsRising hset)]
  generalize ((s.setMode g false).invalidateDrop g).drop g = d at hcard hcolant2
  exact ⟨⟨hcolant2, rfl, rfl⟩, fun h => hstate ((congrArg (fun c => c.1) hcard).symm.trans h)⟩

/-- Each drop of a list that loses its link is on record so, unless it is RETIRED. -/
theorem State.linksLost_unlinked (l : List Nat) (s : State) (hd : tblRising s.drops = true) (hstate : (s.drop g).state ≠ .retired)
    (hg : g ∈ l ∨ (s.drop g).unlinked) : ((l.foldl (fun s k => s.linkLost k) s).drop g).unlinked := by
  induction l generalizing s with
  | nil => exact hg.resolve_left List.not_mem_nil
  | cons k l ih =>
    have hkept : Keeps id {k} (fun _ : Bearing => ()) s (s.linkLost k) := (Keeps.refl s).linkLost rfl
    by_cases hk : k = g
    · subst hk
      obtain ⟨hlost, hstate'⟩ := s.linkLost_unlinked k hd hstate
      exact ih _ (hkept.dropsRising hd) hstate' (.inr hlost)
    · have hsame : (s.linkLost k).drop g = s.drop g := (hkept.drops hd).2 g fun h => hk h.symm
      refine ih _ (hkept.dropsRising hd) (by rwa [hsame]) ?_
      rw [hsame]
      exact hg.imp_left fun hmem => (List.mem_cons.mp hmem).resolve_left fun h => hk h.symm

/-- The clock of a segment that is reset has stopped. -/
def State.resetStopped (s : State) (i : Nat) : State := (s.failIssued i causeTimeout).stopClock i

/-- Its drops are on record with their links lost. -/
def State.resetUnlinked (s : State) (i : Nat) : State := ((s.resetStopped i).segDrops i).foldl (fun s g => s.linkLost g) (s.resetStopped i)

theorem State.resetSegment_eq (s : State) (i : Nat) : s.resetSegment i = (s.resetUnlinked i).onSeg i fun x =>
    { x with resetDue := false, enumerated := false, hk := x.hk.filter fun h => h.who == .service } := rfl

theorem State.resetSegment_resets (s : State) (i : Nat) (hs : tblRising s.segs = true) (hd : tblRising s.drops = true) :
    ((s.resetSegment i).seg i).clk = false ∧ ((s.resetSegment i).seg i).resetDue = false ∧ ((s.resetSegment i).seg i).enumerated = false ∧
      ((s.resetSegment i).seg i).tx = none ∧
      ∀ g, g ∈ s.segDrops i → (s.drop g).state ≠ .retired → ((s.resetSegment i).drop g).unlinked := by
  have hfailed : Keeps id ∅ (fun _ : Bearing => ()) s (s.failIssued i causeTimeout) := (Keeps.refl s).failIssued
  have hstopped : Keeps id ∅ (fun _ : Bearing => ()) s (s.resetStopped i) := hfailed.stopClock
  have hlost : Keeps (fun _ : Drop => ()) Set.univ id (s.resetStopped i) (s.resetUnlinked i) :=
    (Keeps.refl _).foldl fun _ _ _ hu => hu.linkLost (Set.mem_univ _)
  obtain ⟨hrising, hbearing⟩ := hlost.segs (hstopped.segs hs).1
  obtain ⟨hclk, htx⟩ := (s.failIssued i causeTimeout).stopClock_bearing i (hfailed.segs hs).1
  rw [s.resetSegment_eq i, State.seg_onSeg_same _ i _ hrising]
  refine ⟨(congrArg Bearing.clk (hbearing i)).trans hclk, rfl, rfl, (congrArg Bearing.tx (hbearing i)).trans htx, fun g hg hstate => ?_⟩
  have hdrop : (s.resetStopped i).drop g = s.drop g := hstopped.view hd g
  have hmem : g ∈ (s.resetStopped i).segDrops i := by
    rw [State.mem_segDrops _ i g (hstopped.dropsRising hd), hdrop]
    exact (s.mem_segDrops i g hd).mp hg
  exact State.linksLost_unlinked _ (s.resetStopped i) (hstopped.dropsRising hd) (by rwa [hdrop]) (.inl hmem)

theorem exec_segmentReset_due (i : SegId) (s : State) (hretired : (s.seg i).retired = false) (hdue : (s.seg i).resetDue = true) :
    exec (.segmentReset i) s = .next (s.resetSegment i) := by
  rw [exec_segmentReset]
  unfold execSegmentReset
  simp only [hretired, hdue, Bool.not_true, Bool.or_self, Bool.false_eq_true, if_false]

theorem exec_noAnswerReset_due (i : SegId) (s : State) {k : Nat} (hretired : (s.seg i).retired = false) (hsince : (s.seg i).noAnswerTick = some k)
    (hcause : (s.seg i).causes.getLsbD 1 = true) (hdue : k + 100000000 ≤ s.tick) :
    exec (.noAnswerReset i) s = .next (s.onSeg i fun x => { x with noAnswerTick := none, resetDue := true }) := by
  have hpast : s.past k (ticksOfS 1) = true := (s.past_iff k _).mpr hdue
  rw [exec_noAnswerReset]
  unfold execNoAnswerReset
  simp only [hretired, hsince, hcause, hpast, Bool.not_false, Bool.and_self, if_true]

/-! ### Enumeration, step by step (R112) -/

/-- The clock runs, and no conflict is known. -/
def State.clockStarted (s : State) (i : Nat) : State :=
  s.onSeg i fun x => { x with clk := true, clkStopTick := none, conflict := 0, fullPollTick := s.tick }

/-- ALIGN words go out, and FREEZE after them where the mains have failed. -/
def State.enumOpened (s : State) (i : Nat) : State :=
  let s := (s.clockStarted i).sendWords i false (List.replicate 16 alignWord)
  if s.plant.halted then s.startFrozen i else s

/-- All numbers of a segment whose clock has started are to be read. -/
def State.enumBegun (s : State) (i : Nat) : State := (s.emit (.clkStart i)).enumOpened i

/-- The finding for a drop number, if one is given. -/
def findingOf (l : List EnumFinding) (n : Nat) : Option EnumFinding := l.find? fun f => f.number.val == n

/-- Drop numbers are read in turn. -/
def State.enumRead (s : State) (i : Nat) (l : List EnumFinding) (ns : List Nat) : State :=
  ns.foldl (fun s n => s.enumerateDrop i n (findingOf l n)) s

/-- The drops found are measured, given their q and negotiated, and their telemetry read. -/
def State.enumMeasured (s : State) (i : Nat) (l : List EnumFinding) : State :=
  s.enumerateFound (((s.segDrops i).filter fun g => (s.drop g).state != .retired).filterMap fun g =>
    (findingOf l (g % 32)).map fun f => (g, f.answers))

/-- The segment is marked as enumerated. -/
def State.enumMarked (s : State) (i : Nat) : State := s.onSeg i fun x => { x with enumerated := true }

/-- What follows: the charges, the segment's causes, and the takeovers. -/
def State.enumClosed (s : State) (i : Nat) : State :=
  let s := if s.boot.phase = .running then s else s.chargeColant i
  let s := if (s.seg i).conflict ≠ 0 then s.segCause i 1 else s.endCause i 1
  let s := if (s.seg i).causes.getLsbD 1 then s.onSeg i fun x => { x with noAnswerTick := some s.tick } else s
  s.updateTakeover

/-- All of an enumeration, from the start of CLK on. -/
def State.enumerated (s : State) (i : Nat) (l : List EnumFinding) : State :=
  ((((s.enumBegun i).enumRead i l (List.range 32)).enumMeasured i l).enumMarked i).enumClosed i

theorem exec_segmentEnumeration_due (i : SegId) (l : List EnumFinding) (s : State) (hretired : (s.seg i).retired = false)
    (hclk : (s.seg i).clk = false) (hoff : ∀ k, (s.seg i).clkStopTick = some k → k + 5000 ≤ s.tick)
    (hphase : s.boot.phase = .running ∨ s.boot.phase = .starting ∨ s.boot.phase = .service) :
    exec (.segmentEnumeration i l) s = .next (s.enumerated i l) := by
  have hpowered : (s.boot.phase == .starting || s.boot.phase == .running || s.boot.phase == .service) = true := by
    rcases hphase with h | h | h <;> rw [h] <;> rfl
  rw [exec_segmentEnumeration]
  unfold execSegmentEnumeration
  extract_lets x off powered s1 s2 s3 s4 s5 found s6 s7 s8 s9 s10
  have hoff' : off = true := by
    cases hstop : (s.seg i).clkStopTick with
    | none => simp only [off, x, hstop]
    | some k => simpa only [off, x, hstop] using (s.past_iff k (ticksOfUs 50)).mpr (hoff k hstop)
  have hcond : (x.retired || x.clk || !off || !powered) = false := by
    rw [hoff', show x.retired = false from hretired, show x.clk = false from hclk, show powered = true from hpowered]
    rfl
  rw [hcond, if_neg Bool.false_ne_true]
  have h4 : s4 = s.enumBegun i := rfl
  have h7 : s7 = (((s4.enumRead i l (List.range 32)).enumMeasured i l).enumMarked i) := rfl
  have h10 : s10.updateTakeover = s7.enumClosed i := rfl
  rw [h10, h7, h4]
  rfl

namespace Keeps

theorem clockStarted (h : Keeps v K (fun _ : Bearing => ()) s t) {i : Nat} : Keeps v K (fun _ : Bearing => ()) s (t.clockStarted i) := by
  unfold State.clockStarted
  exact h.onSeg

/-- After the clock has started, the opening words leave bearings and drops. -/
theorem enumOpened {i : Nat} (h : Keeps v K w s (t.clockStarted i)) : Keeps v K w s (t.enumOpened i) := by
  have hsent : Keeps v K w s ((t.clockStarted i).sendWords i false (List.replicate 16 alignWord)) := h.sendWords
  unfold State.enumOpened State.startFrozen
  exact ite hsent.sendWords.onSeg hsent

theorem loseDrop (h : Keeps v K w s t) (hg : g ∈ K) : Keeps v K w s (t.loseDrop g) := (h.onDrop fun hout => absurd hg hout).afterLoss

/-- A drop number is read: what changes is its record, and its bit of the conflicts. -/
theorem enumerateDrop (h : Keeps v K w s t) (hl : Lenient s) {i m : Nat} (hg : i * 32 + m ∈ K)
    (hw : ∀ b : Bearing, w { b with conflict := b.conflict ||| BitVec.ofNat 32 (2 ^ m) } = w b) {f : Option EnumFinding} :
    Keeps v K w s (t.enumerateDrop i m f) := by
  have hread := fun x => h.readDrop hl (i * 32 + m) x
  have hmarked := fun x => ite (c := (t.readDrop (i * 32 + m) x).2 = .conflict)
    ((hread x).onSeg (i := i) (f := fun y => { y with conflict := y.conflict ||| BitVec.ofNat 32 (2 ^ m) }) fun y => hw y.bearing) (hread x)
  unfold State.enumerateDrop
  refine ite h (ite (hmarked _) ?_)
  split
  · exact (((hmarked _).onDrop fun hout => absurd hg hout).record hg).signalSeg
  · exact ite ((hmarked _).loseDrop hg) (hmarked _)

theorem enumMeasured (h : Keeps v K w s t) (hl : Lenient s) {i : Nat} {l : List EnumFinding}
    (hv : ∀ x y : Drop, (x.state, x.desc) = (y.state, y.desc) → v x = v y) : Keeps v K w s (t.enumMeasured i l) := by
  have hcard : ∀ g, Within Drop.card v K g := fun g _ x y hxy => hv x y (congrArg (fun c => (c.1, c.2.1)) hxy)
  unfold State.enumMeasured State.enumerateFound
  refine foldl (foldl (foldl (foldl h ?_) ?_) ?_) ?_
  · exact fun u x _ hu => hu.measureDrop hl fun _ _ _ _ => hv _ _ rfl
  · exact fun u x _ hu => hu.writeQ hl.pair (hcard _).link_of_card
  · exact fun u x _ hu => (hu.markUnknown fun _ _ _ => hv _ _ rfl).negotiate hl (hcard _)
  · exact fun u x _ hu => hu.readTelemetry hl (hcard _).link_of_card

theorem enumClosed (h : Keeps v K w s t) (hthresh : s.flt.winSeg.thresh = 0) {i : Nat} : Keeps v K w s (t.enumClosed i) := by
  have hcharged : Keeps v K w s (if t.boot.phase = .running then t else t.chargeColant i) := by
    unfold State.chargeColant
    exact ite h h.onSeg
  unfold State.enumClosed
  exact updateTakeover (ite (onSeg (ite (hcharged.segCause hthresh) hcharged.endCause)) (ite (hcharged.segCause hthresh) hcharged.endCause))

end Keeps

/-! ### One drop number of an enumeration -/

/-- The answers that a finding gives: none where there is no finding. -/
def answersOf (f : Option EnumFinding) : Discovery :=
  (f.map (·.answers)).getD { attempts := [], turnaroundNs := none, telemetry := [], nego := { level := [], measures := [], wafer := [] } }

theorem answersOf_attempts (f : Option EnumFinding) : (answersOf f).attempts = (f.map fun f => f.answers.attempts).getD [] := by
  cases f <;> rfl

/-- The attempts that the findings give for a drop number. -/
def attemptsOf (l : List EnumFinding) (n : Nat) : List (List ColWord) := ((findingOf l n).map fun f => f.answers.attempts).getD []

/-- What is on record of a drop number that has been read, and its bit of the conflicts (R112). -/
def DropRead.Shown (r : DropRead) (x : Drop) (b : Bool) : Prop :=
  (∀ ws, r = .found ws → x.desc = some (descriptorOf ws) ∧ x.found = true ∧ b = false) ∧
  (r = .empty → x.found = false ∧ b = false) ∧
  (r = .conflict → x.found = false ∧ b = true)

/-- What is shown is decided by who the drop is. -/
theorem DropRead.Shown.of_record {r : DropRead} {x y : Drop} {b : Bool} (h : r.Shown x b) (hxy : (y.state, y.desc) = (x.state, x.desc)) : r.Shown y b := by
  simp only [Prod.mk.injEq] at hxy
  unfold DropRead.Shown Drop.found at h ⊢
  rw [hxy.1, hxy.2]
  exact h

theorem State.foundState_ne_absent (s : State) (g : Nat) : s.foundState g ≠ .absent := by
  unfold State.foundState
  split
  · split <;> decide
  · decide

section
variable (s : State) (i n : Nat) (f : Option EnumFinding)

/-- Drop number n of segment i has been read. -/
def State.numberRead : State := (s.readDrop (i * 32 + n) (answersOf f)).1

/-- And it is marked as a conflict. -/
def State.numberMarked : State := (s.numberRead i n f).onSeg i fun x => { x with conflict := x.conflict ||| BitVec.ofNat 32 (2 ^ n) }

/-- And it is on record with the descriptor of its words. -/
def State.numberFound (ws : List W16) : State :=
  (((s.numberRead i n f).onDrop (i * 32 + n) fun d =>
    { d with state := if ((s.numberRead i n f).drop (i * 32 + n)).state = .absent then (s.numberRead i n f).foundState (i * 32 + n)
                      else ((s.numberRead i n f).drop (i * 32 + n)).state, colant2 := false }).record (i * 32 + n) (descriptorOf ws)).signalSeg i 2

/-- A number without a drop is ABSENT, if it had one before. -/
def State.unlisted (g : Nat) : State := if (s.drop g).found then s.loseDrop g else s

theorem State.numberRead_keeps (hl : Lenient s) : Keeps id ∅ id s (s.numberRead i n f) := (Keeps.refl s).readDrop hl _ _

variable (hr : Readable s (i * 32 + n))
include hr

theorem State.enumerateDrop_found {ws : List W16} (hresult : (s.readDrop (i * 32 + n) (answersOf f)).2 = .found ws) :
    s.enumerateDrop i n f = s.numberFound i n f ws := by
  have hread := hr.keeps ((Keeps.refl s : Keeps Drop.card ∅ (fun _ : Bearing => ()) s s).readDrop hr.lenient (i * 32 + n) (answersOf f))
  have hresult' := hresult
  unfold answersOf at hread hresult
  unfold State.enumerateDrop
  simp only [beq_eq_false_iff_ne.mpr hr.state, beq_eq_false_iff_ne.mpr hread.state, hresult, Bool.false_eq_true, if_false, reduceCtorEq]
  rfl

theorem State.enumerateDrop_empty (hresult : (s.readDrop (i * 32 + n) (answersOf f)).2 = .empty) :
    s.enumerateDrop i n f = (s.numberRead i n f).unlisted (i * 32 + n) := by
  have hread := hr.keeps ((Keeps.refl s : Keeps Drop.card ∅ (fun _ : Bearing => ()) s s).readDrop hr.lenient (i * 32 + n) (answersOf f))
  unfold answersOf at hread hresult
  unfold State.enumerateDrop
  simp only [beq_eq_false_iff_ne.mpr hr.state, beq_eq_false_iff_ne.mpr hread.state, hresult, Bool.false_eq_true, if_false, reduceCtorEq]
  rfl

theorem State.enumerateDrop_conflict (hresult : (s.readDrop (i * 32 + n) (answersOf f)).2 = .conflict) :
    s.enumerateDrop i n f = (s.numberMarked i n f).unlisted (i * 32 + n) := by
  have hread := hr.keeps (((Keeps.refl s : Keeps Drop.card ∅ (fun _ : Bearing => ()) s s).readDrop hr.lenient (i * 32 + n) (answersOf f)).onSeg
    (i := i) (f := fun x => { x with conflict := x.conflict ||| BitVec.ofNat 32 (2 ^ n) }))
  unfold answersOf at hread hresult
  unfold State.enumerateDrop
  simp only [beq_eq_false_iff_ne.mpr hr.state, beq_eq_false_iff_ne.mpr hread.state, hresult, Bool.false_eq_true, if_false, if_true]
  rfl

end

/-- A number without a drop is not enumerated, and its segment stands as before. -/
theorem State.unlisted_keeps (s : State) (g i : Nat) (hd : tblRising s.drops = true) (hs : tblRising s.segs = true) :
    ((s.unlisted g).drop g).found = false ∧ ((s.unlisted g).seg i).conflict = (s.seg i).conflict := by
  have hkept : Keeps (fun _ : Drop => ()) {g} id s (s.unlisted g) := Keeps.ite ((Keeps.refl s).loseDrop rfl) (Keeps.refl s)
  refine ⟨?_, congrArg Bearing.conflict ((hkept.segs hs).2 i)⟩
  unfold State.unlisted
  split
  · obtain ⟨hcard, -⟩ := Drop.link_eq_iff.mp (s.loseDrop_link g hd)
    simp only [Drop.card, Prod.mk.injEq] at hcard
    obtain ⟨hstate, -⟩ := hcard
    rw [Drop.found, hstate]
    rfl
  · next hfound => simpa using hfound

/-- A number with a good descriptor is on record with it. -/
theorem State.numberFound_keeps (s : State) (i n : Nat) (f : Option EnumFinding) (ws : List W16) (hl : Lenient s) (hd : tblRising s.drops = true)
    (hs : tblRising s.segs = true) :
    ((s.numberFound i n f ws).drop (i * 32 + n)).desc = some (descriptorOf ws) ∧ ((s.numberFound i n f ws).drop (i * 32 + n)).found = true ∧
      ((s.numberFound i n f ws).seg i).conflict = (s.seg i).conflict := by
  have hread := s.numberRead_keeps i n f hl
  have hsegs : Keeps (fun _ : Drop => ()) Set.univ id s (s.numberFound i n f ws) :=
    ((((Keeps.refl s).readDrop hl (i * 32 + n) (answersOf f)).onDrop fun _ => rfl).record (Set.mem_univ _)).signalSeg
  unfold State.numberFound at hsegs ⊢
  have hfound := (s.numberRead i n f).foundState_ne_absent (i * 32 + n)
  have hrising := hread.dropsRising hd
  generalize s.numberRead i n f = u at hsegs hfound hrising ⊢
  generalize hstate : (if (u.drop (i * 32 + n)).state = .absent then u.foundState (i * 32 + n) else (u.drop (i * 32 + n)).state) = st at hsegs ⊢
  have hne : st ≠ .absent := by
    rw [← hstate]
    split
    · exact hfound
    · assumption
  have hset := u.rising_onDrop (i * 32 + n) (fun d => { d with state := st, colant2 := false }) hrising
  have hdrop : ((u.onDrop (i * 32 + n) fun d => { d with state := st, colant2 := false }).drop (i * 32 + n)).state = st := by
    rw [u.drop_onDrop_same _ _ hrising]
  generalize (u.onDrop (i * 32 + n) fun d => { d with state := st, colant2 := false }) = x at hsegs hset hdrop ⊢
  have hrecorded := x.record_card (i * 32 + n) (descriptorOf ws) hset
  have hxs : Keeps (fun _ : Drop => ()) {i * 32 + n} (fun _ : Bearing => ()) x (x.record (i * 32 + n) (descriptorOf ws)) := (Keeps.refl x).record rfl
  have hkept : Keeps Drop.card ∅ (fun _ : Bearing => ()) (x.record (i * 32 + n) (descriptorOf ws))
      ((x.record (i * 32 + n) (descriptorOf ws)).signalSeg i 2) := (Keeps.refl _).signalSeg
  have hcard := (hkept.view (hxs.dropsRising hset) (i * 32 + n)).trans hrecorded
  simp only [Drop.card, Prod.mk.injEq, hdrop] at hcard
  obtain ⟨hst, hdesc, -⟩ := hcard
  refine ⟨hdesc, ?_, congrArg Bearing.conflict ((hsegs.segs hs).2 i)⟩
  rw [Drop.found, hst, hdesc, Option.isSome_some, Bool.and_true]
  exact bne_iff_ne.mpr hne

theorem getLsbD_or_bit (x : W32) (m : Nat) {n : Nat} (hn : n < 32) : (x ||| BitVec.ofNat 32 (2 ^ m)).getLsbD n = (x.getLsbD n || decide (m = n)) := by
  rw [BitVec.getLsbD_or, BitVec.getLsbD_ofNat, Nat.testBit_two_pow, decide_eq_true hn, Bool.true_and]

/-- A drop number that is read is shown as its attempts have it (R112). -/
theorem State.enumerateDrop_shown (s : State) (i n : Nat) (f : Option EnumFinding) (hn : n < 32) (hr : Readable s (i * 32 + n))
    (hs : tblRising s.segs = true) (hclear : (s.seg i).conflict.getLsbD n = false) :
    (readResult ((answersOf f).attempts.map (attemptOf n))).1.Shown ((s.enumerateDrop i n f).drop (i * 32 + n))
      (((s.enumerateDrop i n f).seg i).conflict.getLsbD n) := by
  have hresult := s.readDrop_result (answersOf f) hr
  rw [show (i * 32 + n) % 32 = n by omega] at hresult
  have hread := s.numberRead_keeps i n f hr.lenient
  have hconflict : ((s.numberRead i n f).seg i).conflict = (s.seg i).conflict := congrArg Bearing.conflict ((hread.segs hs).2 i)
  have hrising := hread.dropsRising hr.rising
  have hrisingSegs := (hread.segs hs).1
  cases hcase : (readResult ((answersOf f).attempts.map (attemptOf n))).1 with
  | found ws =>
    obtain ⟨hdesc, hfound, hbits⟩ := s.numberFound_keeps i n f ws hr.lenient hr.rising hs
    rw [s.enumerateDrop_found i n f hr (hresult.trans hcase), hbits, hclear]
    refine ⟨fun ws' hws => ?_, fun h => (by cases h), fun h => (by cases h)⟩
    cases hws
    exact ⟨hdesc, hfound, rfl⟩
  | empty =>
    obtain ⟨hfound, hbits⟩ := (s.numberRead i n f).unlisted_keeps (i * 32 + n) i hrising hrisingSegs
    rw [s.enumerateDrop_empty i n f hr (hresult.trans hcase), hbits, hconflict, hclear]
    exact ⟨fun ws hws => (by cases hws), fun _ => ⟨hfound, rfl⟩, fun h => (by cases h)⟩
  | conflict =>
    have hmarked : ((s.numberMarked i n f).seg i).conflict = (s.seg i).conflict ||| BitVec.ofNat 32 (2 ^ n) := by
      unfold State.numberMarked
      rw [State.seg_onSeg_same _ i _ hrisingSegs, hconflict]
    obtain ⟨hfound, hbits⟩ := (s.numberMarked i n f).unlisted_keeps (i * 32 + n) i hrising (tblRising_set _ _ _ _ hrisingSegs)
    rw [s.enumerateDrop_conflict i n f hr (hresult.trans hcase), hbits, hmarked]
    have hbit : ((s.seg i).conflict ||| BitVec.ofNat 32 (2 ^ n)).getLsbD n = true := by simp only [getLsbD_or_bit _ n hn, decide_true, Bool.or_true]
    exact ⟨fun ws hws => (by cases hws), fun h => (by cases h), fun _ => ⟨hfound, hbit⟩⟩

/-! ### All of an enumeration -/

theorem Keeps.enumRead (h : Keeps v K w s t) (hl : Lenient s) {i : Nat} {l : List EnumFinding} {ns : List Nat} (hg : ∀ m ∈ ns, i * 32 + m ∈ K)
    (hw : ∀ m ∈ ns, ∀ b : Bearing, w { b with conflict := b.conflict ||| BitVec.ofNat 32 (2 ^ m) } = w b) : Keeps v K w s (t.enumRead i l ns) :=
  h.foldl fun _ m hm hu => hu.enumerateDrop hl (hg m hm) (hw m hm)

/-- Other numbers leave number n's record and its bit of the conflicts. -/
theorem Keeps.enumRead_others (s : State) (hl : Lenient s) (i n : Nat) (l : List EnumFinding) {ns : List Nat} (hn : n < 32) (hns : n ∉ ns) :
    Keeps id {g | g ≠ i * 32 + n} (fun b => b.conflict.getLsbD n) s (s.enumRead i l ns) := by
  have hne : ∀ m ∈ ns, m ≠ n := fun m hm h => hns (h ▸ hm)
  refine (Keeps.refl s).enumRead hl (fun m hm h => hne m hm (by omega)) fun m hm b => ?_
  simp only [getLsbD_or_bit _ m hn, decide_eq_false (hne m hm), Bool.or_false]

/-- Of all numbers read, each is shown as its own attempts have it. -/
theorem State.enumRead_shown (s : State) (i n : Nat) (l : List EnumFinding) (hn : n < 32) (hr : Readable s (i * 32 + n)) (hs : tblRising s.segs = true)
    (hclear : (s.seg i).conflict.getLsbD n = false) :
    (readResult ((attemptsOf l n).map (attemptOf n))).1.Shown ((s.enumRead i l (List.range 32)).drop (i * 32 + n))
      (((s.enumRead i l (List.range 32)).seg i).conflict.getLsbD n) := by
  obtain ⟨before, after, hrange⟩ := List.append_of_mem (List.mem_range.mpr hn)
  have hnodup : (before ++ n :: after).Nodup := hrange ▸ List.nodup_range
  have hbefore : n ∉ before := fun h => (List.nodup_append.mp hnodup).2.2 n h n List.mem_cons_self rfl
  have hafter : n ∉ after := (List.nodup_cons.mp (List.nodup_append.mp hnodup).2.1).1
  have hself : i * 32 + n ∉ {g | g ≠ i * 32 + n} := fun h => h rfl
  have heq : s.enumRead i l (List.range 32) =
      ((s.enumRead i l before).enumerateDrop i n (findingOf l n)).enumRead i l after := by
    unfold State.enumRead
    rw [hrange, List.foldl_append, List.foldl_cons]
  have hkept := Keeps.enumRead_others s hr.lenient i n l hn hbefore
  have hdrop : (s.enumRead i l before).drop (i * 32 + n) = s.drop (i * 32 + n) := (hkept.drops hr.rising).2 _ hself
  obtain ⟨hsBefore, hbitBefore⟩ := hkept.segs hs
  have hready : Readable (s.enumRead i l before) (i * 32 + n) := ⟨hkept.lenient hr.lenient, hkept.dropsRising hr.rising, by rw [hdrop]; exact hr.state⟩
  have hshown := (s.enumRead i l before).enumerateDrop_shown i n (findingOf l n) hn hready hsBefore ((hbitBefore i).trans hclear)
  have hstep : Keeps (fun _ : Drop => ()) Set.univ (fun _ : Bearing => ()) (s.enumRead i l before)
      ((s.enumRead i l before).enumerateDrop i n (findingOf l n)) := (Keeps.refl _).enumerateDrop hready.lenient (Set.mem_univ _) fun _ => rfl
  have hlast := Keeps.enumRead_others _ (hstep.lenient hready.lenient) i n l hn hafter
  have hdropLast : (s.enumRead i l (List.range 32)).drop (i * 32 + n) =
      ((s.enumRead i l before).enumerateDrop i n (findingOf l n)).drop (i * 32 + n) := by
    rw [heq]
    exact (hlast.drops (hstep.dropsRising hready.rising)).2 _ hself
  have hbitLast : ((s.enumRead i l (List.range 32)).seg i).conflict.getLsbD n =
      (((s.enumRead i l before).enumerateDrop i n (findingOf l n)).seg i).conflict.getLsbD n := by
    rw [heq]
    exact (hlast.segs (hstep.segs hsBefore).1).2 i
  rw [answersOf_attempts] at hshown
  rw [hdropLast, hbitLast]
  exact hshown

theorem Keeps.enumBegun (s : State) (i : Nat) : Keeps id ∅ (fun _ : Bearing => ()) s (s.enumBegun i) :=
  Keeps.enumOpened (Keeps.refl s).emit.clockStarted

theorem State.enumBegun_seg (s : State) (i : Nat) (hs : tblRising s.segs = true) : tblRising (s.enumBegun i).segs = true ∧
    ((s.enumBegun i).seg i).clk = true ∧ ((s.enumBegun i).seg i).conflict = 0 := by
  have hemitted : tblRising (s.emit (.clkStart i)).segs = true := by rwa [State.emit_segs]
  have hkept : Keeps id ∅ id ((s.emit (.clkStart i)).clockStarted i) (s.enumBegun i) := Keeps.enumOpened (Keeps.refl _)
  have hset := (((Keeps.refl _ : Keeps id ∅ (fun _ : Bearing => ()) (s.emit (.clkStart i)) _).clockStarted (i := i)).segs hemitted).1
  obtain ⟨hrising, hbearing⟩ := hkept.segs hset
  have hstarted : (((s.emit (.clkStart i)).clockStarted i).seg i).clk = true ∧ (((s.emit (.clkStart i)).clockStarted i).seg i).conflict = 0 := by
    unfold State.clockStarted
    rw [State.seg_onSeg_same _ i _ hemitted]
    exact ⟨rfl, rfl⟩
  exact ⟨hrising, (congrArg Bearing.clk (hbearing i)).trans hstarted.1, (congrArg Bearing.conflict (hbearing i)).trans hstarted.2⟩

section
variable {s : State} {i : Nat} (l : List EnumFinding) (hl : Lenient s) (hthresh : s.flt.winSeg.thresh = 0)
include hl hthresh

/-- What follows the reading of the numbers leaves who each drop is. -/
theorem Keeps.enumRest (hv : ∀ x y : Drop, (x.state, x.desc) = (y.state, y.desc) → v x = v y)
    (hw : ∀ b : Bearing, w { b with enumerated := true } = w b) : Keeps v K w s (((s.enumMeasured i l).enumMarked i).enumClosed i) := by
  unfold State.enumMarked
  exact (((Keeps.refl s).enumMeasured hl hv).onSeg fun x => hw x.bearing).enumClosed hthresh

/-- The segment is enumerated, and its clock runs on. -/
theorem State.enumRest_seg (hs : tblRising s.segs = true) (hclk : (s.seg i).clk = true) :
    ((((s.enumMeasured i l).enumMarked i).enumClosed i).seg i).clk = true ∧
      ((((s.enumMeasured i l).enumMarked i).enumClosed i).seg i).enumerated = true := by
  have hmeasured : Keeps (fun _ : Drop => ()) ∅ id s (s.enumMeasured i l) := (Keeps.refl s).enumMeasured hl fun _ _ _ => rfl
  obtain ⟨hrising, hbearing⟩ := hmeasured.segs hs
  have hmarked : ((s.enumMeasured i l).enumMarked i).seg i = { (s.enumMeasured i l).seg i with enumerated := true } := State.seg_onSeg_same _ i _ hrising
  have hthresh' : ((s.enumMeasured i l).enumMarked i).flt.winSeg.thresh = 0 := (congrArg WinCfg.thresh hmeasured.winSeg).trans hthresh
  have hclosed : Keeps (fun _ : Drop => ()) ∅ id ((s.enumMeasured i l).enumMarked i) (((s.enumMeasured i l).enumMarked i).enumClosed i) :=
    (Keeps.refl _).enumClosed hthresh'
  have hlast := (hclosed.segs (tblRising_set _ _ _ _ hrising)).2 i
  rw [hmarked] at hlast
  exact ⟨(congrArg Bearing.clk hlast).trans ((congrArg Bearing.clk (hbearing i)).trans hclk), congrArg Bearing.enumerated hlast⟩

/-- Each number is shown at the end as it was read. -/
theorem State.enumRest_shown (hd : tblRising s.drops = true) (hs : tblRising s.segs = true) {r : DropRead} {n : Nat} {g : Nat}
    (hshown : r.Shown (s.drop g) ((s.seg i).conflict.getLsbD n)) :
    r.Shown ((((s.enumMeasured i l).enumMarked i).enumClosed i).drop g)
      (((((s.enumMeasured i l).enumMarked i).enumClosed i).seg i).conflict.getLsbD n) := by
  have hrest : Keeps (fun d : Drop => (d.state, d.desc)) ∅ (fun b => b.conflict.getLsbD n) s (((s.enumMeasured i l).enumMarked i).enumClosed i) :=
    Keeps.enumRest l hl hthresh (fun _ _ h => h) fun _ => rfl
  have hbit := (hrest.segs hs).2 i
  have hrecord := hrest.view hd g
  generalize ((s.enumMeasured i l).enumMarked i).enumClosed i = u at hbit hrecord
  dsimp only [Segment.bearing] at hbit
  rw [hbit]
  exact hshown.of_record hrecord

end

/-- An enumeration starts CLK, and each drop number that is not RETIRED is on record, or not, as its attempts have it (R112). -/
theorem State.enumerated_ends (s : State) (i : Nat) (l : List EnumFinding) (hl : Lenient s) (hthresh : s.flt.winSeg.thresh = 0)
    (hd : tblRising s.drops = true) (hs : tblRising s.segs = true) :
    ((s.enumerated i l).seg i).clk = true ∧ ((s.enumerated i l).seg i).enumerated = true ∧
      (∃ more, (s.enumerated i l).out = s.out ++ .clkStart i :: more) ∧
      ∀ n, n < 32 → (s.drop (i * 32 + n)).state ≠ .retired →
        (readResult ((attemptsOf l n).map (attemptOf n))).1.Shown ((s.enumerated i l).drop (i * 32 + n))
          (((s.enumerated i l).seg i).conflict.getLsbD n) := by
  have hbegun := Keeps.enumBegun s i
  obtain ⟨hsBegun, hclk, hconflict⟩ := s.enumBegun_seg i hs
  have hopened : Keeps (fun _ : Drop => ()) Set.univ (fun _ : Bearing => ()) (s.emit (.clkStart i)) (s.enumBegun i) :=
    Keeps.enumOpened (Keeps.refl _).clockStarted
  have hread : Keeps (fun _ : Drop => ()) Set.univ Bearing.clk (s.enumBegun i) ((s.enumBegun i).enumRead i l (List.range 32)) :=
    (Keeps.refl _).enumRead (hbegun.lenient hl) (fun _ _ => Set.mem_univ _) fun _ _ _ => rfl
  have hshown := fun n hn hr => (s.enumBegun i).enumRead_shown i n l hn hr hsBegun (by rw [hconflict]; simp)
  unfold State.enumerated
  generalize (s.enumBegun i).enumRead i l (List.range 32) = u at hread hshown
  obtain ⟨hsRead, hclkRead⟩ := hread.segs hsBegun
  dsimp only [Segment.bearing] at hclkRead
  have hdRead := hread.dropsRising (hbegun.dropsRising hd)
  have hlRead := hread.lenient (hbegun.lenient hl)
  have hthreshRead := (congrArg WinCfg.thresh (hread.winSeg.trans hbegun.winSeg)).trans hthresh
  obtain ⟨hclkEnd, henum⟩ := State.enumRest_seg l hlRead hthreshRead hsRead ((hclkRead i).trans hclk)
  refine ⟨hclkEnd, henum, ?_, fun n hn hstate => State.enumRest_shown l hlRead hthreshRead hdRead hsRead (hshown n hn ⟨hbegun.lenient hl,
    hbegun.dropsRising hd, ?_⟩)⟩
  · have hrest : Keeps (fun _ : Drop => ()) ∅ (fun _ : Bearing => ()) u (((u.enumMeasured i l).enumMarked i).enumClosed i) :=
      Keeps.enumRest l hlRead hthreshRead (fun _ _ _ => rfl) fun _ => rfl
    obtain ⟨more, hmore⟩ := (hopened.out.trans hread.out).trans hrest.out
    rw [State.emit_out, List.append_assoc] at hmore
    exact ⟨more, hmore.symm⟩
  · have hdrop : (s.enumBegun i).drop (i * 32 + n) = s.drop (i * 32 + n) := hbegun.view hd _
    rwa [hdrop]

/-- Settles O26: a reset by its steps; an enumeration by what each of its drop numbers is read as, which the rest of it leaves. -/
theorem segmentsAreResetAndEnumerated : Obligations.SegmentsAreResetAndEnumerated := by
  refine ⟨fun i s hr hretired => ⟨fun hdue => ?reset, fun k hsince hcause hdue => exec_noAnswerReset_due i s hretired hsince hcause hdue⟩,
    fun i l s hr hretired hclk hoff hphase hseg hdrop hpair => ?enumeration⟩
  case reset =>
    obtain ⟨-, hs, hd, -⟩ := hr
    exact ⟨exec_segmentReset_due i s hretired hdue, s.resetSegment_resets i hs hd⟩
  case enumeration =>
    obtain ⟨-, hs, hd, -⟩ := hr
    obtain ⟨hclk', henum, hout, hshown⟩ := s.enumerated_ends i l ⟨hdrop, hpair⟩ hseg hd hs
    exact ⟨s.enumerated i l, exec_segmentEnumeration_due i l s hretired hclk hoff hphase, hclk', henum, hout, hshown⟩

end Sys2Proof.Machine
end

section
/-! Register accesses by whole DWords, through BAR0 and in control space (O60). -/

namespace Sys2Proof.Machine

open Sys2Proof

/-! ### Through BAR0 (R122, R123, R192) -/

section
variable (s : State) (p : PartId) {x : RegAccess}

theorem State.barAccess_withheld (hlink : s.linkHeld p x.isRead = true) : s.barAccess p x = s := by
  simp [State.barAccess, hlink]

theorem State.barAccess_closedWrite (hwrite : x.isRead = false) (hlink : s.linkHeld p false = false) (hopen : s.hostOpen p = false) :
    s.barAccess p x = s.dropWrite p := by
  simp [State.barAccess, hwrite, hlink, hopen]

/-- A write that is too long or misaligned sets BAR0_SIZE. -/
theorem State.barAccess_missizedWrite (hwrite : x.isRead = false) (hlink : s.linkHeld p false = false) (hopen : s.hostOpen p = true)
    (hsize : accSized x = false) : s.barAccess p x = s.onPart p (·.setErr 1) := by
  simp [State.barAccess, hwrite, hlink, hopen, hsize]

/-- Of an access of the right size, a write's whole DWords are written, and each other one sets BAR0_PARTIAL. -/
theorem State.barAccess_write (hwrite : x.isRead = false) (hlink : s.linkHeld p false = false) (hopen : s.hostOpen p = true)
    (hsize : accSized x = true) : s.barAccess p x = x.data.zipIdx.foldl (fun s e =>
      if x.enables e.2 = 15 then s.writeBar p (x.addr.toNat + 4 * e.2) e.1 else s.onPart p (·.setErr 0)) s := by
  simp [State.barAccess, hwrite, hlink, hopen, hsize]

theorem State.barAccess_read (hread : x.isRead = true) (hlink : s.linkHeld p true = false) (hopen : s.hostOpen p = true)
    (hsize : accSized x = true) : s.barAccess p x = x.data.zipIdx.foldl (fun s e =>
      (s.latchBar p p (x.addr.toNat + 4 * e.2)).emit (.regData (.host p) (BitVec.ofNat 32 (s.bar0 p p (x.addr.toNat + 4 * e.2))))) s := by
  simp [State.barAccess, hread, hlink, hopen, hsize]

end

/-- One DWord is of the right size exactly where its address is aligned. -/
theorem accSized_dword (isRead : Bool) (a v : W32) (fb lb : BitVec 4) :
    accSized { isRead := isRead, addr := a, data := [v], firstBE := fb, lastBE := lb } = (a.toNat % 4 == 0) := by
  simp [accSized]

/-! ### In control space (R427, R437, R510) -/

/-- Where bank pair 10 has no entry, CC0 and CC1 reach all of control space (R427). -/
theorem State.controlOk_vendorCore (s : State) (c : CtlCore) (k : AccKind) (addr v : Nat) (hc : c.val < 2) (hpair : (s.pair 10).active = [])
    (hk : k ≠ .fetch) : s.controlOk (.core c) k addr v = true := by
  have hfind : (s.pair 10).find 1 addr = none := by simp [BankPair.find, regionsOf, hpair]
  simp [State.controlOk, State.guardOk, hc, hfind, vendorMap_control _ _ _ hk]

/-- Supervisor cores are not barred from the registers that tasks do not reach. -/
theorem State.taskBarred_vendorCore (s : State) (c : CtlCore) (addr : Nat) (hc : c.val < 2) : s.taskBarred (.core c) addr = false := by
  have hsup : ¬ 2 ≤ c.val := by omega
  simp [State.taskBarred, hsup]

/-- A vendor core's whole aligned DWord is written. -/
theorem State.ctlAccess_vendorWrite (s : State) (c : CtlCore) {x : RegAccess} {v : W32} (hc : c.val < 2) (hpair : (s.pair 10).active = [])
    (hwrite : x.isRead = false) (hdata : x.data = [v]) (hwhole : x.firstBE = 15) (ha : x.addr.toNat % 4 = 0) :
    s.ctlAccess (.core c) x = s.writeCtl (.core c) x.addr.toNat v := by
  have hbytes : x.bytes = [0, 1, 2, 3] := by simp [RegAccess.bytes, RegAccess.enables, hdata, hwhole, List.range_succ]
  have haligned : x.aligned = true := by rw [RegAccess.aligned, hbytes]; rfl
  have hsize : accSized x = true := by simp [accSized, hdata, ha]
  have hok := fun addr v => s.controlOk_vendorCore c .write addr v hc hpair (by decide)
  simp [State.ctlAccess, hsize, haligned, hok, hwrite, hdata, RegAccess.enables, hwhole, s.taskBarred_vendorCore c _ hc]

/-- Settles O60: an access through BAR0 by what keeps it from being taken, then by its size and enables; a core's write by its address. -/
theorem registerAccessesAreWholeDWords : Obligations.RegisterAccessesAreWholeDWords := by
  intro p s a v fb lb
  refine ⟨fun hheld => ?held, fun hlink hclosed => ?closed, fun hlink hlinkRead hopen ha => ⟨?whole, fun hfb => ?notWhole, ?read⟩,
    fun hlink hopen ha => ?misaligned, fun c hc hpair => ?selector⟩
  all_goals rw [exec_registerWrite]; refine congrArg Host.Outcome.next ?_
  case held => exact s.barAccess_withheld p hheld
  case closed => exact s.barAccess_closedWrite p rfl hlink hclosed
  case whole =>
    rw [s.barAccess_write p rfl hlink hopen (by rw [accSized_dword, ha]; rfl)]
    rfl
  case notWhole =>
    rw [s.barAccess_write p rfl hlink hopen (by rw [accSized_dword, ha]; rfl)]
    exact if_neg hfb
  case read =>
    rw [s.barAccess_read p rfl hlinkRead hopen (by rw [accSized_dword, ha]; rfl)]
    rfl
  case misaligned => exact s.barAccess_missizedWrite p rfl hlink hopen (by rw [accSized_dword]; exact beq_false_of_ne ha)
  case selector =>
    have haddr : (0x10060100 : W32).toNat = ctlDec + 0x100 := by decide
    rw [s.ctlAccess_vendorWrite c hc hpair rfl rfl rfl (by rw [haddr]; rfl), haddr]
    rfl

end Sys2Proof.Machine
end

section
/-! Readiness, power states, PME and L1 of a partition (O38). -/

namespace Sys2Proof.Machine

open Sys2Proof

/-! ### What leaves when DMA may run again (R125, R129, R130) -/

/-- A function's power state with PME_En, the Sheepdog timer, and the PME messages it has sent. -/
def powerOf : Nat → Partition → DState × Bool × Bool × Nat × W16 := fun _ x => (x.dstate, x.pmeEn, x.hbPaused, x.hbTick, x.pmeSent)

theorem deaf_powerOf : Deaf powerOf := fun _ _ => rfl

namespace Spares

theorem releaseHeld_power (s : State) (p : Nat) : Spares powerOf s (s.releaseHeld p) :=
  after (foldl_of _ (fun t _ => emit deaf_powerOf t _) _ _) (onPart s p _ rfl)

theorem sendPending_power (s : State) (p : Nat) : Spares powerOf s (s.sendPending p) := by
  unfold State.sendPending
  exact ite (refl s) (foldl_of _ (fun t _ => after (emit deaf_powerOf _ _) (onPart t p _ rfl)) _ s)

theorem flushOne_power (s : State) (p : Nat) : Spares powerOf s (s.flushOne State.bell p) := by
  unfold State.flushOne
  dsimp only
  split
  · exact ite (after (writeLog deaf_powerOf (bell deaf_powerOf) _ p _) (onPart s p _ rfl)) (refl s)
  · exact refl s

theorem flushLog_power (s : State) (p : Nat) : Spares powerOf s (s.flushLog p) :=
  after (putGap deaf_powerOf (bell deaf_powerOf) _ p) (foldl_of _ (fun t _ => flushOne_power t p) _ s)

theorem fetch_power (s : State) (p r : Nat) : Spares powerOf s (s.fetch p r) := by
  unfold State.fetch
  exact ite (refl s) (after (startRead deaf_powerOf _ p _ _ _) (onPart s p _ rfl))

theorem resumeDma_power (s : State) (p : Nat) : Spares powerOf s (s.resumeDma p) := by
  unfold State.resumeDma
  refine ite ?_ (refl s)
  exact ((((releaseHeld_power s p).trans (sendPending_power _ p)).trans (flushLog_power _ p)).trans (sendReads deaf_powerOf _ p)).trans
    (foldl_of _ (fun t r => fetch_power t p r) _ _)

theorem l1OnD3hot_power (s : State) (p : Nat) : Spares powerOf s (s.l1OnD3hot p) := by
  unfold State.l1OnD3hot
  exact ite (foldl_of _ (fun t q => onNotes deaf_powerOf t q _ rfl) _ s) (refl s)

end Spares

/-! ### Writes of the power management control (R128–R130) -/

/-- Until the partition is ready a configuration write is answered with Configuration Request Retry Status (R119). -/
theorem State.cfgWrite_retried (s : State) (p : Nat) (f : State → State) (hp : s.map.hasPart p = true) (hready : (s.part p).ready = false)
    (hlink : s.linkHeld p true = false) : s.cfgWrite p f = .next (s.emit (.cfgRetry p)) := by
  simp [State.cfgWrite, hp, hready, hlink]

/-- The state when a write of the power management control has arrived: the link is out of L1 and the PME bits are written. -/
def State.pmWritten (s : State) (p : Nat) (pmeEn clearPme : Bool) : State :=
  (s.onPart p fun x => { x with inL1 := false, idleTick := s.tick }).onPart p (·.pmeWrite pmeEn clearPme)

theorem State.pmWritten_part (s : State) (p : Nat) (pmeEn clearPme : Bool) (hr : tblRising s.parts = true) :
    tblRising (s.pmWritten p pmeEn clearPme).parts = true ∧ (s.pmWritten p pmeEn clearPme).part p =
      { s.part p with inL1 := false, idleTick := s.tick }.pmeWrite pmeEn clearPme := by
  have hr' := s.rising_onPart p (fun x => { x with inL1 := false, idleTick := s.tick }) hr
  refine ⟨State.rising_onPart _ p _ hr', ?_⟩
  rw [State.pmWritten, State.part_onPart_same _ p _ hr', s.part_onPart_same p _ hr]

/-- The return to D0 restarts the Sheepdog timer where the function was in D3hot, and is no change in D0. -/
theorem State.returnD0_power (s : State) (p : Nat) (hr : tblRising s.parts = true) :
    powerOf p ((s.returnD0 p).part p) =
      if (s.part p).dstate = .d0 then powerOf p (s.part p) else (.d0, (s.part p).pmeEn, false, s.tick, (s.part p).pmeSent) := by
  unfold State.returnD0
  split
  · rfl
  · rw [((Spares.resumeDma_power _ p).parts (s.rising_onPart p _ hr)).2 p, s.part_onPart_same p _ hr]
    rfl

/-- D3hot is entered, and the Sheepdog timer pauses where the function was not there already (R129). -/
theorem State.enterD3_power (s : State) (p : Nat) (hr : tblRising s.parts = true) :
    powerOf p (((s.onPart p (·.enterD3)).l1OnD3hot p).part p) =
      (.d3hot, (s.part p).pmeEn, if (s.part p).dstate = .d3hot then (s.part p).hbPaused else true, (s.part p).hbTick, (s.part p).pmeSent) := by
  rw [((Spares.l1OnD3hot_power _ p).parts (s.rising_onPart p _ hr)).2 p, s.part_onPart_same p _ hr]
  unfold Partition.enterD3
  split <;> simp [powerOf, *]

/-- What a PowerState that is written does (R128, R129). -/
def State.powerSet (s : State) (p : Nat) (n : BitVec 2) : State :=
  if n = 3 then (s.onPart p (·.enterD3)).l1OnD3hot p else if n = 0 then s.returnD0 p else s

/-- PowerState 3 is D3hot, 0 is D0, and D1 and D2 are ignored (R128, R129). -/
theorem State.powerSet_part (s : State) (p : Nat) (n : BitVec 2) (hr : tblRising s.parts = true) :
    ((s.powerSet p n).part p).dstate = (if n = 3 then .d3hot else if n = 0 then .d0 else (s.part p).dstate) ∧
      ((s.powerSet p n).part p).pmeEn = (s.part p).pmeEn ∧
      (n = 3 → (s.part p).dstate = .d0 → ((s.powerSet p n).part p).hbPaused = true) := by
  unfold State.powerSet
  by_cases h3 : n = 3
  · have hpower := s.enterD3_power p hr
    simp only [powerOf, Prod.mk.injEq] at hpower
    obtain ⟨hstate, hpme, hpaused, -⟩ := hpower
    simp only [if_pos h3]
    exact ⟨hstate, hpme, fun _ hd0 => by rw [hpaused, hd0]; rfl⟩
  · by_cases h0 : n = 0
    · have hpower := s.returnD0_power p hr
      simp only [if_neg h3, if_pos h0]
      split at hpower
      all_goals
        simp only [powerOf, Prod.mk.injEq] at hpower
        obtain ⟨hstate, hpme, -⟩ := hpower
      case isTrue hd0 => exact ⟨hstate.trans hd0, hpme, fun h => absurd h h3⟩
      case isFalse => exact ⟨hstate, hpme, fun h => absurd h h3⟩
    · simp only [h3, h0, if_false, false_implies, and_self]

section
variable (s : State) (p : PartId) (hr : tblRising s.parts = true) (hp : s.map.hasPart p = true) (hready : (s.part p).ready = true)
  (hlink : s.linkHeld p true = false)
include hr hp hready hlink

theorem d3hotEntry_powers (w : PmWrite) : ∃ t, exec (.d3hotEntry p w) s = .next t ∧
    (t.part p).dstate = (if w.power = 3 then .d3hot else if w.power = 0 then .d0 else (s.part p).dstate) ∧ (t.part p).pmeEn = w.pmeEn ∧
    (w.power = 3 → (s.part p).dstate = .d0 → (t.part p).hbPaused = true) := by
  obtain ⟨hr', hpart⟩ := s.pmWritten_part p w.pmeEn w.clearPme hr
  have hset := (s.pmWritten p w.pmeEn w.clearPme).powerSet_part p w.power hr'
  rw [hpart] at hset
  exact ⟨_, (exec_d3hotEntry s p w).trans (s.cfgWrite_taken p _ hp hready hlink), hset⟩

/-- D0 restarts the Sheepdog timer with its full interval (R129, R130). -/
theorem d0Return_powers (w : D0Write) (hw : w.part = p) : ∃ t, exec (.d0Return w) s = .next t ∧ (t.part p).dstate = .d0 ∧
    (t.part p).pmeEn = w.pmeEn ∧ ((s.part p).dstate = .d3hot → (t.part p).hbPaused = false ∧ (t.part p).hbTick = s.tick) := by
  subst hw
  obtain ⟨hr', hpart⟩ := s.pmWritten_part w.part w.pmeEn w.clearPme hr
  refine ⟨(s.pmWritten w.part w.pmeEn w.clearPme).returnD0 w.part, (exec_d0Return s w).trans (s.cfgWrite_taken w.part _ hp hready hlink), ?_⟩
  have hpower := (s.pmWritten w.part w.pmeEn w.clearPme).returnD0_power w.part hr'
  rw [hpart] at hpower
  split at hpower
  all_goals
    simp only [powerOf, Prod.mk.injEq] at hpower
    obtain ⟨hstate, hpme, hpaused, htick, -⟩ := hpower
  case isTrue hd0 => exact ⟨hstate.trans hd0, hpme, fun h3 => absurd (h3.symm.trans hd0) (by decide)⟩
  case isFalse => exact ⟨hstate, hpme, fun _ => ⟨hpaused, htick⟩⟩

end

/-! ### Readiness, PME messages and L1 (R119, R130, R131) -/

/-- Once start-up has completed a partition whose link nothing holds down becomes ready (R119). -/
theorem partitionReady_readies (p : PartId) (s : State) (hr : tblRising s.parts = true) (hp : s.map.hasPart p = true)
    (hphase : s.boot.phase = .running) (hready : (s.part p).ready = false) (hheld : s.held p = false) :
    ∃ t, exec (.partitionReady p) s = .next t ∧ (t.part p).ready = true ∧ (t.part p).linkUp = true ∧ (t.part p).l0Tick = some s.tick := by
  have hguard : (!s.map.hasPart p || s.boot.phase != .running || (s.part p).ready || s.held p) = false := by
    simp [hp, hphase, hready, hheld]
  refine ⟨_, (exec_partitionReady s p).trans (if_neg (by simp [hguard])), ?_⟩
  rw [s.part_onPart_same p _ hr]
  exact ⟨rfl, rfl, rfl⟩

/-- In D3hot a PME message is sent again after 100 ms while PME_Status stays 1 (R130). -/
theorem pmeResend_sends (p : PartId) (s : State) (k : Nat) (hr : tblRising s.parts = true) (htick : (s.part p).pmeTick = some k)
    (hstate : (s.part p).dstate = .d3hot) (hstatus : (s.part p).pmeStatus = true) (hdue : k + 10000000 ≤ s.tick) :
    ∃ t, exec (.pmeResend p) s = .next t ∧ t.out = s.out ++ [.pme p] ∧ (t.part p).pmeSent = satInc (s.part p).pmeSent := by
  have hpast : s.past k (ticksOfMs 100) = true := decide_eq_true hdue
  refine ⟨(s.onPart p fun y => { y with pmeSent := satInc y.pmeSent, pmeTick := some s.tick }).emit (.pme p), ?_, State.emit_out _ _, ?_⟩
  · simp [exec_pmeResend, execPmeResend, htick, hstate, hstatus, hpast]
  · have hpower := ((Spares.emit deaf_powerOf _ (.pme p)).parts
      (s.rising_onPart p (fun y => { y with pmeSent := satInc y.pmeSent, pmeTick := some s.tick }) hr)).2 p
    rw [s.part_onPart_same p _ hr] at hpower
    simp only [powerOf, Prod.mk.injEq] at hpower
    obtain ⟨-, -, -, -, hsent⟩ := hpower
    exact hsent

/-- A link with one function on it enters L1 once that has had nothing to send and nothing outstanding for 32 µs (R131). -/
theorem aspmL1Entry_enters (p : PartId) (l : LinkId) (s : State) (hparts : s.map.partsOf l = [p.val]) (hup : (s.part p).linkUp = true)
    (hen : (s.part p).aspmEn = true) (hidle : (s.part p).idleTick + 3200 ≤ s.tick) (hdma : ∀ d ∈ s.dma, d.part ≠ p.val)
    (hposted : (s.bridge p).guestPosted = []) : exec (.aspmL1Entry l) s = .next (s.onPart p fun x => { x with inL1 := true }) := by
  have hpast : s.past (s.part p).idleTick (ticksOfUs 32) = true := decide_eq_true hidle
  have hnone : (s.dma.all fun d => d.part != p.val) = true := by simpa using hdma
  simp [exec_aspmL1Entry, execAspmL1Entry, hparts, hup, hen, hpast, hnone, hposted]

/-- Settles O38: readiness by its conditions, a PowerState write by the state it names, and each link event from its own. -/
theorem linkAndPowerEvents : Obligations.LinkAndPowerEvents := by
  intro p s hrising hp
  obtain ⟨hr, -⟩ := hrising
  refine ⟨partitionReady_readies p s hr hp,
    fun hready hlink => ⟨d3hotEntry_powers s p hr hp hready hlink, d0Return_powers s p hr hp hready hlink⟩,
    fun hready hlink => ⟨fun w => ?entry, fun w hw => ?ret⟩,
    fun k => pmeResend_sends p s k hr, exec_pmeTurnOff s, fun l => aspmL1Entry_enters p l s⟩
  case entry => exact (exec_d3hotEntry s p w).trans (s.cfgWrite_retried p _ hp hready hlink)
  case ret =>
    subst hw
    exact (exec_d0Return s w).trans (s.cfgWrite_retried w.part _ hp hready hlink)

end Sys2Proof.Machine
end

section
/-! Poisoned writes, and reads of host memory that end (O37). -/

namespace Sys2Proof.Machine

open Sys2Proof

/-! ### The end of a request (R117, R135) -/

/-- A function's rings and its host error register. -/
def ringsAndErrs : Nat → Partition → Tbl Ring × BitVec 5 := fun _ x => (x.rings, x.hstErr)

theorem deaf_ringsAndErrs : Deaf ringsAndErrs := fun _ _ => rfl

/-- The state when a request has ended, before another leaves in its place. -/
def State.requestMarked (s : State) (d : DmaRead) (x : ReadResult) : State :=
  ({ s with dma := if d.dropped then s.dma.filter fun y => y.id != d.id
                   else s.dma.map fun y => if y.id = d.id then { y with result := some x } else y } : State).onPart d.part
    fun y => { y with idleTick := s.tick }

theorem State.endRequest_eq (s : State) (d : DmaRead) (x : ReadResult) : s.endRequest d x =
    let t := (s.requestMarked d x).sendRead d.part
    let l := t.dma.filter fun y => y.read == d.read
    if d.dropped || l.any (fun y => y.result.isNone) then (t, none)
    else ({ t with dma := t.dma.filter fun y => y.read != d.read }, some (joinResults l)) := rfl

/-- The end of a request leaves the rings and the error register of its function. -/
theorem Spares.endRequest (s : State) (d : DmaRead) (x : ReadResult) : Spares ringsAndErrs s (s.endRequest d x).1 := by
  have hended : Spares ringsAndErrs s ((s.requestMarked d x).sendRead d.part) :=
    after (sendRead deaf_ringsAndErrs _ _) (after (onNotes deaf_ringsAndErrs _ _ _ rfl) (of_told rfl))
  rw [s.endRequest_eq]
  dsimp only
  split
  · exact hended
  · exact hended.trans (of_told rfl)

/-- Another request that leaves keeps how each has ended. -/
theorem State.mem_sendRead {s : State} {p : Nat} {d : DmaRead} (h : d ∈ s.dma) :
    ∃ e ∈ (s.sendRead p).dma, e.read = d.read ∧ e.result = d.result := by
  unfold State.sendRead
  split
  · split
    · rename_i w _ _
      refine ⟨if d.id = w.id then { d with sent := true } else d, ?_, ?_⟩
      · rw [State.emit_dma]
        exact List.mem_map_of_mem h
      · split <;> exact ⟨rfl, rfl⟩
    · exact ⟨d, h, rfl, rfl⟩
  · exact ⟨d, h, rfl, rfl⟩

/-- A read of which some request has failed has no data. -/
theorem joinResults_failed {l : List DmaRead} {d : DmaRead} {x : ReadResult} (h : d ∈ l) (hresult : d.result = some x)
    (hfail : ∀ b, x ≠ .data b) (b : List Byte) : joinResults l ≠ .data b := by
  unfold joinResults
  split
  · rename_i y hfirst
    obtain ⟨e, -, he⟩ := List.exists_of_findSome?_eq_some hfirst
    rintro rfl
    split at he
    · exact absurd he (by simp)
    · rename_i hdata
      exact hdata b he
  · rename_i hnone
    have hd := List.findSome?_eq_none_iff.mp hnone d h
    rw [hresult] at hd
    cases x with
    | data c => exact absurd rfl (hfail c)
    | poisoned | timeout | unsupported | abort => simp at hd

/-- A read one of whose requests has failed ends, with its last request, without data. -/
theorem State.endRequest_failed (s : State) (d : DmaRead) (x y : ReadResult) (hd : d ∈ s.dma) (hfail : ∀ b, x ≠ .data b)
    (hends : (s.endRequest d x).2 = some y) (b : List Byte) : y ≠ .data b := by
  rw [s.endRequest_eq] at hends
  dsimp only at hends
  split at hends
  · exact absurd hends (by simp)
  · rename_i hdone
    obtain ⟨hkept, -⟩ := Bool.or_eq_false_iff.mp (Bool.not_eq_true _ ▸ hdone)
    have hmarked : { d with result := some x } ∈ (s.requestMarked d x).dma := by
      rw [State.requestMarked, State.onPart_dma, if_neg (Bool.eq_false_iff.mp hkept)]
      exact List.mem_map.mpr ⟨d, hd, if_pos rfl⟩
    obtain ⟨e, he, hread, hresult⟩ := State.mem_sendRead (p := d.part) hmarked
    rw [← Option.some.inj hends]
    exact joinResults_failed (List.mem_filter.mpr ⟨he, by simp [hread]⟩) hresult hfail b

/-! ### A ring's fetch (R143, R146) -/

section
variable {s : State} {d : DmaRead} (hfind : (s.dma.find? fun x => x.id == d.id && x.open) = some d)
include hfind

/-- A result that cannot end the request is ignored. -/
theorem exec_dmaReadCompletion_ignored {x : ReadResult} (hends : s.endsWith d x = false) : exec (.dmaReadCompletion d.id x) s = .next s := by
  simp [exec_dmaReadCompletion, execDmaReadCompletion, hfind, hends]

/-- The request of a ring's read ends, and with the last one the read. -/
theorem exec_dmaReadCompletion_ends {x : ReadResult} (hends : s.endsWith d x = true) (hring : ∀ p seg, d.purpose ≠ .guest p seg) :
    exec (.dmaReadCompletion d.id x) s = .next
      (((s.endRequest d x).2.map (((s.endRequest d x).1.readFailed d.part x).readEnds d)).getD ((s.endRequest d x).1.readFailed d.part x)) := by
  rw [exec_dmaReadCompletion]
  unfold execDmaReadCompletion
  rw [hfind]
  cases hpurpose : d.purpose with
  | guest p seg => exact absurd hpurpose (hring p seg)
  | fetch | command => simp [hends]

/-- Data of the request's length end it. -/
theorem exec_dmaReadCompletion_data {b : List Byte} (hlen : b.length = d.len) (hring : ∀ p seg, d.purpose ≠ .guest p seg) :
    exec (.dmaReadCompletion d.id (.data b)) s =
      .next (((s.endRequest d (.data b)).2.map ((s.endRequest d (.data b)).1.readEnds d)).getD (s.endRequest d (.data b)).1) :=
  exec_dmaReadCompletion_ends hfind (beq_iff_eq.mpr hlen) hring

end

theorem State.readEnds_fetched (s : State) {d : DmaRead} {p r first count : Nat} (hpurpose : d.purpose = .fetch p r first count) (b : List Byte) :
    s.readEnds d (.data b) = s.fetchDone p r first count b := by
  unfold State.readEnds
  rw [hpurpose]

theorem State.readEnds_fetchFailed (s : State) {d : DmaRead} {p r first count : Nat} (hpurpose : d.purpose = .fetch p r first count)
    {x : ReadResult} (hfail : ∀ b, x ≠ .data b) : s.readEnds d x = s.fetchFailed p r := by
  unfold State.readEnds
  rw [hpurpose]
  cases x with
  | data b => exact absurd rfl (hfail b)
  | poisoned | timeout | unsupported | abort => rfl

theorem State.readEnds_command (s : State) {d : DmaRead} {p r : Nat} (hpurpose : d.purpose = .command p r) (b : List Byte) :
    s.readEnds d (.data b) = s.commandRead p r d.read (some b) := by
  unfold State.readEnds
  rw [hpurpose]

theorem State.ring_onRing_same (s : State) (p r : Nat) (f : Ring → Ring) (hparts : tblRising s.parts = true)
    (hrings : tblRising (s.part p).rings = true) : (s.onRing p r f).ring p r = f (s.ring p r) := by
  unfold State.ring State.onRing
  rw [s.part_onPart_same p _ hparts]
  exact tblGet_set_same _ _ _ _ hrings

/-- A Completion Timeout of a fetch: it is to be tried again, or with a second failure the ring is in ERROR; HST_ERR.DMA_FAIL sets (R135, R146). -/
theorem State.fetchTimeout (s : State) (p r : Nat) (hparts : tblRising s.parts = true) (hrings : tblRising (s.part p).rings = true) :
    let t := (s.readFailed p .timeout).fetchFailed p r
    (t.ring p r) = (if (s.ring p r).retried then { s.ring p r with reading := 0, state := .error }
                    else { s.ring p r with reading := 0, retryTick := some s.tick }) ∧ (t.part p).hstErr = (s.part p).hstErr ||| 16 := by
  have hpart : (s.readFailed p .timeout).part p = { (s.part p).setErr 4 with aer := { (s.part p).aer with timeout := true } } :=
    s.part_onPart_same p _ hparts
  have hparts' : tblRising (s.readFailed p .timeout).parts = true := s.rising_onPart p _ hparts
  have hring : (s.readFailed p .timeout).ring p r = s.ring p r := by unfold State.ring; rw [hpart]; rfl
  refine ⟨?_, ?_⟩
  · rw [State.fetchFailed, State.ring_onRing_same _ p r _ hparts' (by rw [hpart]; exact hrings), hring]
    rfl
  · rw [State.fetchFailed, State.onRing, State.part_onPart_same _ p _ hparts', hpart]
    rfl

section
variable {s : State} {d : DmaRead} {p : PartId} {r : RingId} {first count : Nat}
  (hfind : (s.dma.find? fun x => x.id == d.id && x.open) = some d) (hpurpose : d.purpose = .fetch p r first count)
include hfind hpurpose

/-- A fetch whose last request ends with a Completion Timeout has failed. -/
theorem exec_dmaReadCompletion_timeout (hon : (s.part p).dev.timeoutOff = false) (hlast : (s.endRequest d .timeout).2.isSome = true) :
    exec (.dmaReadCompletion d.id .timeout) s = .next (((s.endRequest d .timeout).1.readFailed p .timeout).fetchFailed p r) := by
  have hpart : d.part = p := by rw [DmaRead.part, hpurpose]
  obtain ⟨y, hy⟩ := Option.isSome_iff_exists.mp hlast
  have hfailed := s.endRequest_failed d .timeout y (List.mem_of_find?_eq_some hfind) (fun _ => by simp) hy
  rw [exec_dmaReadCompletion_ends hfind (by simp [State.endsWith, hpart, hon]) (by simp [hpurpose]), hy, hpart, Option.map_some,
    Option.getD_some, State.readEnds_fetchFailed _ hpurpose hfailed]

/-- What a fetch's Completion Timeout leaves of its ring and the error register. -/
theorem fetch_timesOut (hparts : tblRising s.parts = true) (hrings : tblRising (s.part p).rings = true) (hon : (s.part p).dev.timeoutOff = false)
    (hlast : (s.endRequest d .timeout).2.isSome = true) : ∃ t, exec (.dmaReadCompletion d.id .timeout) s = .next t ∧
      (t.ring p r) = (if (s.ring p r).retried then { s.ring p r with reading := 0, state := .error }
                      else { s.ring p r with reading := 0, retryTick := some s.tick }) ∧ (t.part p).hstErr = (s.part p).hstErr ||| 16 := by
  have hspared := Spares.endRequest s d .timeout
  obtain ⟨hparts', hview⟩ := hspared.parts hparts
  obtain ⟨hrings', herr⟩ := Prod.mk.inj (hview p)
  have htick : (s.endRequest d .timeout).1.tick = s.tick := congrArg Timebase.tick hspared.tb
  have hend := (s.endRequest d .timeout).1.fetchTimeout p r hparts' (hrings' ▸ hrings)
  rw [State.ring_of_rings s _ p r hrings', herr, htick] at hend
  exact ⟨_, exec_dmaReadCompletion_timeout hfind hpurpose hon hlast, hend⟩

end

/-- Settles O37: a poisoned write by its one effect; a read's request by what it ends with, data or a Completion Timeout. -/
theorem poisonAndFetchReads : Obligations.PoisonAndFetchReads := by
  refine ⟨fun p s hrising hlink => ?poisoned, fun first count d p r s hfind hpurpose hrising hrings hactive => ⟨fun b hlen =>
    ⟨fun hmore => ?more, fun w hlast => ?fetched⟩, fun hon hlast => ⟨fun hretried => ?retry, fun hretried => ?error⟩, fun hoff => ?never⟩,
    fun d p r b w s hfind hpurpose hlen hlast => ?command⟩
  case poisoned =>
    refine ⟨_, (exec_poisonedWrite s p).trans (if_neg (by simp [hlink])), ?_, fun q hq => s.part_onPart_other p q _ hq, rfl⟩
    rw [s.part_onPart_same p _ hrising.1]
    rfl
  case more =>
    rw [exec_dmaReadCompletion_data hfind hlen (by simp [hpurpose]), hmore]
    rfl
  case fetched =>
    rw [exec_dmaReadCompletion_data hfind hlen (by simp [hpurpose]), hlast, Option.map_some, Option.getD_some, State.readEnds_fetched _ hpurpose]
  case command =>
    rw [exec_dmaReadCompletion_data hfind hlen (by simp [hpurpose]), hlast, Option.map_some, Option.getD_some, State.readEnds_command _ hpurpose]
  case retry =>
    obtain ⟨t, ht, hring, herr⟩ := fetch_timesOut hfind hpurpose hrising.1 hrings hon hlast
    rw [hretried] at hring
    refine ⟨t, ht, ?_, ?_, herr⟩ <;> rw [hring]
    · rfl
    · exact hactive
  case error =>
    obtain ⟨t, ht, hring, -⟩ := fetch_timesOut hfind hpurpose hrising.1 hrings hon hlast
    rw [hretried] at hring
    exact ⟨t, ht, by rw [hring]; rfl⟩
  case never => exact exec_dmaReadCompletion_ignored hfind (by simp [State.endsWith, DmaRead.part, hpurpose, hoff])

end Sys2Proof.Machine
end

section
/-! How a request's words are cut into runs (R188, R203), for O35. -/

namespace Sys2Proof.Machine

open Sys2Proof

/-- Part y goes on the run that ends with x: the next word in the same block of 64, decided alike through the same window and guard entry. -/
def Part.continuedBy (x y : Part) : Bool :=
  y.fate == x.fate && y.window == x.window && y.region == x.region && y.word == x.word + 1 && y.word % 64 != 0 && y.fate != .partialWord

/-- The runs so far, each and all of them with the latest first, once x has come. -/
def runsWith (acc : List (List Part)) (x : Part) : List (List Part) :=
  match acc with
  | (y :: ys) :: rest => if y.continuedBy x then (x :: y :: ys) :: rest else [x] :: (y :: ys) :: rest
  | _ => [x] :: acc

theorem runsOfParts_foldl (l : List Part) : runsOfParts l = (l.foldl runsWith []).reverse.map List.reverse := rfl

theorem runsWith_cons (x y : Part) (g : List Part) (gs : List (List Part)) :
    runsWith ((x :: g) :: gs) y = if x.continuedBy y then (y :: x :: g) :: gs else [y] :: (x :: g) :: gs := rfl

theorem runsWith_splitBy (l : List Part) : ∀ (x : Part) (g : List Part) (gs : List (List Part)),
    (l.foldl runsWith ((x :: g) :: gs)).reverse.map List.reverse = List.splitBy.loop Part.continuedBy l x g (gs.map List.reverse) := by
  induction l with
  | nil => intro x g gs; simp [List.splitBy.loop]
  | cons y l ih =>
    intro x g gs
    rw [List.foldl_cons, runsWith_cons, List.splitBy.loop]
    cases x.continuedBy y with
    | true => exact ih y (x :: g) gs
    | false => exact ih y [] ((x :: g) :: gs)

/-- The runs are the longest stretches of parts of which each goes on the run of the one before. -/
theorem runsOfParts_eq (l : List Part) : runsOfParts l = l.splitBy Part.continuedBy := by
  rw [runsOfParts_foldl]
  cases l with
  | nil => rfl
  | cons x l => exact runsWith_splitBy l x [] []

theorem Part.continuedBy_iff (x y : Part) : x.continuedBy y = true ↔ y.word = x.word + 1 ∧ y.word / 64 = x.word / 64 ∧ y.fate = x.fate ∧
    y.window = x.window ∧ y.region = x.region ∧ y.fate ≠ .partialWord := by
  have hblock : (y.word = x.word + 1 ∧ y.word % 64 ≠ 0) ↔ (y.word = x.word + 1 ∧ y.word / 64 = x.word / 64) := by omega
  simp only [Part.continuedBy, Bool.and_eq_true, beq_iff_eq, bne_iff_ne]
  tauto

theorem Part.not_continuedBy_iff (x y : Part) : x.continuedBy y = false ↔ y.word ≠ x.word + 1 ∨ y.word / 64 ≠ x.word / 64 ∨ y.fate ≠ x.fate ∨
    y.window ≠ x.window ∨ y.region ≠ x.region ∨ y.fate = .partialWord := by
  rw [← Bool.not_eq_true, x.continuedBy_iff y]
  tauto

theorem runsOfParts_flatten (l : List Part) : (runsOfParts l).flatten = l := by
  rw [runsOfParts_eq, List.flatten_splitBy]

theorem runsOfParts_ne_nil {l r : List Part} (hr : r ∈ runsOfParts l) : r ≠ [] := by
  rw [runsOfParts_eq] at hr
  exact List.ne_nil_of_mem_splitBy hr

/-- Within a run each word goes on the one before. -/
theorem runsOfParts_continued {l r a b : List Part} {x y : Part} (hr : r ∈ runsOfParts l) (hcut : r = a ++ x :: y :: b) :
    x.continuedBy y = true := by
  rw [runsOfParts_eq] at hr
  have hchain := List.isChain_of_mem_splitBy hr
  rw [hcut, List.isChain_append_cons_cons] at hchain
  exact hchain.2.1

/-- From one run to the next no word does. -/
theorem runsOfParts_cut {l r q : List Part} {a b : List (List Part)} {x y : Part} (hcut : runsOfParts l = a ++ (r ++ [x]) :: (y :: q) :: b) :
    x.continuedBy y = false := by
  have hchain := List.isChain_getLast_head_splitBy Part.continuedBy l
  rw [← runsOfParts_eq, hcut, List.isChain_append_cons_cons] at hchain
  obtain ⟨-, ⟨_, _, hnot⟩, -⟩ := hchain
  rwa [List.getLast_concat, List.head_cons] at hnot

/-- Parts of which each goes on the run of the one before are one run. -/
theorem runsOfParts_one {l : List Part} (hne : l ≠ []) (hchain : l.IsChain fun x y => x.continuedBy y) : runsOfParts l = [l] := by
  rw [runsOfParts_eq, List.splitBy_of_isChain hne hchain]

end Sys2Proof.Machine
end

section
/-! A DWord of a host window as the bridge's parts (R184–R188), for O35. -/

namespace Sys2Proof.Machine

open Sys2Proof

/-! ### Host halves and Colant words (R185, R186) -/

/-- Word address of the first of the two words that a DWord at a BAR2 offset is. -/
def Window.dwordAddr (w : Window) (off : Nat) : Nat := w.cbase + (off - w.haddr.toNat) / 4 * 2

/-- The two host halves of a DWord in the order of its words. -/
def Window.dwordHalves (w : Window) (off : Nat) : Nat × Nat :=
  if w.swap = 2 then (off / 2 + 1, off / 2) else (off / 2, off / 2 + 1)

/-- A DWord's two words in the order and with the bytes of the swap mode. -/
def dwordWords (swap : BitVec 2) (d : W32) : W16 × W16 :=
  if swap = 2 then (halfOf swap (d.extractLsb' 16 16), halfOf swap (d.extractLsb' 0 16))
  else (halfOf swap (d.extractLsb' 0 16), halfOf swap (d.extractLsb' 16 16))

/-- The bytes of a host half come from its word as the word's come from the half. -/
theorem halfOf_halfOf (swap : BitVec 2) (x : W16) : halfOf swap (halfOf swap x) = x := by
  unfold halfOf
  split
  · rw [BitVec.extractLsb'_append_eq_left, BitVec.extractLsb'_append_eq_right, BitVec.extractLsb'_append_extractLsb'_eq_extractLsb' (by rfl)]
    exact BitVec.extractLsb'_eq_self
  · rfl

/-- A DWord at a BAR2 offset lies in window k, w of partition p, whose drop is there. -/
structure DWordIn (s : State) (p off k : Nat) (w : Window) : Prop where
  aligned : off % 4 = 0
  low : (s.bridge p).windowAt (off / 2) = some (k, w)
  high : (s.bridge p).windowAt (off / 2 + 1) = some (k, w)
  base : w.haddr.toNat % 4 = 0
  even : w.cbase % 2 = 0
  present : s.dropState (w.seg * 32 + w.drop) = .active ∨ s.dropState (w.seg * 32 + w.drop) = .fallback

theorem Bridge.windowAt_base {b : Bridge} {half k : Nat} {w : Window} (h : b.windowAt half = some (k, w)) : w.haddr.toNat ≤ 2 * half := by
  have hholds := List.find?_some h
  simp only [Bool.and_eq_true, decide_eq_true_eq] at hholds
  exact hholds.1.2

section
variable {s : State} {p off k : Nat} {w : Window} (h : DWordIn s p off k w)
include h

theorem DWordIn.low_word : w.wordAt (2 * (off / 2) - w.haddr.toNat) = if w.swap = 2 then w.dwordAddr off + 1 else w.dwordAddr off := by
  have hbase := Bridge.windowAt_base h.low
  obtain ⟨haligned, -, -, hwindow, -, -⟩ := h
  unfold Window.wordAt Window.dwordAddr
  split <;> omega

theorem DWordIn.high_word :
    w.wordAt (2 * (off / 2 + 1) - w.haddr.toNat) = if w.swap = 2 then w.dwordAddr off else w.dwordAddr off + 1 := by
  have hbase := Bridge.windowAt_base h.low
  obtain ⟨haligned, -, -, hwindow, -, -⟩ := h
  unfold Window.wordAt Window.dwordAddr
  split <;> omega

theorem DWordIn.addr_even : w.dwordAddr off % 2 = 0 := by
  have heven := h.even
  unfold Window.dwordAddr
  omega

end

/-! ### The two parts -/

/-- The guard lets partition p's accesses to both words of a DWord at word address a pass. -/
def State.passesDWord (s : State) (p : Nat) (w : Window) (a : Nat) (kind : AccKind) : Prop :=
  ((s.pair p).user 2 (colantAddr w.seg w.drop a) kind).2 = true ∧ ((s.pair p).user 2 (colantAddr w.seg w.drop (a + 1)) kind).2 = true

/-- A half that is to be performed at a word of window k, w. -/
def Window.part (w : Window) (k half word : Nat) (region : Option Nat) (data : W16) : Part :=
  { half := half, fate := .pass, window := k, seg := w.seg, drop := w.drop, swap := w.swap, word := word, region := region, data := data }

/-- The parts of a DWord in word order; region gives the guard entry of a word. -/
def Window.dwordParts (w : Window) (k off : Nat) (d : W32) (region : Nat → Option Nat) : List Part :=
  [w.part k (w.dwordHalves off).1 (w.dwordAddr off) (region (w.dwordAddr off)) (dwordWords w.swap d).1,
   w.part k (w.dwordHalves off).2 (w.dwordAddr off + 1) (region (w.dwordAddr off + 1)) (dwordWords w.swap d).2]

/-- A whole half in a window, with a drop that is there, that the guard lets pass, is to be performed. -/
theorem State.decide1_passes (s : State) (p : Nat) {kind : AccKind} {half k word : Nat} {w : Window} (data : W16)
    (hwin : (s.bridge p).windowAt half = some (k, w)) (hword : w.wordAt (2 * half - w.haddr.toNat) = word)
    (hguard : ((s.pair p).user 2 (colantAddr w.seg w.drop word) kind).2 = true)
    (hdrop : s.dropState (w.seg * 32 + w.drop) = .active ∨ s.dropState (w.seg * 32 + w.drop) = .fallback) :
    s.decide1 p kind { half := half, lo := true, hi := true, data := data } =
      w.part k half word ((s.pair p).user 2 (colantAddr w.seg w.drop word) kind).1 (halfOf w.swap data) := by
  unfold State.decide1
  subst hword
  rcases hdrop with hdrop | hdrop <;> simp [hwin, hguard, hdrop, Window.part]

/-- The halves of a request for one whole DWord. -/
theorem requestHalves_dword (off : Nat) (data : List W32) (lastBE : BitVec 4) (ha : off % 4 = 0) : requestHalves off 1 data 15 lastBE =
    [{ half := off / 2, lo := true, hi := true, data := (data.getD 0 0).extractLsb' 0 16 },
     { half := off / 2 + 1, lo := true, hi := true, data := (data.getD 0 0).extractLsb' 16 16 }] := by
  have hhalf : off / 4 * 2 = off / 2 := by omega
  simp [requestHalves, enablesAt, hhalf]

/-- A request for a DWord's first byte has one half, with that byte. -/
theorem requestHalves_byte (off : Nat) (d : W32) (lastBE : BitVec 4) (ha : off % 4 = 0) : requestHalves off 1 [d] 1 lastBE =
    [{ half := off / 2, lo := true, hi := false, data := d.extractLsb' 0 16 }] := by
  have hhalf : off / 4 * 2 = off / 2 := by omega
  simp [requestHalves, enablesAt, hhalf]

/-- Two parts through one window stand in word order. -/
theorem orderParts_two (w : Window) (k : Nat) (half half' a b : Nat) (region region' : Option Nat) (d d' : W16) :
    orderParts [w.part k half a region d, w.part k half' b region' d'] =
      if a ≤ b then [w.part k half a region d, w.part k half' b region' d'] else [w.part k half' b region' d', w.part k half a region d] := by
  simp [orderParts, Window.part, List.insertionSort, List.orderedInsert]

theorem orderParts_single (x : Part) : orderParts [x] = [x] := by simp [orderParts]

/-- A whole DWord that the guard lets pass is its two words, in order. -/
theorem orderParts_dword {s : State} {p off k : Nat} {w : Window} (h : DWordIn s p off k w) {kind : AccKind} (data : List W32) (lastBE : BitVec 4)
    (hguard : s.passesDWord p w (w.dwordAddr off) kind) :
    orderParts ((requestHalves off 1 data 15 lastBE).map (s.decide1 p kind)) =
      w.dwordParts k off (data.getD 0 0) fun word => ((s.pair p).user 2 (colantAddr w.seg w.drop word) kind).1 := by
  obtain ⟨hfirst, hsecond⟩ := hguard
  have hlow := h.low_word
  have hhigh := h.high_word
  rw [requestHalves_dword off data lastBE h.aligned]
  by_cases hswap : w.swap = 2
  · rw [if_pos hswap] at hlow hhigh
    rw [List.map_cons, List.map_cons, List.map_nil, s.decide1_passes p _ h.low hlow hsecond h.present,
      s.decide1_passes p _ h.high hhigh hfirst h.present, orderParts_two, if_neg (Nat.not_succ_le_self _)]
    simp only [Window.dwordParts, Window.dwordHalves, dwordWords, if_pos hswap]
  · rw [if_neg hswap] at hlow hhigh
    rw [List.map_cons, List.map_cons, List.map_nil, s.decide1_passes p _ h.low hlow hfirst h.present,
      s.decide1_passes p _ h.high hhigh hsecond h.present, orderParts_two, if_pos (Nat.le_succ _)]
    simp only [Window.dwordParts, Window.dwordHalves, dwordWords, if_neg hswap]

/-- Once the guard has decided, the two words are one run. -/
theorem runsOfParts_dword (w : Window) (k off : Nat) (d : W32) (heven : w.dwordAddr off % 2 = 0) :
    runsOfParts (w.dwordParts k off d fun _ => none) = [w.dwordParts k off d fun _ => none] := by
  refine runsOfParts_one (by simp [Window.dwordParts]) ?_
  refine List.isChain_pair.mpr ((Part.continuedBy_iff _ _).mpr ⟨rfl, ?_, rfl, rfl, rfl, by simp [Window.part]⟩)
  show (w.dwordAddr off + 1) / 64 = w.dwordAddr off / 64
  omega

end Sys2Proof.Machine
end

section
/-! What the bridge makes of requests whose words are decided alike (R187–R192, R210, R211), for O35. -/

namespace Sys2Proof.Machine

open Sys2Proof

/-! ### The bridge's buffers -/

theorem State.rising_onBridge (s : State) (p : Nat) (f : Bridge → Bridge) (h : tblRising s.parts = true) :
    tblRising (s.onBridge p f).parts = true := s.rising_onPart p _ h

theorem State.bridge_onBridge_same (s : State) (p : Nat) (f : Bridge → Bridge) (h : tblRising s.parts = true) :
    (s.onBridge p f).bridge p = f (s.bridge p) := congrArg Partition.bridge (s.part_onPart_same p _ h)

/-- The bridge's waiting items, the semaphore's owner and who waits for it. -/
def Bridge.queues (b : Bridge) : List Item × SemOwner × List SemWaiter := (b.items, b.semOwner, b.semWaiting)

/-- The same of a partition. -/
def queuesOf : Nat → Partition → List Item × SemOwner × List SemWaiter := fun _ x => x.bridge.queues

theorem deaf_queuesOf : Deaf queuesOf := fun _ _ => rfl

namespace Spares

theorem onWin_queues (s : State) (p k : Nat) (f : Window → Window) : Spares queuesOf s (s.onWin p k f) := by
  unfold State.onWin State.onBridge
  refine onPart s p _ ?_
  dsimp only [queuesOf]
  split <;> rfl

theorem invalidate_queues (s : State) (p k : Nat) : Spares queuesOf s (s.invalidate p k) := by
  unfold State.invalidate
  split
  · exact refl s
  · exact ite ((onWin_queues s p k _).trans (signalUnit deaf_queuesOf _ _ _)) (onWin_queues s p k _)

theorem invalidateAll_queues (s : State) (p : Nat) (f : Window → Bool) : Spares queuesOf s (s.invalidateAll p f) :=
  foldl_of _ (fun u (e : Nat × Window) => invalidate_queues u p e.1) _ s

end Spares

/-- A command that reads ahead from a drop that is written does not keep what it brings. -/
def Item.spoiled (it : Item) (seg drop : Nat) : Item :=
  { it with cmds := it.cmds.map fun c => if c.seg = seg ∧ c.drop = drop then { c with fill := false } else c }

theorem State.spoilReads_eq (s : State) (p seg drop : Nat) : s.spoilReads p seg drop =
    (s.onBridge p fun b => { b with items := b.items.map (·.spoiled seg drop) }).invalidateAll p
      fun w => !w.guest && w.seg == seg && w.drop == drop := rfl

/-- A write to a drop leaves the buffers but for the read-ahead in them (R194, R205). -/
theorem State.spoilReads_keeps (s : State) (p seg drop : Nat) (hr : tblRising s.parts = true) :
    (s.spoilReads p seg drop).tick = s.tick ∧ tblRising (s.spoilReads p seg drop).parts = true ∧
      ((s.spoilReads p seg drop).bridge p).items = (s.bridge p).items.map (·.spoiled seg drop) ∧
      ((s.spoilReads p seg drop).bridge p).semOwner = (s.bridge p).semOwner ∧
      ((s.spoilReads p seg drop).bridge p).semWaiting = (s.bridge p).semWaiting := by
  have hspared := Spares.invalidateAll_queues (s.onBridge p fun b => { b with items := b.items.map (·.spoiled seg drop) }) p
    fun w => !w.guest && w.seg == seg && w.drop == drop
  obtain ⟨hr', hview⟩ := hspared.parts (s.rising_onBridge p _ hr)
  have hqueues := hview p
  rw [← State.spoilReads_eq] at hspared hr' hqueues
  rw [State.onBridge, s.part_onPart_same p _ hr] at hqueues
  simp only [queuesOf, Bridge.queues, Prod.mk.injEq] at hqueues
  refine ⟨congrArg Timebase.tick hspared.tb, hr', ?_⟩
  unfold State.bridge
  exact hqueues

/-! ### Host writes (R187, R188, R191) -/

/-- A part without the guard entry it lies in: entries that pass do not cut a command. -/
def Part.unbound (x : Part) : Part := { x with region := none }

/-- The next number is given out. -/
def State.numbered (s : State) : State := { s with nextId := s.nextId + 1 }

/-- The WRB of a run of two or more words that begins with x. -/
def Part.wrb (x : Part) (words : List W16) : ColCmd :=
  { op := .wrb, window := x.window, seg := x.seg, drop := x.drop, swap := x.swap, addr := x.word, len := words.length, data := words,
    halves := [], fill := false }

/-- The posted item of one command of a host write that nothing of which is refused. -/
def State.writeItem (s : State) (p : Nat) (c : ColCmd) : Item :=
  { id := s.nextId, arrival := s.tick, cmds := [c], issued := false, retries := 0, read := none, atomic := none, epoch := (s.pair p).epoch,
    windows := [c.window], write := s.nextId }

/-- A write that is one run of at least two words that pass waits as one WRB. -/
theorem State.acceptWrite_run (s : State) (p : Nat) {halves : List HalfReq} {x y : Part} {parts l : List Part}
    (hparts : orderParts (halves.map (s.decide1 p .write)) = parts) (hpass : ∀ z ∈ parts, z.fate = .pass)
    (hrun : runsOfParts (parts.map Part.unbound) = [x :: y :: l]) (hroom : s.postedFull p 1 = false) :
    s.acceptWrite p halves =
      some ((s.numbered.spoilReads p x.seg x.drop).addItem p (s.writeItem p (x.wrb ((x :: y :: l).map (·.data))))) := by
  have hx : x.fate = .pass := by
    have hmem : x ∈ parts.map Part.unbound := by rw [← runsOfParts_flatten (parts.map Part.unbound), hrun]; simp
    obtain ⟨z, hz, rfl⟩ := List.mem_map.mp hmem
    exact hpass z hz
  have hcleared : (parts.map fun z => if z.fate == .pass then { z with region := none } else z) = parts.map Part.unbound :=
    List.map_congr_left fun z hz => by simp [hpass z hz, Part.unbound]
  have hrefused : (parts.map Part.unbound).find? (fun z => z.fate == .refused) = none := by
    simpa [Part.unbound] using fun z hz => by simp [hpass z hz]
  have hcaptured : ((parts.map Part.unbound).any fun z => z.fate == .refused) = false := by
    simpa [Part.unbound] using fun z hz => by simp [hpass z hz]
  unfold State.acceptWrite
  simp only [hparts, hcleared, hrun, hrefused, hcaptured]
  simp [hx, hroom, State.newId, State.numbered, State.writeItem, Part.wrb, State.tick, State.pair]

/-- A write of one part that is not to be performed is journalled. -/
theorem State.acceptWrite_journalled (s : State) (p : Nat) {halves : List HalfReq} {x : Part}
    (hparts : orderParts (halves.map (s.decide1 p .write)) = [x]) (hpass : x.fate ≠ .pass) (hrefused : x.fate ≠ .refused)
    (hroom : s.postedFull p 1 = false) : s.acceptWrite p halves = some (s.journal p (x.journal x.fate.cause 1 0 false)) := by
  have hrun : runsOfParts [x] = [[x]] := runsOfParts_one (by simp) (List.isChain_singleton _)
  unfold State.acceptWrite
  simp [hparts, hrun, hpass, hrefused, hroom]

/-! ### Host reads (R187, R203) -/

/-- Parts that all pass are no failures of a read. -/
theorem partFails_passing {l : List Part} (hpass : ∀ x ∈ l, x.fate = .pass) : partFails l = [] := by
  unfold partFails
  rw [List.filterMap_eq_nil_iff]
  intro x hx
  obtain ⟨r, hr, hhead⟩ := List.mem_filterMap.mp hx
  have hmem : x ∈ l := by
    rw [← runsOfParts_flatten l]
    exact List.mem_flatten.mpr ⟨r, hr, List.mem_of_mem_head? hhead⟩
  simp [hpass x hmem]

/-- The windows of parts through one window are that window. -/
theorem windows_of_one {l : List Part} {k : Nat} (hne : l ≠ []) (hwindow : ∀ x ∈ l, x.window = k) : (l.map (·.window)).dedup = [k] := by
  rw [List.map_eq_replicate_iff.mpr hwindow]
  exact List.replicate_dedup (by simpa using hne)

/-- The item of a host read through window k of which nothing is refused and nothing was read ahead. -/
def State.readItem (s : State) (p k : Nat) (r : ReadReq) (cmds : List ColCmd) : Item :=
  { id := s.nextId, arrival := s.tick, cmds := cmds, issued := false, retries := 0, read := some r, atomic := none,
    epoch := (s.pair p).epoch, windows := [k], write := s.nextId }

/-- A read through one window that does not read ahead, whose every word passes, waits with a command for each run. -/
theorem State.acceptRead_direct (s : State) (p off n tag : Nat) {halves : List HalfReq} {parts : List Part} {k : Nat} {w : Window}
    (hparts : orderParts (halves.map (s.decide1 p .read)) = parts) (hne : parts ≠ []) (hpass : ∀ x ∈ parts, x.fate = .pass)
    (hwindow : ∀ x ∈ parts, x.window = k) (hwin : s.win p k = some w) (hahead : s.readsAhead w = false) (hroom : s.nonPostedFull p = false) :
    s.acceptRead p off n tag halves = some ((s.numbered.addItem p (s.readItem p k { off := off, dwords := n, tag := tag, got := [], fails := [] }
      ((runsOfParts (parts.map Part.unbound)).filterMap readCmd))).settleItem p s.nextId) := by
  obtain ⟨x, hx⟩ := List.exists_mem_of_ne_nil parts hne
  have hsome : (parts.all fun x => x.fate == .noWindow) = false := List.all_eq_false.mpr ⟨x, hx, by simp [hpass x hx]⟩
  have hrefused : (parts.find? fun y => y.fate == .refused) = none := by simpa using fun z hz => by simp [hpass z hz]
  have hcaptured : (parts.any fun y => y.fate == .refused) = false := by simpa using fun z hz => by simp [hpass z hz]
  have hgood : (parts.filter fun x => x.fate == .pass) = parts := List.filter_eq_self.mpr fun z hz => by simp [hpass z hz]
  have hcleared : (parts.map fun x => ({ x with region := none } : Part)) = parts.map Part.unbound := rfl
  have hclearedWindow : ∀ z ∈ parts.map Part.unbound, z.window = k := by
    intro z hz
    obtain ⟨y, hy, rfl⟩ := List.mem_map.mp hz
    exact hwindow y hy
  have hws : ((parts.map Part.unbound).map (·.window)).dedup = [k] := windows_of_one (by simpa using hne) hclearedWindow
  have hall : ((parts.map Part.unbound).filter fun x => x.window == k) = parts.map Part.unbound :=
    List.filter_eq_self.mpr fun z hz => by simp [hclearedWindow z hz]
  have hread : s.readWindow p k (parts.map Part.unbound) = ([], (runsOfParts (parts.map Part.unbound)).filterMap readCmd, []) := by
    simp [State.readWindow, hwin, hahead]
  unfold State.acceptRead
  simp only [hparts, hroom, hsome, hrefused, hcaptured, hgood, hcleared, hws, List.map_cons, List.map_nil, hall, hread, partFails_passing hpass,
    List.flatMap_cons, List.flatMap_nil, List.append_nil, List.foldl_nil, Bool.false_eq_true, if_false]
  rfl

/-- An item with commands to perform does not end. -/
theorem State.settleItem_waits (s : State) (p id : Nat) {it : Item} (hitem : s.item p id = some it) (hcmds : it.cmds ≠ []) :
    s.settleItem p id = s := by
  have hsome : it.cmds.isEmpty = false := by simpa using hcmds
  simp [State.settleItem, hitem, hsome]

theorem State.items_addItem (s : State) (p : Nat) (it : Item) (hr : tblRising s.parts = true) :
    ((s.addItem p it).bridge p).items = (s.bridge p).items ++ [it] := by
  rw [State.addItem, s.bridge_onBridge_same p _ hr]

/-- A new item is found by its number. -/
theorem State.item_addItem (s : State) (p : Nat) (it : Item) (hr : tblRising s.parts = true) (hnew : s.item p it.id = none) :
    (s.addItem p it).item p it.id = some it := by
  unfold State.item at hnew ⊢
  rw [s.items_addItem p it hr, List.find?_append, hnew]
  simp

/-! ### AtomicOps (R210, R211) -/

/-- An AtomicOp on n words from x's on that waits for the semaphore. -/
def Part.atomicRun (x : Part) (kind : AtomicKind) (n operand compare tag : Nat) : AtomicRun :=
  { kind := kind, n := n, operand := operand, compare := compare, tag := tag, step := 0, window := x.window, seg := x.seg, drop := x.drop,
    swap := x.swap, addr := x.word, got := [], fail := none }

/-- The item of an AtomicOp with the commands of its present step. -/
def State.atomicItem (s : State) (p : Nat) (a : AtomicRun) (cmds : List ColCmd) : Item :=
  { id := s.nextId, arrival := s.tick, cmds := cmds, issued := false, retries := 0, read := none, atomic := some a, epoch := (s.pair p).epoch,
    windows := [a.window], write := s.nextId }

/-- An AtomicOp whose every word passes waits for the semaphore, and takes it where it is free. -/
theorem State.acceptAtomic_run (s : State) (p off : Nat) (kind : AtomicKind) (bytes operand compare tag : Nat) {x : Part} {parts : List Part}
    (hparts : orderParts ((requestHalves off (bytes / 4) [] 15 15).map (s.decide1 p .locked)) = parts) (hfirst : parts.head? = some x)
    (hpass : ∀ z ∈ parts, z.fate = .pass) (hroom : s.nonPostedFull p = false) :
    let u := s.spoilReads p x.seg x.drop
    s.acceptAtomic p off kind bytes operand compare tag =
      some (((u.numbered.addItem p (u.atomicItem p (x.atomicRun kind (bytes / 2) operand compare tag) [])).onBridge p fun b =>
        { b with semWaiting := b.semWaiting ++ [.atomic u.nextId] }).grantSem p) := by
  have hnone : (parts.find? fun z => z.fate != .pass) = none := by
    rw [List.find?_eq_none]
    intro z hz
    simp [hpass z hz]
  unfold State.acceptAtomic
  simp only [hparts, hroom, hnone, hfirst]
  rfl

/-- An AtomicOp that holds the semaphore reads its words but for the first (R211 step 2). -/
def Item.atomicBegun (it : Item) : Item :=
  match it.atomic with
  | some a => { it with atomic := some { a with step := 2 }, cmds := [a.cmd .rdb 1 (a.n - 1) []] }
  | none => it

theorem State.bridge_atomicTakes (s : State) (p id : Nat) (hr : tblRising s.parts = true) : (s.atomicTakes p id).bridge p =
    { s.bridge p with semOwner := .atomic, items := (s.bridge p).items.map fun it => if it.id = id then it.atomicBegun else it } := by
  have howned := s.rising_onBridge p (fun b => { b with semOwner := .atomic }) hr
  unfold State.atomicTakes State.onItem
  rw [State.bridge_onBridge_same _ p _ howned]
  simp only [s.bridge_onBridge_same p _ hr]
  rfl

/-- The free semaphore goes to the one AtomicOp that waits. -/
theorem State.bridge_grantSem (s : State) (p id : Nat) (hr : tblRising s.parts = true) (howner : (s.bridge p).semOwner = .none)
    (hwaiting : (s.bridge p).semWaiting = [.atomic id]) : (s.grantSem p).bridge p =
      { s.bridge p with semOwner := .atomic, semWaiting := [],
                        items := (s.bridge p).items.map fun it => if it.id = id then it.atomicBegun else it } := by
  have hgrant : s.grantSem p = (s.onBridge p fun b => { b with semWaiting := [] }).atomicTakes p id := by
    rw [State.grantSem, if_pos howner, hwaiting]
    rfl
  rw [hgrant, State.bridge_atomicTakes _ p id (s.rising_onBridge p _ hr)]
  simp only [s.bridge_onBridge_same p _ hr]

/-- A new AtomicOp that finds the semaphore free takes it. -/
theorem State.atomic_takesFree (s : State) (p : Nat) (a : AtomicRun) (hr : tblRising s.parts = true) (howner : (s.bridge p).semOwner = .none)
    (hwaiting : (s.bridge p).semWaiting = []) :
    let t := ((s.numbered.addItem p (s.atomicItem p a [])).onBridge p fun b => { b with semWaiting := b.semWaiting ++ [.atomic s.nextId] }).grantSem p
    (t.bridge p).semOwner = .atomic ∧ (t.bridge p).items.getLast? = some (s.atomicItem p a []).atomicBegun := by
  have hadded : tblRising (s.numbered.addItem p (s.atomicItem p a [])).parts = true := s.numbered.rising_onBridge p _ hr
  have hitems : (s.numbered.addItem p (s.atomicItem p a [])).bridge p = { s.bridge p with items := (s.bridge p).items ++ [s.atomicItem p a []] } :=
    s.numbered.bridge_onBridge_same p _ hr
  generalize s.numbered.addItem p (s.atomicItem p a []) = u at hadded hitems
  have hwaits := u.bridge_onBridge_same p (fun b => { b with semWaiting := b.semWaiting ++ [.atomic s.nextId] }) hadded
  simp only [hitems, hwaiting, List.nil_append] at hwaits
  have hgrant := State.bridge_grantSem _ p s.nextId (u.rising_onBridge p _ hadded) (by rw [hwaits]; exact howner) (by rw [hwaits])
  rw [hwaits] at hgrant
  dsimp only
  rw [hgrant]
  refine ⟨rfl, ?_⟩
  rw [List.map_append, List.map_singleton, List.getLast?_concat]
  exact congrArg some (if_pos rfl)

end Sys2Proof.Machine
end

section
/-! Host requests that a function refuses or takes, and the commands of a DWord (O35). -/

namespace Sys2Proof.Machine

open Sys2Proof

/-! ### Requests that are refused (R116, R129, R135, R192) -/

section
variable (s : State) (p : PartId)

/-- A function that takes no request drops writes, and answers reads, zero-length reads and AtomicOps Unsupported Request. -/
theorem exec_host_closed (off : BitVec 34) (data : List W32) (fb lb : BitVec 4) (n tag bytes a b : Nat) (bar : BarId) (k : AtomicKind)
    (hclosed : s.hostOpen p = false) :
    (s.linkHeld p false = false → exec (.hostWrite p off data fb lb) s = .next (s.dropWrite p)) ∧
    (s.linkHeld p true = false →
      exec (.hostRead p off n fb lb tag) s = .next (s.emit (.cpl p tag .ur false [])) ∧
      exec (.zeroLengthRead p off tag) s = .next (s.emit (.cpl p tag .ur false [])) ∧
      exec (.atomicOp p bar off k bytes a b tag) s = .next (s.emit (.cpl p tag .ur false []))) := by
  refine ⟨fun hlink => ?_, fun hlink => ⟨?_, ?_, ?_⟩⟩
  · simp [exec_hostWrite, execHostWrite, hlink, hclosed]
  · simp [exec_hostRead, execHostRead, hlink, hclosed]
  · simp [exec_zeroLengthRead, execZeroLengthRead, hlink, hclosed]
  · simp [exec_atomicOp, execAtomicOp, hlink, hclosed]

/-- Where the link withholds the posted class's credits no write arrives. -/
theorem exec_hostWrite_withheld (off : BitVec 34) (data : List W32) (fb lb : BitVec 4) (hlink : s.linkHeld p false = true) :
    exec (.hostWrite p off data fb lb) s = .next s := by
  simp [exec_hostWrite, execHostWrite, hlink]

/-- Where it withholds those of the non-posted class no read or AtomicOp does. -/
theorem exec_nonPosted_withheld (off : BitVec 34) (fb lb : BitVec 4) (n tag bytes a b : Nat) (bar : BarId) (k : AtomicKind)
    (hlink : s.linkHeld p true = true) :
    exec (.hostRead p off n fb lb tag) s = .next s ∧ exec (.zeroLengthRead p off tag) s = .next s ∧
      exec (.atomicOp p bar off k bytes a b tag) s = .next s := by
  refine ⟨?_, ?_, ?_⟩
  · simp [exec_hostRead, execHostRead, hlink]
  · simp [exec_zeroLengthRead, execZeroLengthRead, hlink]
  · simp [exec_atomicOp, execAtomicOp, hlink]

end

/-! ### Requests that are taken (R127, R184, R190, R191) -/

section
variable {s : State} {p : PartId} {off : BitVec 34} (hopen : s.hostOpen p = true) (hoff : off.toNat < s.bar2Size p)
include hopen hoff

theorem exec_hostWrite_accepted (hlink : s.linkHeld p false = false) {data : List W32} {fb lb : BitVec 4} {t : State}
    (ht : s.acceptWrite p (requestHalves off.toNat data.length data fb lb) = some t) : exec (.hostWrite p off data fb lb) s = .next t := by
  simp [exec_hostWrite, execHostWrite, hlink, hopen, hoff, ht]

section
variable (hlink : s.linkHeld p true = false)
include hlink

theorem exec_hostRead_accepted {n tag : Nat} {fb lb : BitVec 4} {t : State}
    (ht : s.acceptRead p off.toNat n tag (requestHalves off.toNat n [] fb lb) = some t) : exec (.hostRead p off n fb lb tag) s = .next t := by
  simp [exec_hostRead, execHostRead, hlink, hopen, hoff, ht]

theorem exec_atomicOp_accepted {k : AtomicKind} {n a b tag : Nat} {t : State} (hn : n = 4 ∨ n = 8)
    (ht : s.acceptAtomic p off.toNat k n a b tag = some t) : exec (.atomicOp p .bar2 off k n a b tag) s = .next t := by
  have hsize : n ≠ 16 := by omega
  simp [exec_atomicOp, execAtomicOp, hlink, hopen, hoff, ht, hsize]

omit hoff in
/-- A zero-length read with no earlier posted write to its window's segment completes at once. -/
theorem exec_zeroLengthRead_flushed (tag : Nat) {e : Nat × Window} (hwin : (s.bridge p).windowAt (off.toNat / 2) = some e)
    (hposted : s.postedTo p e.2.seg = []) : exec (.zeroLengthRead p off tag) s = .next (s.emit (.cpl p tag .sc false [0, 0, 0, 0])) := by
  simp [exec_zeroLengthRead, execZeroLengthRead, hlink, hopen, hwin, hposted, leBytes, List.range_succ]

omit hoff in
/-- An AtomicOp outside BAR2, and a 128-bit CAS, is unsupported. -/
theorem exec_atomicOp_unsupported {bar : BarId} (k : AtomicKind) {n : Nat} (a b tag : Nat) (hbad : bar ≠ .bar2 ∨ n = 16) :
    exec (.atomicOp p bar off k n a b tag) s = .next ((s.onPart p (·.setErr 2)).emit (.cpl p tag .ur false [])) := by
  simp [exec_atomicOp, execAtomicOp, hlink, hopen, hbad]

end

end

/-! ### A DWord's words and bytes (R185–R187) -/

/-- The words of a DWord as a swap mode orders them and their bytes. -/
theorem dwordWords_list (swap : BitVec 2) (d : W32) :
    [(dwordWords swap d).1, (dwordWords swap d).2] =
      (if swap = 2 then [d.extractLsb' 16 16, d.extractLsb' 0 16]
       else if swap = 1 then [((d.extractLsb' 0 16).extractLsb' 0 8 ++ (d.extractLsb' 0 16).extractLsb' 8 8 : W16),
                              ((d.extractLsb' 16 16).extractLsb' 0 8 ++ (d.extractLsb' 16 16).extractLsb' 8 8 : W16)]
       else [d.extractLsb' 0 16, d.extractLsb' 16 16]) := by
  unfold dwordWords halfOf
  by_cases h2 : swap = 2
  · subst h2
    rfl
  · by_cases h1 : swap = 1
    · subst h1
      rfl
    · simp only [if_neg h2, if_neg h1]

theorem Window.dwordHalves_list (w : Window) (off : Nat) :
    [some (w.dwordHalves off).1, some (w.dwordHalves off).2] =
      (if w.swap = 2 then [some (off / 2 + 1), some (off / 2)] else [some (off / 2), some (off / 2 + 1)]) := by
  unfold Window.dwordHalves
  split <;> rfl

/-- A DWord's bytes are those of its lower and then of its upper half. -/
theorem leBytes_halves (d : W32) : leBytes (d.extractLsb' 0 16).toNat 2 ++ leBytes (d.extractLsb' 16 16).toNat 2 = leBytes d.toNat 4 := by
  have hd := d.isLt
  simp only [leBytes, List.range_succ, List.range_zero, List.map_cons, List.map_nil, List.nil_append, List.cons_append,
    BitVec.extractLsb'_toNat, List.cons.injEq, and_true]
  refine ⟨?_, ?_, ?_, ?_⟩ <;> apply BitVec.eq_of_toNat_eq <;> simp only [BitVec.toNat_ofNat, Nat.shiftRight_eq_div_pow] <;> omega

/-- What a DWord's two words answer is the DWord that was written as them. -/
theorem dwordWords_answer (w : Window) (off : Nat) (d : W32) :
    wordAt [((w.dwordHalves off).1, halfOf w.swap (dwordWords w.swap d).1), ((w.dwordHalves off).2, halfOf w.swap (dwordWords w.swap d).2)]
        (off / 2) = d.extractLsb' 0 16 ∧
      wordAt [((w.dwordHalves off).1, halfOf w.swap (dwordWords w.swap d).1), ((w.dwordHalves off).2, halfOf w.swap (dwordWords w.swap d).2)]
        (off / 2 + 1) = d.extractLsb' 16 16 := by
  unfold Window.dwordHalves dwordWords
  split <;> simp [wordAt, halfOf_halfOf]

/-- The completion of a DWord's read carries its four bytes. -/
theorem ReadReq.bytes_dword (r : ReadReq) (d : W32) (haligned : r.off % 4 = 0) (hone : r.dwords = 1)
    (hlow : wordAt r.got (r.off / 2) = d.extractLsb' 0 16) (hhigh : wordAt r.got (r.off / 2 + 1) = d.extractLsb' 16 16) :
    r.bytes = leBytes d.toNat 4 := by
  have hhalf : r.off / 4 * 2 = r.off / 2 := by omega
  rw [← leBytes_halves]
  simp [ReadReq.bytes, ReadReq.half, hone, hhalf, hlow, hhigh, List.range_succ]

/-! ### A DWord's requests -/

/-- Once the guard has decided, a DWord's parts are the same whatever entries it lies in. -/
theorem Window.dwordParts_unbound (w : Window) (k off : Nat) (d : W32) (region : Nat → Option Nat) :
    (w.dwordParts k off d region).map Part.unbound = w.dwordParts k off d fun _ => none := rfl

theorem Window.dwordParts_passing {w : Window} {k off : Nat} {d : W32} {region : Nat → Option Nat} {x : Part}
    (hx : x ∈ w.dwordParts k off d region) : x.fate = .pass ∧ x.window = k := by
  simp only [Window.dwordParts, List.mem_cons, List.not_mem_nil, or_false] at hx
  rcases hx with rfl | rfl <;> exact ⟨rfl, rfl⟩

/-- The RDB of a DWord's two words. -/
def Window.dwordRdb (w : Window) (k off : Nat) : ColCmd :=
  { op := .rdb, window := k, seg := w.seg, drop := w.drop, swap := w.swap, addr := w.dwordAddr off, len := 2, data := [],
    halves := [some (w.dwordHalves off).1, some (w.dwordHalves off).2], fill := false }

/-- The WRB of a DWord's two words. -/
def Window.dwordWrb (w : Window) (k off : Nat) (d : W32) : ColCmd :=
  { op := .wrb, window := k, seg := w.seg, drop := w.drop, swap := w.swap, addr := w.dwordAddr off, len := 2,
    data := [(dwordWords w.swap d).1, (dwordWords w.swap d).2], halves := [], fill := false }

section
variable {s : State} {p : PartId} {off : BitVec 34} {k : Nat} {w : Window} (h : DWordIn s p off.toNat k w) (hr : tblRising s.parts = true)
  (hopen : s.hostOpen p = true) (hoff : off.toNat < s.bar2Size p)
include h hopen hoff

include hr in
/-- A DWord that is written waits as one WRB. -/
theorem hostWrite_dword (d : W32) (hlink : s.linkHeld p false = false) (hroom : s.postedFull p 1 = false)
    (hpass : s.passesDWord p w (w.dwordAddr off.toNat) .write) : ∃ t, exec (.hostWrite p off [d] 15 0) s = .next t ∧
      (t.bridge p).items.length = (s.bridge p).items.length + 1 ∧
      (t.bridge p).items.getLast? = some (s.writeItem p (w.dwordWrb k off.toNat d)) := by
  have haccept := s.acceptWrite_run p (orderParts_dword h [d] 0 hpass) (fun _ hx => (Window.dwordParts_passing hx).1)
    (by rw [Window.dwordParts_unbound, runsOfParts_dword w k off.toNat _ h.addr_even]; rfl) hroom
  refine ⟨(s.numbered.spoilReads p w.seg w.drop).addItem p (s.writeItem p (w.dwordWrb k off.toNat d)),
    exec_hostWrite_accepted hopen hoff hlink haccept, ?_⟩
  obtain ⟨-, hr', hitems, -, -⟩ := s.numbered.spoilReads_keeps p w.seg w.drop hr
  rw [State.items_addItem _ p _ hr']
  refine ⟨?_, List.getLast?_concat⟩
  rw [List.length_append]
  exact congrArg (· + 1) ((congrArg List.length hitems).trans (List.length_map _))

/-- Where only the first byte of a DWord is written, the word that holds it is journalled as PARTIAL. -/
theorem hostWrite_byte (d : W32) (hlink : s.linkHeld p false = false) (hroom : s.postedFull p 1 = false) :
    exec (.hostWrite p off [d] 1 0) s = .next (s.journal p
      { seq := 0, cause := BitVec.ofNat 4 causePartial, nowin := false, dir := false, seg := w.seg, drop := w.drop, window := k, words := 0, nak := 0,
        addr := if w.swap = 2 then w.dwordAddr off.toNat + 1 else w.dwordAddr off.toNat, time := 0 }) := by
  have hword := h.low_word
  have hparts : orderParts ((requestHalves off.toNat [d].length [d] 1 0).map (s.decide1 p .write)) =
      [{ w.part k (off.toNat / 2) (if w.swap = 2 then w.dwordAddr off.toNat + 1 else w.dwordAddr off.toNat)
          ((s.pair p).user 2 (colantAddr w.seg w.drop (if w.swap = 2 then w.dwordAddr off.toNat + 1 else w.dwordAddr off.toNat)) .write).1
          (halfOf w.swap (d.extractLsb' 0 16)) with fate := .partialWord }] := by
    rw [List.length_singleton, requestHalves_byte off.toNat d 0 h.aligned, List.map_singleton, orderParts_single, ← hword]
    unfold State.decide1
    simp [h.low, Window.part]
  exact (exec_hostWrite_accepted hopen hoff hlink (s.acceptWrite_journalled p hparts (by simp) (by simp) hroom)).trans
    (congrArg (fun e => Host.Outcome.next (s.journal p e)) rfl)

section
variable (hlink : s.linkHeld p true = false) (hroom : s.nonPostedFull p = false)
include hlink hroom

include hr in
/-- A DWord that is read waits as one RDB. -/
theorem hostRead_dword (tag : Nat) (hwin : s.win p k = some w) (hahead : s.readsAhead w = false)
    (hpass : s.passesDWord p w (w.dwordAddr off.toNat) .read) : ∃ u : State,
      exec (.hostRead p off 1 15 0 tag) s = .next (u.settleItem p s.nextId) ∧
      (s.item p s.nextId = none → exec (.hostRead p off 1 15 0 tag) s = .next u) ∧
      (u.bridge p).items = (s.bridge p).items ++
        [s.readItem p k { off := off.toNat, dwords := 1, tag := tag, got := [], fails := [] } [w.dwordRdb k off.toNat]] := by
  have haccept := s.acceptRead_direct p off.toNat 1 tag (orderParts_dword h [] 0 hpass) (by simp [Window.dwordParts])
    (fun _ hx => (Window.dwordParts_passing hx).1) (fun _ hx => (Window.dwordParts_passing hx).2) hwin hahead hroom
  rw [Window.dwordParts_unbound, runsOfParts_dword w k off.toNat _ h.addr_even] at haccept
  have hexec := exec_hostRead_accepted hopen hoff hlink haccept
  refine ⟨_, hexec, fun hnew => hexec.trans (congrArg Host.Outcome.next ?_), s.numbered.items_addItem p _ hr⟩
  exact State.settleItem_waits _ p s.nextId (s.numbered.item_addItem p (s.readItem p k _ [w.dwordRdb k off.toNat]) hr hnew) (List.cons_ne_nil _ _)

include hr in
/-- An AtomicOp on a DWord that finds the semaphore free takes it and reads its second word. -/
theorem atomicOp_dword (kind : AtomicKind) (x y tag : Nat) (howner : (s.bridge p).semOwner = .none) (hwaiting : (s.bridge p).semWaiting = [])
    (hpass : s.passesDWord p w (w.dwordAddr off.toNat) .locked) :
    let u := s.spoilReads p w.seg w.drop
    ∃ t, exec (.atomicOp p .bar2 off kind 4 x y tag) s = .next t ∧ (t.bridge p).semOwner = .atomic ∧
      (t.bridge p).items.getLast? = some
        { id := u.nextId, arrival := s.tick, issued := false, retries := 0, read := none, epoch := (u.pair p).epoch, windows := [k],
          write := u.nextId,
          atomic := some { kind := kind, n := 2, operand := x, compare := y, tag := tag, step := 2, window := k, seg := w.seg, drop := w.drop,
                           swap := w.swap, addr := w.dwordAddr off.toNat, got := [], fail := none },
          cmds := [{ op := .rdb, window := k, seg := w.seg, drop := w.drop, swap := w.swap, addr := w.dwordAddr off.toNat + 1, len := 1, data := [],
                     halves := [], fill := false }] } := by
  have haccept := s.acceptAtomic_run p off.toNat kind 4 x y tag (orderParts_dword h [] 15 hpass) rfl
    (fun _ hx => (Window.dwordParts_passing hx).1) hroom
  obtain ⟨htick, hr', -, howner', hwaiting'⟩ := s.spoilReads_keeps p w.seg w.drop hr
  refine ⟨_, exec_atomicOp_accepted hopen hoff hlink (.inl rfl) haccept, ?_⟩
  obtain ⟨howned, hlast⟩ := State.atomic_takesFree _ p _ hr' (howner'.trans howner) (hwaiting'.trans hwaiting)
  refine ⟨howned, hlast.trans (congrArg some ?_)⟩
  rw [← htick]
  rfl

end

end

end Sys2Proof.Machine
end

section
/-! Host requests are taken or refused (O35). -/

namespace Sys2Proof.Machine

open Sys2Proof

/-- A link that brings a class's requests has room for one more. -/
theorem State.room_of_link {s : State} {p : Nat} :
    (s.linkHeld p false = false → s.postedFull p 1 = false) ∧ (s.linkHeld p true = false → s.nonPostedFull p = false) := by
  simp only [State.linkHeld, Bool.or_eq_false_iff]
  exact ⟨fun h => h.2, fun h => h.2⟩

/-- Settles O35: a request by whether the function takes it, its words by the runs they are cut into, and a DWord by its two words. -/
theorem hostRequestsAreTakenOrRefused : Obligations.HostRequestsAreTakenOrRefused := by
  refine ⟨fun p s off data fb lb n tag bytes a b bar k => ⟨exec_host_closed s p off data fb lb n tag bytes a b bar k,
      exec_hostWrite_withheld s p off data fb lb, exec_nonPosted_withheld s p off fb lb n tag bytes a b bar k⟩,
    fun p s off tag hopen hoff hwrite hread => ⟨fun _ _ _ _ => exec_hostWrite_accepted hopen hoff hwrite,
      fun _ _ _ _ => exec_hostRead_accepted hopen hoff hread, fun _ => exec_zeroLengthRead_flushed hopen hread tag,
      fun _ _ _ _ _ => exec_atomicOp_accepted hopen hoff hread, fun _ k _ a b => exec_atomicOp_unsupported hopen hread k a b tag⟩,
    fun l => ⟨runsOfParts_flatten l,
      fun _ hr => ⟨runsOfParts_ne_nil hr, fun _ x y _ hcut => (x.continuedBy_iff y).mp (runsOfParts_continued hr hcut)⟩,
      fun _ _ x y _ _ hcut => (x.not_continuedBy_iff y).mp (runsOfParts_cut hcut)⟩, ?_⟩
  intro p s off d tag k w hrising hopen hoff haligned hwrite hread hlow hhigh hwin hbase heven _ hdrop a lo hi flip words halves passes rdb r
  have h : DWordIn s p off.toNat k w := ⟨haligned, hlow, hhigh, hbase, heven, hdrop⟩
  have hwords : words = [(dwordWords w.swap d).1, (dwordWords w.swap d).2] := (dwordWords_list w.swap d).symm
  have hhalves : halves = [some (w.dwordHalves off.toNat).1, some (w.dwordHalves off.toNat).2] := (w.dwordHalves_list off.toNat).symm
  have hrdb : rdb = w.dwordRdb k off.toNat := by
    dsimp only [rdb]
    rw [hhalves]
    rfl
  refine ⟨fun hpass => ?write, hostWrite_byte h hopen hoff d hwrite (State.room_of_link.1 hwrite), fun hpass hahead => ?read, ?answer, ?atomic⟩
  case write =>
    rw [hwords]
    exact hostWrite_dword h hrising.1 hopen hoff d hwrite (State.room_of_link.1 hwrite) hpass
  case read =>
    rw [hrdb]
    exact hostRead_dword h hrising.1 hopen hoff hread (State.room_of_link.2 hread) tag hwin hahead hpass
  case answer =>
    obtain ⟨hfirst, hsecond⟩ := dwordWords_answer w off.toNat d
    rw [hwords, hhalves]
    exact ReadReq.bytes_dword _ d haligned rfl hfirst hsecond
  case atomic =>
    exact fun kind x y hpass howner hwaiting =>
      atomicOp_dword h hrising.1 hopen hoff hread (State.room_of_link.2 hread) kind x y tag howner hwaiting hpass

end Sys2Proof.Machine
end

section
/-! Every operation on the state keeps its tables rising (O2, O4). -/

namespace Sys2Proof.Machine

open Sys2Proof

/-- The tables that `State.Rising` speaks of. -/
def State.tables (s : State) : Tbl Partition × Tbl Segment × Tbl Drop × Tbl Stream × Tbl DecCore × Tbl Canvas × Tbl GateList × Tbl BankPair ×
    Tbl CustomerCore × Tbl Source × Tbl Group × Tbl EvcCore :=
  (s.parts, s.segs, s.drops, s.streams, s.cores, s.canvases, s.gates, s.pairs, s.cc, s.evc.sources, s.evc.groups, s.evc.cores)

/-- The state a command's answer leads to. -/
def CmdOut.after : CmdOut → State
  | .reply _ t => t
  | .hold _ t => t

/-- A command's answer leads to a state whose tables rise. -/
def CmdOut.Rising (o : CmdOut) : Prop := o.after.Rising

namespace State.Rising

variable {s t : State}

/-- A change beside the tables keeps them rising. -/
theorem of_tables (h : s.Rising) (ht : t.tables = s.tables) : t.Rising := by
  simp only [State.tables, Prod.mk.injEq] at ht
  unfold State.Rising at h ⊢
  simpa only [ht] using h

theorem ite {c : Prop} [Decidable c] (hs : s.Rising) (ht : t.Rising) : (if c then s else t).Rising := by
  split
  · exact hs
  · exact ht

/-- A fold of steps that keep the tables rising of the state its accumulator holds. -/
theorem foldl_of {α β : Type} (v : β → State) {f : β → α → β} {l : List α} {a : β} (h : (v a).Rising)
    (hf : ∀ b x, (v b).Rising → (v (f b x)).Rising) : (v (l.foldl f a)).Rising := by
  induction l generalizing a with
  | nil => exact h
  | cons x l ih => exact ih (hf a x h)

theorem foldl {α : Type} {f : State → α → State} {l : List α} (h : s.Rising) (hf : ∀ t x, t.Rising → (f t x).Rising) : (l.foldl f s).Rising :=
  foldl_of id h hf

theorem getD {o : Option State} (h : s.Rising) (ho : ∀ t, o = some t → t.Rising) : (o.getD s).Rising := by
  cases o with
  | none => exact h
  | some t => exact ho t rfl

theorem getD_map {α : Type} {o : Option α} {f : α → State} (h : s.Rising) (hf : ∀ a, (f a).Rising) : ((o.map f).getD s).Rising := by
  cases o with
  | none => exact h
  | some a => exact hf a

/-! ### Changes beside the tables -/

theorem withPending {x : List Instr} (h : s.Rising) : ({ s with pending := x } : State).Rising := h.of_tables rfl

theorem withTb {x : Timebase} (h : s.Rising) : ({ s with tb := x } : State).Rising := h.of_tables rfl

theorem withPlant {x : Plant} (h : s.Rising) : ({ s with plant := x } : State).Rising := h.of_tables rfl

theorem withDecSel {x : Byte} (h : s.Rising) : ({ s with decSel := x } : State).Rising := h.of_tables rfl

theorem withEncoder {x : List ThumbJob} (h : s.Rising) : ({ s with encoder := x } : State).Rising := h.of_tables rfl

theorem withWaf {x : WafUnit} (h : s.Rising) : ({ s with waf := x } : State).Rising := h.of_tables rfl

theorem withCmp {x : CmpUnit} (h : s.Rising) : ({ s with cmp := x } : State).Rising := h.of_tables rfl

theorem withFlt {x : Flt} (h : s.Rising) : ({ s with flt := x } : State).Rising := h.of_tables rfl

theorem withBoot {x : Boot} (h : s.Rising) : ({ s with boot := x } : State).Rising := h.of_tables rfl

theorem withOut {x : List Output} (h : s.Rising) : ({ s with out := x } : State).Rising := h.of_tables rfl

theorem withDma {x : List DmaRead} (h : s.Rising) : ({ s with dma := x } : State).Rising := h.of_tables rfl

theorem withNextId {x : Nat} (h : s.Rising) : ({ s with nextId := x } : State).Rising := h.of_tables rfl

theorem withFree {x : Nat} (h : s.Rising) : ({ s with free := x } : State).Rising := h.of_tables rfl

/-! ### The tables' own updates -/

theorem withParts {x : Tbl Partition} (h : s.Rising) (hx : tblRising x = true) : ({ s with parts := x } : State).Rising := ⟨hx, h.2⟩

theorem withSegs {x : Tbl Segment} (h : s.Rising) (hx : tblRising x = true) : ({ s with segs := x } : State).Rising := by
  obtain ⟨hparts, -, hrest⟩ := h
  exact ⟨hparts, hx, hrest⟩

theorem withDrops {x : Tbl Drop} (h : s.Rising) (hx : tblRising x = true) : ({ s with drops := x } : State).Rising := by
  obtain ⟨hparts, hsegs, -, hrest⟩ := h
  exact ⟨hparts, hsegs, hx, hrest⟩

theorem withStreams {x : Tbl Stream} (h : s.Rising) (hx : tblRising x = true) : ({ s with streams := x } : State).Rising := by
  obtain ⟨hparts, hsegs, hdrops, -, hrest⟩ := h
  exact ⟨hparts, hsegs, hdrops, hx, hrest⟩

theorem withCores {x : Tbl DecCore} (h : s.Rising) (hx : tblRising x = true) : ({ s with cores := x } : State).Rising := by
  obtain ⟨hparts, hsegs, hdrops, hstreams, -, hrest⟩ := h
  exact ⟨hparts, hsegs, hdrops, hstreams, hx, hrest⟩

theorem withCanvases {x : Tbl Canvas} (h : s.Rising) (hx : tblRising x = true) : ({ s with canvases := x } : State).Rising := by
  obtain ⟨hparts, hsegs, hdrops, hstreams, hcores, -, hrest⟩ := h
  exact ⟨hparts, hsegs, hdrops, hstreams, hcores, hx, hrest⟩

theorem withGates {x : Tbl GateList} (h : s.Rising) (hx : tblRising x = true) : ({ s with gates := x } : State).Rising := by
  obtain ⟨hparts, hsegs, hdrops, hstreams, hcores, hcanvases, -, hrest⟩ := h
  exact ⟨hparts, hsegs, hdrops, hstreams, hcores, hcanvases, hx, hrest⟩

theorem withPairs {x : Tbl BankPair} (h : s.Rising) (hx : tblRising x = true) : ({ s with pairs := x } : State).Rising := by
  obtain ⟨hparts, hsegs, hdrops, hstreams, hcores, hcanvases, hgates, -, hrest⟩ := h
  exact ⟨hparts, hsegs, hdrops, hstreams, hcores, hcanvases, hgates, hx, hrest⟩

theorem withCc {x : Tbl CustomerCore} (h : s.Rising) (hx : tblRising x = true) : ({ s with cc := x } : State).Rising := by
  obtain ⟨hparts, hsegs, hdrops, hstreams, hcores, hcanvases, hgates, hpairs, -, hrest⟩ := h
  exact ⟨hparts, hsegs, hdrops, hstreams, hcores, hcanvases, hgates, hpairs, hx, hrest⟩

/-- The event controller's three tables. -/
theorem evc_tables (h : s.Rising) : tblRising s.evc.sources = true ∧ tblRising s.evc.groups = true ∧ tblRising s.evc.cores = true := by
  obtain ⟨-, -, -, -, -, -, -, -, -, hevc⟩ := h
  exact hevc

theorem withEvc {x : Evc} (h : s.Rising) (hsources : tblRising x.sources = true) (hgroups : tblRising x.groups = true)
    (hcores : tblRising x.cores = true) : ({ s with evc := x } : State).Rising := by
  obtain ⟨hparts, hsegs, hdrops, hstreams, hdec, hcanvases, hgates, hpairs, hcc, -⟩ := h
  exact ⟨hparts, hsegs, hdrops, hstreams, hdec, hcanvases, hgates, hpairs, hcc, hsources, hgroups, hcores⟩

theorem parts (h : s.Rising) : tblRising s.parts = true := h.1

theorem segs (h : s.Rising) : tblRising s.segs = true := by
  obtain ⟨-, hsegs, -⟩ := h
  exact hsegs

theorem drops (h : s.Rising) : tblRising s.drops = true := by
  obtain ⟨-, -, hdrops, -⟩ := h
  exact hdrops

theorem streams (h : s.Rising) : tblRising s.streams = true := by
  obtain ⟨-, -, -, hstreams, -⟩ := h
  exact hstreams

theorem cores (h : s.Rising) : tblRising s.cores = true := by
  obtain ⟨-, -, -, -, hcores, -⟩ := h
  exact hcores

theorem canvases (h : s.Rising) : tblRising s.canvases = true := by
  obtain ⟨-, -, -, -, -, hcanvases, -⟩ := h
  exact hcanvases

theorem gates (h : s.Rising) : tblRising s.gates = true := by
  obtain ⟨-, -, -, -, -, -, hgates, -⟩ := h
  exact hgates

theorem pairs (h : s.Rising) : tblRising s.pairs = true := by
  obtain ⟨-, -, -, -, -, -, -, hpairs, -⟩ := h
  exact hpairs

theorem cc (h : s.Rising) : tblRising s.cc = true := by
  obtain ⟨-, -, -, -, -, -, -, -, hcc, -⟩ := h
  exact hcc

theorem setPart {p : Nat} {x : Partition} (h : s.Rising) : (s.setPart p x).Rising := h.withParts (tblRising_set _ _ _ _ h.parts)

theorem onPart {p : Nat} {f : Partition → Partition} (h : s.Rising) : (s.onPart p f).Rising := h.setPart

theorem setSeg {i : Nat} {x : Segment} (h : s.Rising) : (s.setSeg i x).Rising := h.withSegs (tblRising_set _ _ _ _ h.segs)

theorem onSeg {i : Nat} {f : Segment → Segment} (h : s.Rising) : (s.onSeg i f).Rising := h.setSeg

theorem setDrop {g : Nat} {x : Drop} (h : s.Rising) : (s.setDrop g x).Rising := h.withDrops (tblRising_set _ _ _ _ h.drops)

theorem onDrop {g : Nat} {f : Drop → Drop} (h : s.Rising) : (s.onDrop g f).Rising := h.setDrop

theorem onCore {n : Nat} {f : DecCore → DecCore} (h : s.Rising) : (s.onCore n f).Rising := h.withCores (tblRising_set _ _ _ _ h.cores)

theorem onPair {b : Nat} {f : BankPair → BankPair} (h : s.Rising) : (s.onPair b f).Rising := h.withPairs (tblRising_set _ _ _ _ h.pairs)

theorem onCust {c : Nat} {f : CustomerCore → CustomerCore} (h : s.Rising) : (s.onCust c f).Rising :=
  h.withCc (tblRising_set _ _ _ _ h.cc)

theorem putStream {slot : Nat} {x : Stream} (h : s.Rising) : ({ s with streams := tblPut s.streams slot x } : State).Rising :=
  h.withStreams (tblRising_put _ _ _ h.streams)

theorem onStream {slot : Nat} {f : Stream → Stream} (h : s.Rising) : (s.onStream slot f).Rising := by
  unfold State.onStream
  split
  · exact h.putStream
  · exact h

theorem setSource {n : Nat} {x : Source} (h : s.Rising) : (s.setSource n x).Rising := by
  obtain ⟨hsources, hgroups, hcores⟩ := h.evc_tables
  exact h.withEvc (tblRising_set _ _ _ _ hsources) hgroups hcores

theorem setGroup {g : Nat} {x : Group} (h : s.Rising) : (s.setGroup g x).Rising := by
  obtain ⟨hsources, hgroups, hcores⟩ := h.evc_tables
  exact h.withEvc hsources (tblRising_set _ _ _ _ hgroups) hcores

theorem onEvcCore {c : Nat} {f : EvcCore → EvcCore} (h : s.Rising) : (s.onEvcCore c f).Rising := by
  obtain ⟨hsources, hgroups, hcores⟩ := h.evc_tables
  exact h.withEvc hsources hgroups (tblRising_set _ _ _ _ hcores)

theorem putCanvas {k : Nat} {x : Canvas} (h : s.Rising) : ({ s with canvases := tblPut s.canvases k x } : State).Rising :=
  h.withCanvases (tblRising_put _ _ _ h.canvases)

theorem putGate {k : Nat} {x : GateList} (h : s.Rising) : ({ s with gates := tblPut s.gates k x } : State).Rising :=
  h.withGates (tblRising_put _ _ _ h.gates)

theorem reply {x : Reply} (h : s.Rising) : (CmdOut.reply x s).Rising := h

theorem hold {w : Wait} (h : s.Rising) : (CmdOut.hold w s).Rising := h

theorem eraseStream {slot : Nat} (h : s.Rising) : ({ s with streams := tblErase s.streams slot } : State).Rising :=
  h.withStreams (tblRising_erase _ _ h.streams)

theorem eraseCanvas {k : Nat} (h : s.Rising) : ({ s with canvases := tblErase s.canvases k } : State).Rising :=
  h.withCanvases (tblRising_erase _ _ h.canvases)

theorem eraseGate {k : Nat} (h : s.Rising) : ({ s with gates := tblErase s.gates k } : State).Rising :=
  h.withGates (tblRising_erase _ _ h.gates)

theorem mapParts {f : Nat → Partition → Partition} (h : s.Rising) : ({ s with parts := tblMap f s.parts } : State).Rising :=
  h.withParts (tblRising_map _ _ h.parts)

theorem mapSegs {f : Nat → Segment → Segment} (h : s.Rising) : ({ s with segs := tblMap f s.segs } : State).Rising :=
  h.withSegs (tblRising_map _ _ h.segs)

theorem mapDrops {f : Nat → Drop → Drop} (h : s.Rising) : ({ s with drops := tblMap f s.drops } : State).Rising :=
  h.withDrops (tblRising_map _ _ h.drops)

theorem mapCanvases {f : Nat → Canvas → Canvas} (h : s.Rising) : ({ s with canvases := tblMap f s.canvases } : State).Rising :=
  h.withCanvases (tblRising_map _ _ h.canvases)

theorem mapGates {f : Nat → GateList → GateList} (h : s.Rising) : ({ s with gates := tblMap f s.gates } : State).Rising :=
  h.withGates (tblRising_map _ _ h.gates)

theorem filterGates {f : Nat → GateList → Bool} (h : s.Rising) : ({ s with gates := tblFilter f s.gates } : State).Rising :=
  h.withGates (tblRising_filter _ _ h.gates)

/-- The event controller's route selection is beside its tables. -/
theorem withRouteSel {x : BitVec 12} (h : s.Rising) : ({ s with evc := { s.evc with routeSel := x } } : State).Rising := h.of_tables rfl

end State.Rising

theorem CmdOut.Rising.ite {c : Prop} [Decidable c] {a b : CmdOut} (ha : a.Rising) (hb : b.Rising) : (if c then a else b).Rising := by
  split
  · exact ha
  · exact hb

/-- From s a meaning goes on to a next state, whose tables rise where those of s do. -/
def Goes (s : State) (r : Res) : Prop := ∃ t, r = .next t ∧ (s.Rising → t.Rising)

namespace Goes

variable {s t : State}

theorem next (h : s.Rising → t.Rising) : Goes s (.next t) := ⟨t, rfl, h⟩

theorem same : Goes s (.next s) := next id

theorem ite {c : Prop} [Decidable c] {a b : Res} (ha : Goes s a) (hb : Goes s b) : Goes s (if c then a else b) := by
  split
  · exact ha
  · exact hb

end Goes

end Sys2Proof.Machine
end

section
/-! The shared operations keep the tables rising (O4). -/

namespace Sys2Proof.Machine

open Sys2Proof

variable {s t : State}

/-! ### The shared operations -/

theorem State.Rising.onRing {p r : Nat} {f : Ring → Ring} (h : s.Rising) : (s.onRing p r f).Rising := h.onPart

theorem State.Rising.onBridge {p : Nat} {f : Bridge → Bridge} (h : s.Rising) : (s.onBridge p f).Rising := h.onPart

theorem State.Rising.onWin {p w : Nat} {f : Window → Window} (h : s.Rising) : (s.onWin p w f).Rising := h.onBridge

theorem State.Rising.onTb {f : Timebase → Timebase} (h : s.Rising) : (s.onTb f).Rising := h.withTb

theorem State.Rising.onPlant {f : Plant → Plant} (h : s.Rising) : (s.onPlant f).Rising := h.withPlant

theorem State.Rising.onFlt {f : Flt → Flt} (h : s.Rising) : (s.onFlt f).Rising := h.withFlt

theorem State.Rising.onBoot {f : Boot → Boot} (h : s.Rising) : (s.onBoot f).Rising := h.withBoot

theorem State.Rising.onArb {i : Nat} {f : Arb → Arb} (h : s.Rising) : (s.onArb i f).Rising := h.onSeg

theorem State.Rising.onSurf {g : Nat} {f : Surface → Surface} (h : s.Rising) : (s.onSurf g f).Rising := h.onDrop

theorem State.Rising.onWaf {g : Nat} {f : WaferDrop → WaferDrop} (h : s.Rising) : (s.onWaf g f).Rising := h.onDrop

theorem State.Rising.draw (h : s.Rising) : (s.draw).2.Rising := h.withFree

theorem State.Rising.newId (h : s.Rising) : (s.newId).2.Rising := h.withNextId

theorem State.Rising.emit {o : Output} (h : s.Rising) : (s.emit o).Rising := by
  unfold State.emit
  dsimp only
  split
  · exact h.withOut.onPart
  · exact h.withOut

theorem State.Rising.fairly (_h : s.Rising) (ht : t.Rising) : (s.fairly t).Rising := .ite ht ht.withOut

theorem State.Rising.dropWrite {p : Nat} (h : s.Rising) : (s.dropWrite p).Rising := .ite h.onPart h

theorem State.Rising.sendCpl {p tag addr : Nat} {ep : Bool} {bytes : List Byte} (h : s.Rising) : (s.sendCpl p tag addr ep bytes).Rising :=
  h.foldl fun _ _ ht => ht.emit

theorem State.Rising.writeHost {p addr : Nat} {bytes : List Byte} (h : s.Rising) : (s.writeHost p addr bytes).Rising := h.foldl fun _ _ ht => ht.emit

theorem State.Rising.startRequest {p : Nat} {purpose : DmaFor} {read addr len : Nat} {keep : Bool} (h : s.Rising) :
    (s.startRequest p purpose read addr len keep).Rising :=
  .ite h.withNextId.withDma.emit h.withNextId.withDma

theorem State.Rising.startReads {p : Nat} {purpose : DmaFor} {l : List ((Nat × Nat) × Bool)} (h : s.Rising) : (s.startReads p purpose l).Rising :=
  h.foldl fun _ _ ht => ht.startRequest

theorem State.Rising.startRead {p : Nat} {purpose : DmaFor} {addr len : Nat} (h : s.Rising) : (s.startRead p purpose addr len).Rising := h.startReads

theorem State.Rising.sendRead {p : Nat} (h : s.Rising) : (s.sendRead p).Rising := by
  unfold State.sendRead
  split
  · exact .ite h.withDma.emit h
  · exact h

theorem State.Rising.sendReads {p : Nat} (h : s.Rising) : (s.sendReads p).Rising := h.foldl fun _ _ ht => ht.sendRead

theorem State.Rising.dropReadsOf {f : DmaRead → Bool} (h : s.Rising) : (s.dropReadsOf f).Rising := h.withDma

theorem State.Rising.endRequest {d : DmaRead} {x : ReadResult} (h : s.Rising) : (s.endRequest d x).1.Rising := by
  unfold State.endRequest
  dsimp only
  split
  · split
    · exact h.withDma.onPart.sendRead
    · exact h.withDma.onPart.sendRead.withDma
  · split
    · exact h.withDma.onPart.sendRead
    · exact h.withDma.onPart.sendRead.withDma

theorem State.Rising.readFailed {p : Nat} {x : ReadResult} (h : s.Rising) : (s.readFailed p x).Rising := by
  unfold State.readFailed
  dsimp only
  split
  · exact h.onPart
  · exact h.onPart
  · exact h

theorem State.Rising.commit {n : Nat} (h : s.Rising) : (s.commit n).Rising := by
  unfold State.commit
  dsimp only
  split
  · exact h.setSource.onEvcCore
  · exact h.setSource

theorem State.Rising.arm {n : Nat} (h : s.Rising) : (s.arm n).Rising := .ite h (.ite h (.ite h.commit h.setGroup))

theorem State.Rising.ringShared {n : Nat} (h : s.Rising) : (s.ringShared n).Rising := .ite h (.ite h.setSource h.setSource.arm)

theorem State.Rising.ringPriv {c n : Nat} (h : s.Rising) : (s.ringPriv c n).Rising := .ite h h.onEvcCore

theorem State.Rising.strike {x : Bell} (h : s.Rising) : (s.strike x).Rising := by
  unfold State.strike
  split
  · exact h.ringShared
  · exact h.ringPriv
  · exact h.ringPriv

theorem State.Rising.deliverVector {p v : Nat} (h : s.Rising) : (s.deliverVector p v).Rising :=
  .ite (.ite h.setPart.onPart.emit h.setPart) (.ite h.setPart h.emit)

theorem State.Rising.sendPending {p : Nat} (h : s.Rising) : (s.sendPending p).Rising := .ite h (h.foldl fun _ _ ht => ht.onPart.emit)

theorem State.Rising.writeEntry {p ring addr : Nat} {bytes : List Byte} (h : s.Rising) : (s.writeEntry p ring addr bytes).Rising :=
  .ite h.emit h.onPart

theorem State.Rising.releaseHeld {p : Nat} (h : s.Rising) : (s.releaseHeld p).Rising := h.onPart.foldl fun _ _ ht => ht.emit

theorem State.Rising.writeRecord {p addr : Nat} {bytes : List Byte} (h : s.Rising) : (s.writeRecord p addr bytes).Rising := .ite h.writeHost h.onPart

theorem State.Rising.writeLog {ring : Ringer} {p : Nat} {l : LogRec} (h : s.Rising) (hring : ∀ u b, u.Rising → (ring u b).Rising) :
    (s.writeLog ring p l).Rising :=
  hring _ _ h.onPart.emit

theorem State.Rising.putLog {ring : Ringer} {p : Nat} {l : LogRec} (h : s.Rising) (hring : ∀ u b, u.Rising → (ring u b).Rising) :
    (s.putLog ring p l).Rising :=
  .ite (h.writeLog hring) h.onPart

theorem State.Rising.putGap {ring : Ringer} {p : Nat} (h : s.Rising) (hring : ∀ u b, u.Rising → (ring u b).Rising) : (s.putGap ring p).Rising :=
  .ite h (h.onPart.putLog hring)

theorem State.Rising.logTo {ring : Ringer} {l : LogRec} {p : Nat} (h : s.Rising) (hring : ∀ u b, u.Rising → (ring u b).Rising) :
    (s.logTo ring l p).Rising :=
  .ite ((h.putGap hring).putLog hring) (h.putGap hring).onPart

theorem State.Rising.flushOne {ring : Ringer} {p : Nat} (h : s.Rising) (hring : ∀ u b, u.Rising → (ring u b).Rising) :
    (s.flushOne ring p).Rising := by
  unfold State.flushOne
  dsimp only
  split
  · exact .ite (h.onPart.writeLog hring) h
  · exact h

theorem State.Rising.flushLogBy {ring : Ringer} {p : Nat} (h : s.Rising) (hring : ∀ u b, u.Rising → (ring u b).Rising) :
  (s.flushLogBy ring p).Rising :=
  (h.foldl fun _ _ ht => ht.flushOne hring).putGap hring

theorem State.Rising.setFault {i : Nat} {x : FaultRec} (h : s.Rising) : (s.setFault i x).Rising := h.onFlt

theorem State.Rising.setLive {i : Nat} {b : Bool} (h : s.Rising) : (s.setLive i b).Rising := h.setFault

theorem State.Rising.traceRec {l : LogRec} (h : s.Rising) : (s.traceRec l).Rising := h.onFlt

theorem State.Rising.storeRec {l : LogRec} (h : s.Rising) : (s.storeRec l).Rising := .ite h h.onFlt

theorem State.Rising.decideBy {ring : Ringer} {l : LogRec} {ps : List Nat} (h : s.Rising) (hring : ∀ u b, u.Rising → (ring u b).Rising) :
    (s.decideBy ring l ps).Rising :=
  h.fairly (h.foldl fun _ _ ht => ht.logTo hring)

theorem State.Rising.endIntervalBy {ring : Ringer} {cls i : Nat} (h : s.Rising) (hring : ∀ u b, u.Rising → (ring u b).Rising) :
    (s.endIntervalBy ring cls i).Rising := by
  unfold State.endIntervalBy
  dsimp only
  split
  · exact h
  · exact .ite h (.ite h.onFlt (h.decideBy hring).onFlt)

theorem State.Rising.occurBy {ring : Ringer} {type cls i : Nat} {detail : W32} {window : Nat} {ps : List Nat} (h : s.Rising)
  (hring : ∀ u b, u.Rising → (ring u b).Rising) :
    (s.occurBy ring type cls i detail window ps).Rising := by
  unfold State.occurBy
  dsimp only
  split
  · exact (h.endIntervalBy hring).traceRec.onFlt
  · exact ((h.endIntervalBy hring).traceRec.decideBy hring).onFlt

theorem State.Rising.ringVendor {ring : Ringer} {k : Nat} (h : s.Rising) (hring : ∀ u b, u.Rising → (ring u b).Rising) :
  (s.ringVendor ring k).Rising :=
  h.foldl fun _ _ ht => hring _ _ ht

theorem State.Rising.stickBy {ring : Ringer} {i : Nat} {detail : W32} (h : s.Rising) (hring : ∀ u b, u.Rising → (ring u b).Rising) :
    (s.stickBy ring i detail).Rising := by
  unfold State.stickBy
  extract_lets x stuck vendors viewers
  have hvendors : vendors.Rising := h.setFault.foldl fun _ _ ht => ht.ringVendor hring
  have hviewers : viewers.Rising := hvendors.foldl fun _ _ ht => hring _ _ ht
  exact .ite h.setFault (.ite (hring _ _ hviewers) hviewers)

theorem State.Rising.raiseBy {ring : Ringer} {i : Nat} {detail : W32} (h : s.Rising) (hring : ∀ u b, u.Rising → (ring u b).Rising) :
    (s.raiseBy ring i detail).Rising :=
  .ite ((h.stickBy hring).occurBy hring).storeRec ((h.stickBy hring).occurBy hring)

theorem State.Rising.capture {n : Nat} {split level : Bool} {k : AccKind} {space req addr : Nat} (h : s.Rising) :
    (s.capture n split level k space req addr).1.Rising := by
  unfold State.capture
  dsimp only
  split
  · exact h.onPair
  · exact h.onPair

theorem State.Rising.countBell {b : Bell} (h : s.Rising) : (s.countBell b).Rising := h.capture

theorem State.Rising.refuseBell {b : Bell} (h : s.Rising) : (s.refuseBell b).Rising :=
  .ite (h.capture.setLive.raiseBy fun _ _ ht => ht.countBell) h.capture

theorem State.Rising.bell {b : Bell} (h : s.Rising) : (s.bell b).Rising := .ite h.strike h.refuseBell

theorem State.Rising.signal {n : Nat} (h : s.Rising) : (s.signal n).Rising := h.bell

theorem State.Rising.signalPriv {c n : Nat} (h : s.Rising) : (s.signalPriv c n).Rising := h.bell

theorem State.Rising.signalUnit {p kind : Nat} (h : s.Rising) : (s.signalUnit p kind).Rising := h.signal

theorem State.Rising.signalSeg {i kind : Nat} (h : s.Rising) : (s.signalSeg i kind).Rising := h.signal

theorem State.Rising.decideRec {l : LogRec} {ps : List Nat} (h : s.Rising) : (s.decideRec l ps).Rising := h.decideBy fun _ _ ht => ht.bell

theorem State.Rising.endInterval {cls i : Nat} (h : s.Rising) : (s.endInterval cls i).Rising := h.endIntervalBy fun _ _ ht => ht.bell

theorem State.Rising.occur {type cls i : Nat} {detail : W32} {window : Nat} {ps : List Nat} (h : s.Rising) :
    (s.occur type cls i detail window ps).Rising :=
  h.occurBy fun _ _ ht => ht.bell

theorem State.Rising.stick {i : Nat} {detail : W32} (h : s.Rising) : (s.stick i detail).Rising := h.stickBy fun _ _ ht => ht.bell

theorem State.Rising.raise {i : Nat} {detail : W32} (h : s.Rising) : (s.raise i detail).Rising := h.raiseBy fun _ _ ht => ht.bell

theorem State.Rising.flushLog {p : Nat} (h : s.Rising) : (s.flushLog p).Rising := h.flushLogBy fun _ _ ht => ht.bell

theorem State.Rising.vendorSignal {k : Nat} (h : s.Rising) : (s.vendorSignal k).Rising := h.ringVendor fun _ _ ht => ht.bell

theorem State.Rising.putRtv {p type drop : Nat} {body : List Nat} (h : s.Rising) : (s.putRtv p type drop body).Rising := h.onPart.emit.signalUnit

theorem State.Rising.report {p type drop : Nat} {body : List Nat} (h : s.Rising) : (s.report p type drop body).Rising :=
  .ite (State.Rising.ite h h.putRtv.onPart).putRtv (State.Rising.ite h h.putRtv.onPart).onPart

theorem State.Rising.occurRetire {i : Nat} {detail : W32} {window : Nat} (h : s.Rising) : (s.occurRetire i detail window).Rising :=
  h.endInterval.traceRec.storeRec.decideRec.onFlt

theorem State.Rising.occurRestore {i : Nat} (h : s.Rising) : (s.occurRestore i).Rising := h.traceRec.storeRec.decideRec

theorem State.Rising.clearFault {i : Nat} (h : s.Rising) : (s.clearFault i).Rising := .ite h h.setFault

theorem State.Rising.journal {p : Nat} {e : JrnEntry} (h : s.Rising) : (s.journal p e).Rising :=
  .ite (State.Rising.ite h h.onWin).onBridge (State.Rising.ite h h.onWin).onBridge.signalUnit

/-! ### Calendars -/

theorem State.Rising.settleCal {i : Nat} (h : s.Rising) : (s.settleCal i).Rising := .ite h.onSeg h

theorem State.Rising.rederive {i : Nat} (h : s.Rising) : (s.rederive i).Rising := h.onSeg

theorem State.Rising.remix {i : Nat} {f : State → State} (h : s.Rising) (hf : ∀ u, u.Rising → (f u).Rising) : (s.remix i f).Rising :=
  .ite (hf _ h) (hf _ h).rederive

/-! ### Ring commands -/

theorem State.Rising.checked {l : List (Option Reply)} {k : CmdOut} (h : s.Rising) (hk : k.Rising) : (checked s l k).Rising := by
  unfold Machine.checked
  split
  · exact h
  · exact hk

theorem State.Rising.fetch {p r : Nat} (h : s.Rising) : (s.fetch p r).Rising := .ite h h.onRing.startRead

theorem State.Rising.fetchAll {p : Nat} (h : s.Rising) : (s.fetchAll p).Rising := h.foldl fun _ _ ht => ht.fetch

theorem State.Rising.complete {p r : Nat} {x : Reply} {valid : Nat} (h : s.Rising) : (s.complete p r x valid).Rising := by
  unfold State.complete
  dsimp only
  split
  · exact h
  · exact (State.Rising.ite h.onRing.writeEntry.signalUnit h.onRing.writeEntry).fetch

theorem State.Rising.drainUnknown {fuel p : Nat} (h : s.Rising) : (s.drainUnknown fuel p).Rising := by
  induction fuel generalizing s with
  | zero => exact h
  | succ k ih =>
    unfold State.drainUnknown
    split
    · exact h
    · split
      · exact h
      · exact ite h (ih h.onPart.complete)

theorem State.Rising.settleRings {p : Nat} (h : s.Rising) : (s.settleRings p).Rising := h.drainUnknown

theorem State.Rising.finish {p r : Nat} {o : CmdOut} (h : s.Rising) (ho : o.Rising) : (s.finish p r o).Rising := by
  cases o with
  | reply x t =>
    have ht : t.Rising := ho
    exact (ite ht h).complete.settleRings
  | hold w t =>
    have ht : t.Rising := ho
    exact ht.onRing.settleRings

theorem Goes.ringCmd {p r op : Nat} {ring0 : Bool} {layout : List (Nat × Nat)} {bad : BitVec 512 → List (Bool × Nat)}
    {act : State → BitVec 512 → CmdOut} (hact : ∀ u e, u.Rising → (act u e).Rising) : Goes s (ringCmd s p r op ring0 layout bad act) := by
  unfold Machine.ringCmd
  split
  · exact .same
  · refine .next fun h => h.onPart.finish ?_
    split
    · exact h.onPart.reply
    · exact h.onPart.checked (hact _ _ h.onPart)

theorem State.Rising.endWait {p r : Nat} {x : Reply} (h : s.Rising) : (s.endWait p r x).Rising := h.complete.settleRings

theorem State.Rising.abortFeeds {slot : Nat} (h : s.Rising) : (s.abortFeeds slot).Rising := h.foldl fun _ _ ht => ht.endWait

/-! ### Admission -/

theorem State.Rising.recharge {gs : List Nat} (h : s.Rising) : (s.recharge gs).Rising := h.foldl fun _ _ ht => ht.onDrop

theorem State.Rising.chargeColant {i : Nat} (h : s.Rising) : (s.chargeColant i).Rising := h.onSeg

theorem State.Rising.recomputePool (h : s.Rising) : (s.recomputePool).Rising :=
  .ite h.onPlant (.ite h.onPlant.onPlant.setLive.raise h.onPlant.onPlant.setLive)

/-! ### The guard's operations -/

theorem State.Rising.swapPair {n : Nat} {copy : Bool} (h : s.Rising) : (s.swapPair n copy).Rising := h.onPair

theorem State.Rising.violation {n : Nat} {split level : Bool} {k : AccKind} {space req addr : Nat} (h : s.Rising) :
    (s.violation n split level k space req addr).Rising := by
  unfold State.violation
  dsimp only
  refine .ite h.capture ?_
  split
  · exact h.capture.setLive.raise
  · exact h.capture.signalPriv

theorem State.Rising.clearCapture {n : Nat} (h : s.Rising) : (s.clearCapture n).Rising := by
  unfold State.clearCapture
  dsimp only
  split
  · exact h.onPair.setLive
  · exact h.onPair

theorem State.Rising.clearPair {p : Nat} (h : s.Rising) : (s.clearPair p).Rising := h.onPair.clearCapture

theorem State.Rising.blockAccess {req : Nat} {k : AccKind} {g addr len : Nat} (h : s.Rising) : (s.blockAccess req k g addr len).2.Rising := by
  unfold State.blockAccess
  split
  · exact h
  · exact h.violation

/-! ### Sessions and the Sheepdog -/

theorem State.Rising.updateTakeover (h : s.Rising) : (s.updateTakeover).Rising :=
  h.foldl fun _ _ ht => .ite ht ((ht.onCust.foldl fun _ _ ht2 => ht2.signalPriv).foldl fun _ _ ht2 => ht2.signalPriv)

theorem State.Rising.sheepdog {p : Nat} (h : s.Rising) : (s.sheepdog p).Rising :=
  ((State.Rising.ite h h.onPart).foldl fun _ _ ht => ht.onDrop).updateTakeover

theorem State.Rising.returnDrops {p t : Nat} (h : s.Rising) : (s.returnDrops p t).Rising := h.foldl fun _ _ ht => ht.onDrop

theorem State.Rising.resetSource {n : Nat} (h : s.Rising) : (s.resetSource n).Rising := h.setSource

theorem State.Rising.resetStreamSources {slot : Nat} (h : s.Rising) : (s.resetStreamSources slot).Rising := h.resetSource.resetSource

theorem State.Rising.orphanPages {p : Nat} {src : PageSource} {idx : Nat} (h : s.Rising) : (s.orphanPages p src idx).Rising :=
  (h.foldl fun _ _ ht => ht.onSurf).mapCanvases

theorem State.Rising.dropStream {slot : Nat} (h : s.Rising) : (s.dropStream slot).Rising := by
  unfold State.dropStream
  dsimp only
  refine .eraseStream (.resetStreamSources ?_)
  split
  · exact h.orphanPages
  · exact h

theorem State.Rising.holdGone {p : Nat} {x : Gone} (h : s.Rising) : (s.holdGone p x).Rising := h.onPart

theorem State.Rising.vanishStream {slot : Nat} {x : Stream} (h : s.Rising) : (s.vanishStream slot x).Rising := h.holdGone.dropStream

theorem State.Rising.invalidate {p w : Nat} (h : s.Rising) : (s.invalidate p w).Rising := by
  unfold State.invalidate
  dsimp only
  split
  · exact h
  · exact .ite h.onWin.signalUnit h.onWin

theorem State.Rising.invalidateAll {p : Nat} {f : Window → Bool} (h : s.Rising) : (s.invalidateAll p f).Rising := h.foldl fun _ _ ht => ht.invalidate

theorem State.Rising.invalidateDrop {g : Nat} (h : s.Rising) : (s.invalidateDrop g).Rising := h.foldl fun _ _ ht => ht.invalidateAll

theorem State.Rising.destroyObjects {p : Nat} (h : s.Rising) : (s.destroyObjects p).Rising :=
  (h.foldl fun _ _ ht => ht.vanishStream).invalidateAll.filterGates.onPart

theorem State.Rising.dropReads {p : Nat} {rings : Nat → Bool} (h : s.Rising) : (s.dropReads p rings).Rising := h.dropReadsOf.sendReads

theorem State.Rising.closeSession {p : Nat} (h : s.Rising) : (s.closeSession p).Rising :=
  (State.Rising.ite h.onBoot.onPart h.onBoot.onPart.clearPair).setLive

theorem State.Rising.endRestores {p : Nat} (h : s.Rising) : (s.endRestores p).Rising := h.foldl fun _ _ ht => ht.onDrop

theorem State.Rising.endSession {p : Nat} (h : s.Rising) : (s.endSession p).Rising :=
  h.sheepdog.destroyObjects.endRestores.dropReads.onPart.closeSession

theorem State.Rising.resetPartition {p : Nat} (h : s.Rising) : (s.resetPartition p).Rising := by
  unfold State.resetPartition
  refine .onPart (.foldl (.setGroup (.foldl h.endSession.withDma fun _ _ ht => ht.resetSource)) fun _ _ ht => ht.onDrop)

theorem State.Rising.lapse {p : Nat} (h : s.Rising) : (s.lapse p).Rising := h.onPart.setLive.raise.sheepdog

theorem State.Rising.restartHeartbeat {p : Nat} (h : s.Rising) : (s.restartHeartbeat p).Rising := h.onPart

end Sys2Proof.Machine
end

section
/-! The operations of the bridge and of the segments keep the tables rising (O4). -/

namespace Sys2Proof.Machine

open Sys2Proof

variable {s t : State}

/-! ### Words and their sending -/

theorem State.Rising.sendWords {i : Nat} {c2 : Bool} {ws : List ColWord} (h : s.Rising) : (s.sendWords i c2 ws).Rising :=
  (State.Rising.ite (.ite h.emit h) (State.Rising.ite h.emit h).onSeg).emit

theorem State.Rising.busySince {i : Nat} {t : Tenure} (h : s.Rising) : (s.busySince i t).Rising := by
  unfold State.busySince
  dsimp only
  split
  · exact .ite h h.emit
  · exact h

theorem State.Rising.answerGuest {i : Nat} {t : Tenure} {op param : Nat} {data : List W16} (h : s.Rising) :
  (s.answerGuest i t op param data).Rising :=
  h.busySince.sendWords.onSeg

theorem State.Rising.nakGuest {i : Nat} {t : Tenure} {reason : Nat} (h : s.Rising) : (s.nakGuest i t reason).Rising := h.answerGuest

theorem State.Rising.holdGuest {i : Nat} {w : GuestWait} (h : s.Rising) : (s.holdGuest i w).Rising := h.onSeg

/-! ### The bridge -/

theorem State.Rising.refusePart {p : Nat} {split level : Bool} {k : AccKind} {x : Part} (h : s.Rising) : (s.refusePart p split level k x).Rising :=
  h.violation

theorem State.Rising.addItem {p : Nat} {it : Item} (h : s.Rising) : (s.addItem p it).Rising := h.onBridge

theorem State.Rising.onItem {p id : Nat} {f : Item → Item} (h : s.Rising) : (s.onItem p id f).Rising := h.onBridge

theorem State.Rising.removeItem {p id : Nat} (h : s.Rising) : (s.removeItem p id).Rising := h.onBridge.foldl fun _ _ ht => ht.emit

theorem State.Rising.countFail {p : Nat} {f : FailRec} (h : s.Rising) : (s.countFail p f).Rising := .ite h h.onWin

theorem State.Rising.recordReadErr {p : Nat} {f : FailRec} (h : s.Rising) : (s.recordReadErr p f).Rising := h.onBridge

theorem State.Rising.freeSem {p : Nat} (h : s.Rising) : (s.freeSem p).Rising := h.onBridge

theorem State.Rising.sendPost {p : Nat} {g : GuestPost} (h : s.Rising) : (s.sendPost p g).Rising :=
  .ite (State.Rising.ite (h.foldl fun _ _ ht => ht.writeHost) h.journal).freeSem (.ite (h.foldl fun _ _ ht => ht.writeHost) h.journal)

theorem State.Rising.flushPosted {p : Nat} (h : s.Rising) : (s.flushPosted p).Rising := h.onBridge.foldl fun _ _ ht => ht.sendPost

theorem State.Rising.completeRead {p : Nat} {r : ReadReq} (h : s.Rising) : (s.completeRead p r).Rising := by
  unfold State.completeRead
  dsimp only
  split
  · exact h.flushPosted.sendCpl
  · exact .ite h.flushPosted.recordReadErr.countFail.sendCpl h.flushPosted.recordReadErr.countFail.emit

theorem State.Rising.startGuestRead {p seg : Nat} {c : GuestCmd} (h : s.Rising) : (s.startGuestRead p seg c).Rising := h.flushPosted.startReads.onSeg

theorem State.Rising.beginGuestRead {p seg : Nat} {c : GuestCmd} (h : s.Rising) : (s.beginGuestRead p seg c).Rising :=
  .ite h.startGuestRead h.holdGuest

theorem State.Rising.atomicTakes {p id : Nat} (h : s.Rising) : (s.atomicTakes p id).Rising := h.onBridge.onItem

theorem State.Rising.guestTakes {p seg : Nat} {t : Tenure} {c : GuestCmd} (h : s.Rising) : (s.guestTakes p seg t c).Rising :=
  h.onBridge.beginGuestRead

theorem State.Rising.grantFrom {p : Nat} {l : List SemWaiter} (h : s.Rising) : (s.grantFrom p l).Rising := by
  induction l generalizing s with
  | nil => exact h.onBridge
  | cons w rest ih =>
    cases w with
    | atomic id => exact h.onBridge.atomicTakes
    | guest seg =>
      unfold State.grantFrom
      split
      · split
        · exact ite h.onBridge.guestTakes (ih h.nakGuest)
        · exact ih h
      · exact ih h

theorem State.Rising.grantSem {p : Nat} (h : s.Rising) : (s.grantSem p).Rising := .ite h.grantFrom h

theorem State.Rising.endAtomic {p : Nat} {it : Item} {a : AtomicRun} (h : s.Rising) : (s.endAtomic p it a).Rising := by
  unfold State.endAtomic
  dsimp only
  refine .grantSem ?_
  split
  · exact (State.Rising.ite h.removeItem.onBridge h.removeItem.freeSem).flushPosted.emit
  · exact (State.Rising.ite h.removeItem.onBridge h.removeItem.freeSem).flushPosted.recordReadErr.countFail.emit

theorem State.Rising.settleItem {p id : Nat} (h : s.Rising) : (s.settleItem p id).Rising := by
  unfold State.settleItem
  split
  · exact h
  · refine .ite h ?_
    split
    · split
      · exact h.onItem
      · exact .ite h h.endAtomic
    · split
      · exact h.removeItem.completeRead.grantSem
      · exact h.removeItem

theorem State.Rising.failHead {p id cause nak : Nat} (h : s.Rising) : (s.failHead p id cause nak).Rising := by
  unfold State.failHead
  dsimp only
  split
  · exact h
  · split
    · split
      · exact h.onItem.settleItem
      · exact h
    · refine .settleItem ?_
      split
      · exact h.onItem
      · exact h.onItem
      · exact h.journal.onItem

theorem State.Rising.failNoDrop {fuel p : Nat} {f : Nat → Nat → Bool} (h : s.Rising) : (s.failNoDrop fuel p f).Rising := by
  induction fuel generalizing s with
  | zero => exact h
  | succ k ih =>
    unfold State.failNoDrop
    split
    · exact h
    · exact ih h.failHead

theorem State.Rising.failNoDropAll {f : Nat → Nat → Bool} (h : s.Rising) : (s.failNoDropAll f).Rising :=
  h.fairly (h.foldl fun _ _ ht => ht.onBridge.failNoDrop)

theorem State.Rising.spoilReads {p seg drop : Nat} (h : s.Rising) : (s.spoilReads p seg drop).Rising := h.onBridge.invalidateAll

theorem State.Rising.acceptWrite {p : Nat} {halves : List HalfReq} (h : s.Rising) (ht : s.acceptWrite p halves = some t) : t.Rising := by
  unfold State.acceptWrite at ht
  dsimp only at ht
  split at ht
  · cases ht
  · obtain rfl := Option.some.inj ht
    refine foldl ?_ fun u r hu => ?_
    · split
      · exact h.refusePart
      · exact h
    · split
      · exact hu
      · exact ite hu.newId.spoilReads.addItem hu.journal

theorem State.Rising.acceptRead {p off dwords tag : Nat} {halves : List HalfReq} (h : s.Rising)
    (ht : s.acceptRead p off dwords tag halves = some t) : t.Rising := by
  unfold State.acceptRead at ht
  dsimp only at ht
  split at ht
  · cases ht
  · split at ht
    · obtain rfl := Option.some.inj ht
      exact h.recordReadErr.emit
    · obtain rfl := Option.some.inj ht
      refine (addItem (newId (foldl ?_ fun _ _ hu => hu.onWin))).settleItem
      split
      · exact h.refusePart
      · exact h

theorem State.Rising.acceptAtomic {p off : Nat} {kind : AtomicKind} {bytes operand compare tag : Nat} (h : s.Rising)
    (ht : s.acceptAtomic p off kind bytes operand compare tag = some t) : t.Rising := by
  unfold State.acceptAtomic at ht
  dsimp only at ht
  split at ht
  · cases ht
  · split at ht
    · obtain rfl := Option.some.inj ht
      refine emit (countFail (recordReadErr ?_))
      split
      · exact h.refusePart
      · exact h
    · obtain rfl := Option.some.inj ht
      exact h
    · obtain rfl := Option.some.inj ht
      exact h.spoilReads.newId.addItem.onBridge.grantSem

theorem State.Rising.readData {p id : Nat} {ws : List W16} {destructive : Bool} (h : s.Rising) : (s.readData p id ws destructive).Rising := by
  unfold State.readData
  dsimp only
  split
  · exact h
  · split
    · exact h
    · refine .settleItem (.onItem ?_)
      split
      · split
        · exact h.onItem
        · exact h.onItem
        · exact h
      · refine .ite (.onWin (.ite (.invalidate ?_) ?_)) (.ite (.signalUnit (.onWin (.ite (.invalidate ?_) ?_))) (.ite (.invalidate ?_) ?_))
        · split
          · exact h.onItem
          · exact h.onItem
          · exact h
        · split
          · exact h.onItem
          · exact h.onItem
          · exact h
        · split
          · exact h.onItem
          · exact h.onItem
          · exact h
        · split
          · exact h.onItem
          · exact h.onItem
          · exact h
        · split
          · exact h.onItem
          · exact h.onItem
          · exact h
        · split
          · exact h.onItem
          · exact h.onItem
          · exact h

theorem State.Rising.ackHead {p id : Nat} (h : s.Rising) : (s.ackHead p id).Rising := h.onItem.settleItem

/-! ### Errors and retirement -/

theorem State.Rising.addError {cls i : Nat} (h : s.Rising) : (s.addError cls i).Rising := h.onFlt

theorem State.Rising.noteError {cls i : Nat} (h : s.Rising) : (s.noteError cls i).Rising := h.addError.occur

theorem State.Rising.clearWindow {cls i : Nat} (h : s.Rising) : (s.clearWindow cls i).Rising := h.onFlt

theorem State.Rising.failStream {slot reason : Nat} (h : s.Rising) : (s.failStream slot reason).Rising := h.onStream.signal.abortFeeds

theorem State.Rising.reassign {slot : Nat} (h : s.Rising) : (s.reassign slot).Rising := by
  unfold State.reassign
  dsimp only
  split
  · exact h
  · split
    · exact h.onStream
    · exact h.onStream.failStream

theorem State.Rising.recoverStream {slot : Nat} (h : s.Rising) : (s.recoverStream slot).Rising := .ite h.reassign h

theorem State.Rising.suspendPrefetch {g : Nat} (h : s.Rising) : (s.suspendPrefetch g).Rising := h.foldl fun _ _ ht => ht.onBridge

theorem State.Rising.setMode {g : Nat} {c2 : Bool} (h : s.Rising) : (s.setMode g c2).Rising :=
  .ite h (.ite (h.remix fun _ ht => ht.onDrop).invalidateDrop.suspendPrefetch.signalSeg
    (h.remix fun _ ht => ht.onDrop).invalidateDrop.suspendPrefetch)

theorem State.Rising.markUnknown {g : Nat} (h : s.Rising) : (s.markUnknown g).Rising := h.onWaf

theorem State.Rising.markTiles {g : Nat} {tiles : List Nat} (h : s.Rising) : (s.markTiles g tiles).Rising := h.onWaf

theorem State.Rising.idleEntries {i n : Nat} (h : s.Rising) : (s.idleEntries i n).Rising := h.onSeg

theorem State.Rising.endService {i : Nat} {f : Nat → Bool} (h : s.Rising) : (s.endService i f).Rising := .ite h.onSeg.onPlant.emit h

theorem State.Rising.retireDrop {g : Nat} (h : s.Rising) : (s.retireDrop g).Rising :=
  .ite h h.onDrop.setLive.stick.occurRetire.idleEntries.signalSeg.invalidateDrop.endService.onSeg.withWaf.failNoDropAll.updateTakeover

theorem State.Rising.dropTenure {i : Nat} (h : s.Rising) : (s.dropTenure i).Rising := by
  unfold State.dropTenure
  dsimp only
  split
  · exact h
  · exact h.onSeg.onBridge

theorem State.Rising.endCause {i k : Nat} (h : s.Rising) : (s.endCause i k).Rising := h.onSeg.setLive

theorem State.Rising.answered {i : Nat} (h : s.Rising) : (s.answered i).Rising := .ite h.endCause.onSeg h

theorem State.Rising.stopClock {i : Nat} (h : s.Rising) : (s.stopClock i).Rising := h.dropTenure.endCause.onSeg.emit

theorem State.Rising.failIssued {i cause : Nat} (h : s.Rising) : (s.failIssued i cause).Rising := by
  unfold State.failIssued
  split
  · split
    · exact h.onSeg.failHead
    · exact h.onSeg.onPlant.emit
    · exact h.onSeg
  · exact h

theorem State.Rising.retireSegment {i : Nat} (h : s.Rising) : (s.retireSegment i).Rising := by
  unfold State.retireSegment
  refine .ite h ?_
  extract_lets n noted stuck occurred quiet failed stopped closed
  have hquiet : quiet.Rising := h.noteError.onSeg.setLive.stick.occurRetire.foldl fun _ _ ht => ht.setLive.onDrop
  have hclosed : closed.Rising := hquiet.endService.failIssued.stopClock.onSeg.foldl fun _ _ ht => ht.invalidateDrop
  exact hclosed.failNoDropAll.signalSeg.updateTakeover

theorem State.Rising.retireCore {n slot : Nat} (h : s.Rising) : (s.retireCore n slot).Rising :=
  .ite h (h.onCore.setLive.stick.occurRetire.fairly (h.onCore.setLive.stick.occurRetire.foldl fun _ _ ht => ht.reassign))

theorem State.Rising.threshHit {slot n : Nat} (h : s.Rising) : (s.threshHit slot n).Rising := h.traceRec.decideRec.clearWindow

theorem State.Rising.countError {cls i slot : Nat} (h : s.Rising) : (s.countError cls i slot).Rising := by
  unfold State.countError
  dsimp only
  split
  · split
    · exact h.noteError.retireCore
    · exact h.noteError.retireSegment
    · exact h.noteError.retireDrop
    · exact h.noteError.threshHit
  · exact h.noteError

theorem State.Rising.traceRetry {cls i : Nat} (h : s.Rising) : (s.traceRetry cls i).Rising := h.traceRec

theorem State.Rising.segCause {i k : Nat} (h : s.Rising) : (s.segCause i k).Rising := .ite h h.onSeg.setLive.raise.countError

/-! ### What a compose pass latches -/

theorem State.Rising.onCanvas {k : Nat} {f : Canvas → Canvas} (h : s.Rising) : (s.onCanvas k f).Rising := by
  unfold State.onCanvas
  split
  · exact h.putCanvas
  · exact h

theorem State.Rising.gatesTaken {key t : Nat} {gs : List Nat} (h : s.Rising) : (s.gatesTaken key t gs).Rising := h.mapGates

theorem State.Rising.markChosen {p idx uid : Nat} (h : s.Rising) : (s.markChosen p idx uid).Rising := by
  unfold State.markChosen
  split
  · exact h
  · exact h.onStream

theorem State.Rising.chooseFrames {p : Nat} {f : Surface} {last : Tbl Frame} {t : Nat} (h : s.Rising) : (s.chooseFrames p f last t).1.Rising := by
  refine foldl_of Prod.fst h fun a l ha => ?_
  split
  · split
    · split
      · exact ha.markChosen
      · exact ha
    · exact ha
  · exact ha

theorem State.Rising.publishImages {p : Nat} (h : s.Rising) : (s.publishImages p).Rising := h.onPart

theorem State.Rising.takePublication {g : Nat} (h : s.Rising) : (s.takePublication g).Rising := by
  unfold State.takePublication
  dsimp only
  split
  · exact h
  · exact .ite h h.draw.onDrop.signalPriv

theorem State.Rising.takeCal {g : Nat} (h : s.Rising) : (s.takeCal g).Rising := by
  unfold State.takeCal
  split
  · exact h
  · exact .ite h h.onDrop.markUnknown

theorem State.Rising.latchLayers {p key t : Nat} {gs : List Nat} {f : Surface} {last : Tbl Frame} (h : s.Rising) :
    (s.latchLayers p key t gs f last).1.Rising :=
  h.publishImages.chooseFrames

theorem State.Rising.latchCanvas {k t : Nat} (h : s.Rising) : (s.latchCanvas k t).Rising := by
  unfold State.latchCanvas
  dsimp only
  split
  · exact h
  · exact .ite h h.latchLayers.gatesTaken.onCanvas

theorem State.Rising.latchDrop {g t : Nat} (h : s.Rising) : (s.latchDrop g t).1.Rising := by
  unfold State.latchDrop
  dsimp only
  split
  · split
    · exact h.latchCanvas.onSurf.gatesTaken
    · exact h.latchCanvas.onSurf.gatesTaken
  · exact h.latchLayers.onDrop.gatesTaken

theorem State.Rising.settleGates {g : Nat} (h : s.Rising) : (s.settleGates g).Rising := .ite h h.onSurf.gatesTaken

theorem State.Rising.settleCanvas {k : Nat} {c : Canvas} (h : s.Rising) : (s.settleCanvas k c).Rising := .ite h h.onCanvas.gatesTaken

theorem State.Rising.releaseFrames {slot : Nat} (h : s.Rising) : (s.releaseFrames slot).Rising := by
  unfold State.releaseFrames
  dsimp only
  split
  · exact h
  · exact h.onStream

theorem State.Rising.releaseAll {p : Nat} (h : s.Rising) : (s.releaseAll p).Rising := h.foldl fun _ _ ht => ht.releaseFrames

theorem State.Rising.latchPass {g : Nat} (h : s.Rising) : (s.latchPass g).Rising := h.latchDrop.onDrop.releaseAll

theorem State.Rising.latchInstant {g : Nat} (h : s.Rising) : (s.latchInstant g).Rising :=
  .ite h.takeCal.takePublication.publishImages.onDrop.latchPass h.takeCal.takePublication.publishImages.onDrop

theorem State.Rising.composeDue {gs : List Nat} (h : s.Rising) : (s.composeDue gs).Rising := h.foldl fun _ _ ht => .ite ht.latchInstant ht

theorem State.Rising.composeFirst {p : Nat} (h : s.Rising) : (s.composeFirst p).Rising := h.composeDue

/-! ### The wires of a segment -/

theorem State.Rising.onShaper {p n : Nat} {f : Shaper → Shaper} (h : s.Rising) : (s.onShaper p n f).Rising := h.onPart

theorem State.Rising.chargeShaper {p n cost : Nat} (h : s.Rising) : (s.chargeShaper p n cost).Rising := h.onShaper

theorem State.Rising.whistlePeriod {i n : Nat} {ws : List ColWord} (h : s.Rising) : (s.whistlePeriod i n ws).Rising := h.sendWords.sendWords.sendWords

theorem State.Rising.refreshed {g : Nat} (h : s.Rising) : (s.refreshed g).Rising := h.onDrop

theorem State.Rising.dropRun {i : Nat} (h : s.Rising) : (s.dropRun i).Rising := by
  unfold State.dropRun
  dsimp only
  split
  · exact h
  · refine .onSeg ?_
    split
    · exact h.onWaf
    · exact h

theorem State.Rising.sendFreeze {i : Nat} (h : s.Rising) : (s.sendFreeze i).Rising := by
  unfold State.sendFreeze
  dsimp only
  refine .onSeg (.dropRun ?_)
  split
  · exact h.busySince.sendWords.onBridge
  · exact h.sendWords

theorem State.Rising.closeWhistle {i : Nat} (h : s.Rising) : (s.closeWhistle i).Rising := .ite h.onSeg.sendWords.sendWords h.onSeg.sendWords

theorem State.Rising.settleWhistle {i : Nat} (h : s.Rising) : (s.settleWhistle i).Rising := by
  unfold State.settleWhistle
  dsimp only
  split
  · exact .ite h h.closeWhistle
  · exact h

theorem State.Rising.freezeSegment {i : Nat} (h : s.Rising) : (s.freezeSegment i).Rising := .ite h (.ite h.onSeg h.settleWhistle.sendFreeze)

theorem State.Rising.closeTenure {i : Nat} (h : s.Rising) : (s.closeTenure i).Rising :=
  .ite h.dropTenure.onSeg.settleWhistle h.dropTenure.onSeg.settleWhistle.sendWords.onSeg

theorem State.Rising.transmit {i : Nat} {l : Launch} (h : s.Rising) : (s.transmit i l).Rising := .ite h.sendWords.refreshed.onSeg h.sendWords.onSeg

theorem State.Rising.markCaptured {p write : Nat} (h : s.Rising) : (s.markCaptured p write).Rising := h.onBridge

theorem State.Rising.filterHead {p id i : Nat} (h : s.Rising) : (s.filterHead p id i).1.Rising := by
  unfold State.filterHead
  split
  · exact h
  · split
    · exact h
    · extract_lets k runs
      split
      · exact h
      · extract_lets u v w
        have hu : u.Rising := .ite h h.violation.markCaptured
        split
        · exact hu.failHead
        · have hw : w.Rising := .ite hu.onItem (hu.onItem.foldl fun _ _ ht => ht.journal)
          exact .ite hw.settleItem hw

theorem State.Rising.launch {i : Nat} {l : Launch} (h : s.Rising) : (s.launch i l).Rising := by
  unfold State.launch
  dsimp only
  split
  · exact .ite h.filterHead h.filterHead.onItem.transmit
  · exact h.onSeg.transmit

theorem State.Rising.releaseHolder {i : Nat} (h : s.Rising) : (s.releaseHolder i).Rising := h.onArb

theorem State.Rising.releaseWires {i : Nat} (h : s.Rising) : (s.releaseWires i).Rising := h.releaseHolder.onArb

theorem State.Rising.endTenure {i code : Nat} (h : s.Rising) : (s.endTenure i code).Rising := h.releaseWires.onArb

theorem State.Rising.runHolder {fuel i : Nat} (h : s.Rising) : (s.runHolder fuel i).Rising := by
  induction fuel generalizing s with
  | zero => exact h
  | succ k ih =>
    unfold State.runHolder
    dsimp only
    split
    · exact h.endTenure
    · refine ite h.endTenure ?_
      split
      · exact h.endTenure
      · exact ite h.launch.onArb (ite h.launch.onArb.endTenure (ih h.launch.onArb))

theorem State.Rising.takeWires {i code limit : Nat} (h : s.Rising) : (s.takeWires i code limit).Rising := h.onArb.runHolder

theorem State.Rising.claimWires {i : Nat} (h : s.Rising) : (s.claimWires i).Rising := by
  unfold State.claimWires
  dsimp only
  split
  · exact .ite h.onArb (.ite h h.takeWires)
  · exact h

theorem State.Rising.arbitrate {i : Nat} (h : s.Rising) : (s.arbitrate i).Rising := by
  unfold State.arbitrate
  dsimp only
  refine .ite h ?_
  split
  · exact .ite h.onArb h
  · split
    · exact .ite h.onArb h
    · exact .ite (State.Rising.ite h.onArb h).onArb.takeWires (State.Rising.ite h.onArb h).onArb.onArb

theorem State.Rising.afterTx {i cost : Nat} (h : s.Rising) : (s.afterTx i cost).Rising := by
  unfold State.afterTx
  extract_lets u v w a emg x
  have hw : w.Rising := (State.Rising.ite h.settleWhistle.sendFreeze h.settleWhistle).onArb
  exact .ite hw.releaseHolder.claimWires
    (.ite hw (.ite hw.releaseWires (.ite hw.onArb.takeWires (.ite hw.releaseWires hw.runHolder))))

theorem State.Rising.endTx {i : Nat} {t : Tx} {busy : Nat} (h : s.Rising) : (s.endTx i t busy).1.Rising := by
  unfold State.endTx
  dsimp only
  split
  · exact h.onSeg.chargeShaper
  · exact h.onSeg

theorem State.Rising.settleIdle {i : Nat} (h : s.Rising) : (s.settleIdle i).Rising := by
  unfold State.settleIdle
  split
  · exact .ite h h.sendWords
  · exact h

theorem State.Rising.queueHk {i : Nat} {h : HkItem} (hs : s.Rising) : (s.queueHk i h).Rising := hs.onSeg

end Sys2Proof.Machine
end

section
/-! The host port, the bridge and the rings keep the tables rising (O2, O4). -/

namespace Sys2Proof.Machine

open Sys2Proof

variable {s t : State}

/-! ### The host port -/

theorem Goes.execHostWrite {p : PartId} {off : BitVec 34} {data : List W32} {firstBE lastBE : BitVec 4} :
    Goes s (execHostWrite p off data firstBE lastBE s) :=
  .ite .same (.ite (.next fun h => h.dropWrite) (.next fun h => h.getD fun _ => h.acceptWrite))

theorem Goes.execHostRead {p : PartId} {off : BitVec 34} {dwords : Nat} {firstBE lastBE : BitVec 4} {tag : Nat} :
    Goes s (execHostRead p off dwords firstBE lastBE tag s) :=
  .ite .same (.ite (.next fun h => h.emit) (.next fun h => h.getD fun _ => h.acceptRead))

theorem Goes.execZeroLengthRead {p : PartId} {off : BitVec 34} {tag : Nat} : Goes s (execZeroLengthRead p off tag s) := by
  unfold Machine.execZeroLengthRead
  dsimp only
  refine .ite .same ?_
  split
  · exact .next fun h => (State.Rising.ite h.recordReadErr h).emit
  · split
    · exact .next fun h => h.emit
    · exact .next fun h => h.onBridge

theorem Goes.execAtomicOp {p : PartId} {bar : BarId} {off : BitVec 34} {kind : AtomicKind} {bytes operand compare tag : Nat} :
    Goes s (execAtomicOp p bar off kind bytes operand compare tag s) :=
  .ite .same (.ite (.next fun h => h.emit) (.ite (.next fun h => h.onPart.emit) (.ite (.next fun h => h.emit)
    (.next fun h => h.getD fun _ => h.acceptAtomic))))

theorem Goes.execPoisonedWrite {p : PartId} : Goes s (execPoisonedWrite p s) := .ite .same (.next fun h => h.onPart)

theorem State.Rising.fetchDone {p r first count : Nat} {bytes : List Byte} (h : s.Rising) : (s.fetchDone p r first count bytes).Rising :=
  h.onRing.settleRings.fetch

theorem State.Rising.fetchFailed {p r : Nat} (h : s.Rising) : (s.fetchFailed p r).Rising := h.onRing

theorem State.Rising.commandRead {p r id : Nat} {bytes : Option (List Byte)} (h : s.Rising) : (s.commandRead p r id bytes).Rising := h.onRing

theorem State.Rising.readEnds {d : DmaRead} {x : ReadResult} (h : s.Rising) : (s.readEnds d x).Rising := by
  unfold State.readEnds
  split
  · exact h.fetchDone
  · exact h.fetchFailed
  · exact h.commandRead
  · exact h.commandRead
  · exact h

theorem Goes.execDmaReadCompletion {id : Nat} {result : ReadResult} : Goes s (execDmaReadCompletion id result s) := by
  unfold Machine.execDmaReadCompletion
  split
  · exact .same
  · exact .ite .same (.next fun h => h.endRequest.readFailed.getD_map fun _ => h.endRequest.readFailed.readEnds)

theorem State.Rising.loseGuestPosted {p : Nat} (h : s.Rising) : (s.loseGuestPosted p).Rising := h.onBridge.foldl fun _ _ ht => ht.journal

theorem State.Rising.linkDown {p : Nat} (h : s.Rising) : (s.linkDown p).Rising := h.composeFirst.resetPartition.loseGuestPosted.onPart

theorem Goes.execLinkReset {x : LinkSignal} : Goes s (execLinkReset x s) :=
  .next fun h => (h.fairly (.ite (h.foldl fun _ _ ht => ht.linkDown) h)).foldl fun _ _ ht => ht.onPart

theorem Goes.execPartitionReady {p : PartId} : Goes s (execPartitionReady p s) := .ite .same (.next fun h => h.onPart)

theorem Goes.cfgWrite {p : Nat} {f : State → State} (hf : ∀ u, u.Rising → (f u).Rising) : Goes s (s.cfgWrite p f) :=
  .ite .same (.ite (.next fun h => h.emit) (.next fun h => hf _ h.onPart))

theorem Goes.execFunctionLevelReset {p : PartId} : Goes s (execFunctionLevelReset p s) := .cfgWrite fun _ ht => ht.composeFirst.resetPartition

theorem Goes.execLinkDegraded {l : LinkId} {speed : BitVec 4} {width : BitVec 6} : Goes s (execLinkDegraded l speed width s) :=
  .next fun h => h.foldl fun _ _ ht => .ite ht.onPart ht.onPart.signalUnit

theorem State.Rising.l1OnD3hot {p : Nat} (h : s.Rising) : (s.l1OnD3hot p).Rising := .ite (h.foldl fun _ _ ht => ht.onPart) h

theorem State.Rising.resumeDma {p : Nat} (h : s.Rising) : (s.resumeDma p).Rising := .ite h.releaseHeld.sendPending.flushLog.sendReads.fetchAll h

theorem State.Rising.returnD0 {p : Nat} (h : s.Rising) : (s.returnD0 p).Rising := .ite h h.onPart.resumeDma

theorem Goes.execD3hotEntry {p : PartId} {w : PmWrite} : Goes s (execD3hotEntry p w s) :=
  .cfgWrite fun _ ht => .ite ht.onPart.onPart.l1OnD3hot (.ite ht.onPart.returnD0 ht.onPart)

theorem Goes.execD0Return {w : D0Write} : Goes s (execD0Return w s) := .cfgWrite fun _ ht => ht.onPart.returnD0

theorem Goes.execPmeResend {p : PartId} : Goes s (execPmeResend p s) := by
  unfold Machine.execPmeResend
  dsimp only
  split
  · exact .same
  · exact .ite .same (.next fun h => h.onPart.emit)

theorem Goes.execPmeTurnOff {l : LinkId} : Goes s (execPmeTurnOff l s) := .next fun h => h.emit

theorem Goes.execAspmL1Entry {l : LinkId} : Goes s (execAspmL1Entry l s) := .ite .same (.next fun h => h.foldl fun _ _ ht => ht.onPart)

theorem Goes.execBusMasterEnableSet {p : PartId} {reg : CfgReg} {value : W32} {be : BitVec 4} : Goes s (execBusMasterEnableSet p reg value be s) :=
  .cfgWrite fun _ ht => .ite ht.onPart.sendPending ht.onPart.resumeDma

theorem Goes.execMsixUnmask {p : PartId} {off : BitVec 13} {write : Option W32} {tag : Nat} : Goes s (execMsixUnmask p off write tag s) := by
  unfold Machine.execMsixUnmask
  split
  · exact .ite .same (.ite (.next fun h => h.dropWrite) (.next fun h => h.onPart.sendPending))
  · exact .ite .same (.ite (.next fun h => h.emit) (.next fun h => h.emit))

/-! ### Scheduled accesses -/

theorem State.Rising.busError {who : Requester} {addr : Nat} (h : s.Rising) : (s.busError who addr).Rising := by
  unfold State.busError
  dsimp only
  refine .emit ?_
  split
  · exact .ite h.onCust h
  · exact h

theorem Goes.access {who : Requester} {k : AccKind} {bar0 ctl : Bool} {addr : Nat} {v : W32} {ok : State → Res} (hok : Goes s (ok s)) :
    Goes s (s.access who k bar0 ctl addr v ok) := by
  unfold State.access
  split
  · exact .ite .same (.ite hok (.next fun h => .ite h.emit h.dropWrite))
  · exact .ite .same (.ite (.ite (.next fun h => .ite h.emit h) hok) (.next fun h => h.violation.busError))

theorem Goes.barWrite {p : Nat} {ok : State → Res} (hok : Goes s (ok s)) : Goes s (s.barWrite p ok) :=
  .ite .same (.ite hok (.next fun h => h.dropWrite))

theorem Goes.barRead {p : Nat} {ok : State → Res} (hok : Goes s (ok s)) : Goes s (s.barRead p ok) :=
  .ite .same (.ite hok (.next fun h => h.emit))

/-! ### Events of the bridge -/

theorem State.Rising.countStale {p : Nat} {it : Item} (h : s.Rising) : (s.countStale p it).Rising := .ite h h.onBridge

theorem State.Rising.failStale {fuel p : Nat} (h : s.Rising) : (s.failStale fuel p).Rising := by
  induction fuel generalizing s with
  | zero => exact h
  | succ k ih =>
    unfold State.failStale
    split
    · exact h
    · exact ih h.failHead.countStale

theorem Goes.execStale {p : PartId} : Goes s (execStale p s) := .next fun h => h.failStale

theorem Goes.execPrefetchExpiry {p : PartId} {w : Fin 256} : Goes s (execPrefetchExpiry p w s) := by
  unfold Machine.execPrefetchExpiry
  split
  · exact .next fun h => .ite h.invalidate h
  · exact .same

theorem Goes.execClaim {p : PartId} : Goes s (execClaim p s) := .barWrite (.ite (.next fun h => h.onBridge) .same)

theorem Goes.execRelease {p : PartId} : Goes s (execRelease p s) := .barWrite (.next fun h => .ite h.freeSem.grantSem h)

theorem Goes.execSemaphoreExpiry {p : PartId} : Goes s (execSemaphoreExpiry p s) := by
  unfold Machine.execSemaphoreExpiry
  split
  · exact .ite .same (.next fun h => h.freeSem.onBridge.signalUnit.grantSem)
  · exact .same

theorem Goes.execBrgJrnAckWrite {p : PartId} {v : W32} : Goes s (execBrgJrnAckWrite p v s) := .barWrite (.next fun h => h.onBridge)

/-! ### Rings and sessions -/

theorem Goes.execSqTailDoorbell {p : PartId} {r : RingId} {v : W32} : Goes s (execSqTailDoorbell p r v s) :=
  .ite .same (.ite (.next fun h => h.dropWrite) (.ite (.next fun h => h.onPart) (.next fun h => h.onRing.fetch)))

theorem Goes.execCqHeadDoorbell {p : PartId} {r : RingId} {v : W32} : Goes s (execCqHeadDoorbell p r v s) :=
  .ite .same (.ite (.next fun h => h.dropWrite) (.ite (.next fun h => h.onPart) (.next fun h => h.onRing.fetch)))

theorem Goes.execSqFetchRetry {p : PartId} {r : RingId} : Goes s (execSqFetchRetry p r s) := by
  unfold Machine.execSqFetchRetry
  split
  · exact .same
  · exact .ite .same (.next fun h => h.onRing.fetch)

theorem State.Rising.clearRing0 {p : Nat} (h : s.Rising) : (s.clearRing0 p).Rising := h.dropReads.onPart

theorem Goes.execAdminRingEnable {p : PartId} {v : W32} : Goes s (execAdminRingEnable p v s) := by
  unfold Machine.execAdminRingEnable
  extract_lets x en sq cq
  refine .ite .same (.ite (.next fun h => h.dropWrite) (.ite ?_ ?_))
  · exact .ite .same (.ite (.next fun h => h.composeFirst.endSession) (.next fun h => h.clearRing0))
  · exact .ite (.next fun h => h.onPart.clearRing0) (.ite (.next fun h => h.onPart.onPart.onRing) (.next fun h => h.onPart.onRing))

theorem Goes.execHeartbeat {p : PartId} : Goes s (execHeartbeat p s) :=
  .ite .same (.ite (.next fun h => h.dropWrite) (.ite .same (.next fun h => h.restartHeartbeat)))

theorem Goes.execHeartbeatLapse {p : PartId} : Goes s (execHeartbeatLapse p s) := .ite .same (.ite (.next fun h => h.lapse) (.next fun h => h.onBoot))

theorem State.Rising.openSession {p level hb : Nat} {fallback : Bool} (h : s.Rising) : (s.openSession p level hb fallback).Rising :=
  h.onPart.returnDrops.updateTakeover

theorem State.Rising.openAct {p : Nat} {e : BitVec 512} (h : s.Rising) : (openAct p s e).Rising := h.checked h.composeFirst.openSession.reply

theorem Goes.execOpenSession {p : PartId} {r : RingId} : Goes s (execOpenSession p r s) := by
  have hcmd : Goes s (Machine.ringCmd s p r 0x01 true openLayout openChecks (openAct p)) := .ringCmd fun _ _ h => h.openAct
  obtain ⟨t, ht, hrising⟩ := hcmd
  unfold Machine.execOpenSession
  rw [ht]
  exact .next fun h => .ite (hrising h).signalUnit (hrising h)

theorem State.Rising.abortWaits {p : Nat} (h : s.Rising) : (s.abortWaits p).Rising := h.foldl fun _ _ ht => ht.onRing.complete

theorem State.Rising.closeNow {p : Nat} (h : s.Rising) : (s.closeNow p).Rising :=
  h.composeFirst.abortWaits.sheepdog.destroyObjects.dropReads.onPart.closeSession

theorem Goes.execCloseSession {p : PartId} {r : RingId} : Goes s (execCloseSession p r s) := .ringCmd fun _ _ ht => .ite ht.hold ht.closeNow.reply

theorem State.Rising.resumeClose {p : Nat} (h : s.Rising) : (s.resumeClose p).Rising := .ite h.closeNow.endWait h

theorem Goes.execHandback {p : PartId} {r : RingId} : Goes s (execHandback p r s) :=
  .ringCmd fun _ _ ht => ht.checked ht.returnDrops.restartHeartbeat.onPart.setLive.reply

theorem Goes.execRingCreate {p : PartId} {r : RingId} : Goes s (execRingCreate p r s) := .ringCmd fun _ _ ht => ht.checked ht.onRing.reply

theorem Goes.execRingDelete {p : PartId} {r : RingId} : Goes s (execRingDelete p r s) := .ringCmd fun _ _ ht => ht.checked ht.onPart.dropReads.reply

theorem Goes.execAdmissionQuery {p : PartId} {r : RingId} : Goes s (execAdmissionQuery p r s) := .ringCmd fun _ _ ht => ht.writeRecord.reply

/-! ### Streams -/

theorem State.Rising.startCmdReads {p r : Nat} {l : List (Nat × Nat)} (h : s.Rising) : (s.startCmdReads p r l).2.Rising := by
  unfold State.startCmdReads
  split
  · exact foldl_of Prod.snd h fun _ _ ht => ht.startRead
  · exact h.onPart

theorem State.Rising.rewait {p r : Nat} {w : Wait} (h : s.Rising) : (s.rewait p r w).Rising := h.onRing

theorem State.Rising.makeStream {slot : Nat} {x : Stream} (h : s.Rising) : (s.makeStream slot x).Rising := h.putStream.clearWindow.resetStreamSources

theorem State.Rising.streamCreateAct {p : Nat} {e : BitVec 512} (h : s.Rising) : (streamCreateAct p s e).Rising := by
  unfold Machine.streamCreateAct
  extract_lets k x
  split
  · exact h.reply
  · exact h.reply
  · split
    · exact h.reply
    · split
      · exact h.reply
      · exact h.checked h.makeStream.reply

theorem Goes.execStreamCreate {p : PartId} {r : RingId} : Goes s (execStreamCreate p r s) := .ringCmd fun _ _ ht => ht.streamCreateAct

theorem State.Rising.onNamedStream {p : Nat} {e : BitVec 512} {legal : List StreamState} {k : Nat → Stream → CmdOut} (h : s.Rising)
    (hk : ∀ slot x, (k slot x).Rising) : (onNamedStream s p e legal k).Rising := by
  unfold Machine.onNamedStream
  split
  · exact h.reply
  · split
    · exact h.reply
    · exact .ite (hk _ _) h.reply

theorem Goes.execStreamStart {p : PartId} {r : RingId} : Goes s (execStreamStart p r s) :=
  .ringCmd fun _ _ ht => ht.onNamedStream fun _ _ => ht.onStream.recoverStream.signal.reply

theorem Goes.execStreamStop {p : PartId} {r : RingId} : Goes s (execStreamStop p r s) :=
  .ringCmd fun _ _ ht => ht.onNamedStream fun _ _ => ht.composeFirst.onStream.abortFeeds.reply

theorem Goes.execStreamDestroy {p : PartId} {r : RingId} : Goes s (execStreamDestroy p r s) :=
  .ringCmd fun _ _ ht => ht.onNamedStream fun _ _ => ht.composeFirst.dropStream.reply

theorem Goes.execStreamQuery {p : PartId} {r : RingId} : Goes s (execStreamQuery p r s) :=
  .ringCmd fun _ _ ht => ht.onNamedStream fun _ _ => (State.Rising.ite ht.writeRecord.onStream ht.writeRecord).reply

theorem State.Rising.feedGo {p r slot : Nat} {x : Stream} {l : List (Nat × Nat)} {badAt : Nat} (h : s.Rising) :
  (s.feedGo p r slot x l badAt).Rising :=
  .ite h.reply (.ite (.ite h.onRing.hold h.onRing.reply) h.onRing.onStream.startCmdReads.hold)

theorem Goes.execStreamFeed {p : PartId} {r : RingId} : Goes s (execStreamFeed p r s) := by
  unfold Machine.execStreamFeed
  dsimp only
  split
  · exact .same
  · exact .ringCmd fun _ _ ht => ht.onNamedStream fun _ _ => .ite ht.startCmdReads.hold ht.feedGo

theorem Goes.execStreamFeedSpace {p : PartId} {r : RingId} : Goes s (execStreamFeedSpace p r s) := by
  unfold Machine.execStreamFeedSpace
  dsimp only
  split
  · split
    · exact .ite .same (.next fun h => h.onStream.startCmdReads.rewait)
    · exact .same
  · exact .same

theorem State.Rising.streamError {slot : Nat} (h : s.Rising) : (s.streamError slot).Rising := h.countError.signal

theorem State.Rising.unitErrors {slot : Nat} {bad : Bool} (h : s.Rising) : (s.unitErrors slot bad).Rising := by
  unfold State.unitErrors
  dsimp only
  split
  · exact .ite h.onStream.failStream h.onStream
  · exact h.onStream

theorem State.Rising.feedEnd {p r : Nat} {e : BitVec 512} {got : List (Nat × List Byte)} {failed : Bool} (h : s.Rising) :
    (s.feedEnd p r e got failed).Rising := by
  unfold State.feedEnd
  extract_lets g
  split
  · exact h.endWait
  · split
    · exact h.endWait
    · refine .ite h.onStream.streamError.endWait (.ite (.ite h.endWait ?_) h.onStream.endWait)
      split
      · exact h.endWait
      · have hgo := fun slot x l => h.feedGo (p := p) (r := r) (slot := slot) (x := x) (l := l) (badAt := bitPos 0x20 0)
        split
        · next y t heq =>
          have ht : CmdOut.Rising (.reply y t) := heq ▸ hgo _ _ _
          exact (State.Rising.ite ht h).endWait
        · next w t heq =>
          have ht : CmdOut.Rising (.hold w t) := heq ▸ hgo _ _ _
          exact State.Rising.rewait ht

end Sys2Proof.Machine
end

section
/-! Discovery, surfaces, calendars, time and the Retriever keep the tables rising (O2, O4). -/

namespace Sys2Proof.Machine

open Sys2Proof

variable {s t : State}

/-! ### Discovery -/

theorem State.Rising.sendTo {g op addr len : Nat} {data : List W16} {c2 : Bool} (h : s.Rising) : (s.sendTo g op addr len data c2).Rising :=
  h.sendWords

theorem State.Rising.exchange {g op addr len : Nat} {data : List W16} (h : s.Rising) : (s.exchange g op addr len data).Rising :=
  .ite h.whistlePeriod h.sendTo

theorem State.Rising.schedAccess {k : AccKind} {g addr len : Nat} (h : s.Rising) : (s.schedAccess k g addr len).2.Rising := h.blockAccess

theorem State.Rising.writeQ {g : Nat} (h : s.Rising) : (s.writeQ g).Rising := .ite h (.ite h.schedAccess h.schedAccess.exchange.onDrop)

theorem State.Rising.queueQ {g : Nat} (h : s.Rising) : (s.queueQ g).Rising := .ite h.schedAccess h.onSeg

theorem State.Rising.setQdelays {i : Nat} (h : s.Rising) : (s.setQdelays i).Rising := h.foldl fun _ _ ht => .ite ht ht.queueQ

theorem State.Rising.sendC2 {i n : Nat} {ws : List ColWord} (h : s.Rising) : (s.sendC2 i n ws).Rising := .ite h.sendWords h.whistlePeriod

theorem State.Rising.heard {g : Nat} {a : Answer} (h : s.Rising) : (s.heard g a).Rising :=
  .ite (State.Rising.ite (State.Rising.ite h.answered h).refreshed (.ite h.answered h)).countError
    (.ite (State.Rising.ite h.answered h).refreshed (.ite h.answered h))

theorem State.Rising.setDepth {g bits : Nat} (h : s.Rising) : (s.setDepth g bits).Rising := .ite h.onDrop h.onDrop.markUnknown

theorem State.Rising.negotiated {g : Nat} {answers : List Answer} (h : s.Rising) : (s.negotiated g answers).Rising :=
  .ite h.schedAccess.onDrop (h.schedAccess.setDepth.foldl fun _ _ ht => .ite ht ht.onDrop.exchange.heard)

theorem State.Rising.negotiationFails {g : Nat} (h : s.Rising) : (s.negotiationFails g).Rising := h.setMode.onDrop

theorem State.Rising.negotiate {g : Nat} {a : NegoAnswers} (h : s.Rising) : (s.negotiate g a).Rising := by
  unfold State.negotiate
  extract_lets d w u v x run y z
  have hv : v.Rising := h.schedAccess.sendTo.heard
  have hz : z.Rising := hv.setMode.sendC2.foldl fun _ _ ht => ht.heard
  exact .ite h (.ite h.schedAccess (.ite hv.negotiationFails (.ite hz.negotiated hz.negotiationFails)))

theorem State.Rising.beginExchange {g cost : Nat} (h : s.Rising) (ht : s.beginExchange g cost = some t) : t.Rising := by
  obtain ⟨a, -, rfl⟩ := Option.map_eq_some_iff.mp ht
  exact h.settleWhistle.onArb

theorem State.Rising.readAttempts {k g : Nat} {l : List (List ColWord)} {first : Bool} (h : s.Rising) : (s.readAttempts k g l first).1.Rising := by
  induction k generalizing s l first with
  | zero => exact h
  | succ k ih =>
    unfold State.readAttempts
    extract_lets a
    have ha : a.2.Rising := h.schedAccess
    clear_value a
    split
    · exact ha
    · next u _ =>
      have hu : u.Rising := ha.sendTo
      clear_value u
      split
      · exact hu.answered
      · extract_lets silent v
        have hv : v.Rising := .ite hu hu.countError
        clear_value v
        split
        · exact hv
        · exact ih hv

theorem State.Rising.readDrop {g : Nat} {x : Discovery} (h : s.Rising) : (s.readDrop g x).1.Rising := h.readAttempts

theorem State.Rising.record {g : Nat} {x : Descriptor} (h : s.Rising) : (s.record g x).Rising := h.onDrop

theorem State.Rising.measureDrop {g : Nat} {x : Discovery} (h : s.Rising) : (s.measureDrop g x).Rising :=
  .ite h (.ite h.sendTo.onDrop.answered h.sendTo.onDrop.countError)

theorem State.Rising.readRuns {g addr len : Nat} (h : s.Rising) : (s.readRuns g addr len).1.Rising := h.schedAccess.foldl fun _ _ ht => ht.exchange

theorem State.Rising.readStatic {g : Nat} {answer : List ColWord} (h : s.Rising) : (s.readStatic g answer).Rising :=
  (State.Rising.ite h.readRuns.heard h.readRuns).onDrop

theorem State.Rising.readTelemetry {g : Nat} {x : Discovery} (h : s.Rising) : (s.readTelemetry g x).Rising := .ite h (.ite h.onDrop h.readStatic)

theorem State.Rising.renewTiles {g : Nat} (h : s.Rising) : (s.renewTiles g).Rising := .ite h.markUnknown h.onWaf

theorem State.Rising.discover {g : Nat} {d : Descriptor} {x : Discovery} (h : s.Rising) : (s.discover g d x).Rising :=
  h.record.measureDrop.writeQ.setQdelays.negotiate.renewTiles.readTelemetry

theorem State.Rising.loseDrop {g : Nat} (h : s.Rising) : (s.loseDrop g).Rising :=
  (h.remix fun _ ht => ht.onDrop).onSeg.invalidateDrop.suspendPrefetch.failNoDropAll.signalSeg.updateTakeover

theorem Goes.execDropQuery {p : PartId} {r : RingId} : Goes s (execDropQuery p r s) := .ringCmd fun _ _ ht => ht.checked ht.onDrop.reply

theorem Goes.execDropRestore {p : PartId} {r : RingId} : Goes s (execDropRestore p r s) :=
  .ringCmd fun _ _ ht => ht.checked ht.clearWindow.markUnknown.onDrop.hold

theorem State.Rising.restored {g : Nat} {x : Discovery} (h : s.Rising) : (s.restored g x).Rising := by
  unfold State.restored
  dsimp only
  refine .ite h.onDrop (.ite (h.onDrop.setLive.occurRestore.remix fun _ ht => ht.onDrop).suspendPrefetch.readDrop.updateTakeover ?_)
  split
  · exact (h.onDrop.setLive.occurRestore.remix fun _ ht => ht.onDrop).suspendPrefetch.readDrop.discover.signalSeg.updateTakeover
  · exact (h.onDrop.setLive.occurRestore.remix fun _ ht => ht.onDrop).suspendPrefetch.readDrop.loseDrop

theorem Goes.execDropRestoreEnd {p : PartId} {r : RingId} {answers : Discovery} : Goes s (execDropRestoreEnd p r answers s) := by
  unfold Machine.execDropRestoreEnd
  split
  · extract_lets go
    have hgo : ∀ u, (s.Rising → u.Rising) → Goes s (go u) := fun u hu => .next fun h => (hu h).restored.endWait.resumeClose
    refine .ite (hgo s id) (.ite .same ?_)
    split
    · next hbegin => exact hgo _ fun h => h.beginExchange hbegin
    · exact .same
  · exact .same

/-! ### Surfaces, images and canvases -/

theorem State.Rising.onImage {p k : Nat} {f : HostImage → HostImage} (h : s.Rising) : (s.onImage p k f).Rising := h.onPart

theorem Goes.execImageCreate {p : PartId} {r : RingId} : Goes s (execImageCreate p r s) := .ringCmd fun _ _ ht => ht.checked ht.newId.onPart.reply

theorem Goes.execImageWrite {p : PartId} {r : RingId} : Goes s (execImageWrite p r s) := .ringCmd fun _ _ ht => ht.checked ht.startCmdReads.hold

theorem State.Rising.imageWriteEnd {p r : Nat} {e : BitVec 512} {got : List (Nat × List Byte)} {failed : Bool} (h : s.Rising) :
    (s.imageWriteEnd p r e got failed).Rising := by
  unfold State.imageWriteEnd
  dsimp only
  split
  · exact h.composeFirst.endWait
  · exact .ite h.composeFirst.onImage.endWait h.composeFirst.onImage.endWait

theorem Goes.execImageDestroy {p : PartId} {r : RingId} : Goes s (execImageDestroy p r s) := by
  unfold Machine.execImageDestroy
  dsimp only
  refine .ringCmd fun _ _ ht => ?_
  split
  · exact ht.composeFirst.reply
  · exact ht.composeFirst.holdGone.orphanPages.onPart.reply

theorem State.Rising.layerAct {p : Nat} {e : BitVec 512} (h : s.Rising) : (layerAct p s e).Rising := by
  unfold Machine.layerAct
  dsimp only
  refine .ite ?_ (h.composeFirst.checked h.composeFirst.onSurf.recharge.reply)
  split
  · exact h.composeFirst.reply
  · exact h.composeFirst.checked h.composeFirst.onCanvas.recharge.reply

theorem Goes.execLayerSet {p : PartId} {r : RingId} : Goes s (execLayerSet p r s) := .ringCmd fun _ _ ht => ht.layerAct

theorem Goes.execSurfaceSet {p : PartId} {r : RingId} : Goes s (execSurfaceSet p r s) := by
  unfold Machine.execSurfaceSet
  dsimp only
  refine .ringCmd fun _ _ ht => .ite ?_ (ht.composeFirst.checked ht.composeFirst.settleGates.onSurf.reply)
  split
  · exact ht.composeFirst.reply
  · exact (ht.composeFirst.settleCanvas.onCanvas.foldl fun _ _ ht => ht.settleGates.onSurf).reply

theorem Goes.execSurfaceQuery {p : PartId} {r : RingId} : Goes s (execSurfaceQuery p r s) :=
  .ringCmd fun _ _ ht => ht.checked (State.Rising.ite ht.writeRecord.onDrop ht.writeRecord).reply

theorem State.Rising.canvasAct {p r : Nat} {e : BitVec 512} {bytes : List Byte} (hs : s.Rising) : (canvasAct p r s e bytes).Rising := by
  unfold Machine.canvasAct
  extract_lets k w h t l
  split
  · exact hs.reply
  · exact hs.checked (hs.composeFirst.putCanvas.foldl fun _ _ ht => ht.onDrop).recharge.reply

theorem Goes.execCanvasCreate {p : PartId} {r : RingId} : Goes s (execCanvasCreate p r s) := by
  unfold Machine.execCanvasCreate
  split
  · exact .same
  · refine .next fun h => h.onPart.finish ?_
    split
    · exact h.onPart.startCmdReads.hold
    · exact h.onPart.canvasAct

theorem State.Rising.finishRead {p r : Nat} {o : CmdOut} (h : s.Rising) (ho : o.Rising) : (s.finishRead p r o).Rising := h.finish ho

theorem State.Rising.canvasEnd {p r : Nat} {e : BitVec 512} {got : List (Nat × List Byte)} {failed : Bool} (h : s.Rising) :
    (s.canvasEnd p r e got failed).Rising := by
  unfold State.canvasEnd
  refine h.finishRead ?_
  split
  · exact h.reply
  · exact h.canvasAct

theorem Goes.execCanvasDestroy {p : PartId} {r : RingId} : Goes s (execCanvasDestroy p r s) := by
  unfold Machine.execCanvasDestroy
  dsimp only
  refine .ringCmd fun _ _ ht => ?_
  split
  · exact ht.reply
  · exact (ht.composeFirst.foldl fun _ _ ht => ht.onDrop).eraseCanvas.reply

/-! ### Calendars, shapers and gate lists -/

theorem State.Rising.setStaged {p i : Nat} {x : Staged} (h : s.Rising) : (s.setStaged p i x).Rising := h.onSeg

theorem Goes.execCalWrite {p : PartId} {r : RingId} : Goes s (execCalWrite p r s) :=
  .ringCmd fun _ _ ht => ht.settleCal.checked ht.settleCal.setStaged.reply

theorem State.Rising.discardCal {p i : Nat} (h : s.Rising) : (s.discardCal p i).Rising := .ite h.setStaged.rederive h.setStaged

theorem Goes.execCalDiscard {p : PartId} {r : RingId} : Goes s (execCalDiscard p r s) :=
  .ringCmd fun _ _ ht => ht.settleCal.checked ht.settleCal.discardCal.reply

theorem State.Rising.commitCal {p i due : Nat} (h : s.Rising) : (s.commitCal p i due).Rising := h.setStaged.onSeg.recharge.chargeColant

theorem Goes.execCalCommit {p : PartId} {r : RingId} : Goes s (execCalCommit p r s) :=
  .ringCmd fun _ _ ht => ht.settleCal.checked ht.settleCal.commitCal.reply

theorem Goes.execShaperCreate {p : PartId} {r : RingId} : Goes s (execShaperCreate p r s) := .ringCmd fun _ _ ht => ht.checked ht.onPart.reply

theorem Goes.execShaperSet {p : PartId} {r : RingId} : Goes s (execShaperSet p r s) := .ringCmd fun _ _ ht => ht.checked ht.onShaper.reply

theorem Goes.execShaperDestroy {p : PartId} {r : RingId} : Goes s (execShaperDestroy p r s) :=
  .ringCmd fun _ _ ht => (ht.foldl fun _ _ ht2 => ht2.settleCal).checked (ht.foldl fun _ _ ht2 => ht2.settleCal).onPart.reply

theorem State.Rising.onGate {k : Nat} {f : GateList → GateList} (h : s.Rising) : (s.onGate k f).Rising := by
  unfold State.onGate
  split
  · exact h.putGate
  · exact h

theorem State.Rising.gateCreateAct {p r : Nat} {e : BitVec 512} {bytes : List Byte} (h : s.Rising) : (gateCreateAct p r s e bytes).Rising := by
  unfold Machine.gateCreateAct
  extract_lets k group aligned checks
  split
  · exact h.reply
  · exact h.checked h.putGate.reply

theorem Goes.execGateListCreate {p : PartId} {r : RingId} : Goes s (execGateListCreate p r s) := by
  unfold Machine.execGateListCreate
  split
  · exact .same
  · exact .next fun h => h.onPart.finish (.ite h.onPart.startCmdReads.hold h.onPart.gateCreateAct)

theorem State.Rising.gateEnd {p r : Nat} {e : BitVec 512} {got : List (Nat × List Byte)} {failed : Bool} (h : s.Rising) :
    (s.gateEnd p r e got failed).Rising := by
  unfold State.gateEnd
  exact h.finishRead (.ite h.reply h.gateCreateAct)

theorem State.Rising.onNamedGate {p : Nat} {e : BitVec 512} {legal : List GateState} {f : Nat → GateList → CmdOut} (h : s.Rising)
    (hf : ∀ k g, (f k g).Rising) : (onNamedGate s p e legal f).Rising := by
  unfold Machine.onNamedGate
  dsimp only
  split
  · exact h.reply
  · exact .ite (hf _ _) h.reply

theorem Goes.execGateListWrite {p : PartId} {r : RingId} : Goes s (execGateListWrite p r s) := by
  unfold Machine.execGateListWrite
  dsimp only
  split
  · exact .same
  · exact .ringCmd fun _ _ ht => ht.onNamedGate fun _ _ => ht.onGate.reply

theorem Goes.execGateListStart {p : PartId} {r : RingId} : Goes s (execGateListStart p r s) :=
  .ringCmd fun _ _ ht => .ite ht.reply (ht.onNamedGate fun _ _ => ht.checked ht.composeFirst.onGate.reply)

theorem Goes.execGateListStop {p : PartId} {r : RingId} : Goes s (execGateListStop p r s) :=
  .ringCmd fun _ _ ht => ht.onNamedGate fun _ _ => ht.composeFirst.onGate.reply

theorem Goes.execGateListDestroy {p : PartId} {r : RingId} : Goes s (execGateListDestroy p r s) :=
  .ringCmd fun _ _ ht => ht.onNamedGate fun _ _ => ht.composeFirst.eraseGate.reply

theorem Goes.execCommandReadEnd {p : PartId} {r : RingId} : Goes s (execCommandReadEnd p r s) := by
  unfold Machine.execCommandReadEnd
  dsimp only
  refine .ite .same ?_
  split
  · exact .ite (.next fun h => h.feedEnd) (.ite (.next fun h => h.imageWriteEnd) (.ite (.next fun h => h.canvasEnd) (.next fun h => h.gateEnd)))
  · exact .same

/-! ### The timebase -/

theorem State.Rising.signalParts {kind : Nat} (h : s.Rising) : (s.signalParts kind).Rising := h.foldl fun _ _ ht => ht.signalUnit

theorem State.Rising.stepTime {ns : Int} (h : s.Rising) : (s.stepTime ns).Rising := by
  unfold State.stepTime
  extract_lets t jumped u v
  have ht : t.Rising := h.mapParts
  have hu : u.Rising := (ht.mapDrops (f := fun g d => d.stepped (t.steppedT (g / 32) ns))).mapCanvases
  have hv : v.Rising := hu.mapSegs
  exact hv.onTb.signalParts.vendorSignal

theorem State.Rising.enterTb {x : TbState} (h : s.Rising) : (s.enterTb x).Rising :=
  .ite h (.ite h.onTb.onTb.signalParts.vendorSignal.setLive.raise
    (.ite h.onTb.onTb.signalParts.vendorSignal.setLive h.onTb.onTb.signalParts.vendorSignal))

theorem State.Rising.acquire (h : s.Rising) : (s.acquire).Rising := .ite h.enterTb h

theorem State.Rising.loseReference (h : s.Rising) : (s.loseReference).Rising := by
  unfold State.loseReference
  split
  · exact h.enterTb
  · exact .ite h.enterTb h.enterTb
  · exact h

theorem State.Rising.servo {off : Int} (h : s.Rising) : (s.servo off).Rising := h.withFree.onTb

theorem State.Rising.firstFour {off : Int} (h : s.Rising) : (s.firstFour off).Rising := .ite h.onTb h.onTb

theorem State.Rising.measure {off : Int} (h : s.Rising) : (s.measure off).Rising := by
  unfold State.measure
  dsimp only
  split
  · exact .ite (State.Rising.ite h.onTb.acquire.servo.onTb h.onTb.acquire.servo.onTb.firstFour).enterTb
      (.ite h.onTb.acquire.servo.onTb h.onTb.acquire.servo.onTb.firstFour)
  · exact .ite h.onTb.acquire.servo.onTb.enterTb h.onTb.acquire.servo.onTb
  · exact h.onTb.acquire

theorem State.Rising.sendDelayReq (h : s.Rising) : (s.sendDelayReq).Rising := .ite h.onTb.emit h

theorem Goes.execTimebaseTick : Goes s (execTimebaseTick s) := by
  unfold Machine.execTimebaseTick
  dsimp only
  split
  · exact .next fun h => h.onTb.mapParts.sendDelayReq.onTb.stepTime
  · exact .next fun h => h.onTb.mapParts.sendDelayReq

theorem State.Rising.ptpMeasured {off : Int} (h : s.Rising) : (s.ptpMeasured off).Rising := .ite h.onTb.measure h.onTb

theorem State.Rising.syncOffset (h : s.Rising) : (s.syncOffset).Rising := by
  unfold State.syncOffset
  split
  · exact h.onTb.ptpMeasured
  · exact h

theorem State.Rising.takeSync {origin rx : Nat} (h : s.Rising) : (s.takeSync origin rx).Rising := h.onTb.syncOffset

theorem Goes.execPtpMessage {m : PtpMsg} : Goes s (execPtpMessage m s) := by
  unfold Machine.execPtpMessage
  dsimp only
  refine .ite .same ?_
  split
  · exact .same
  · exact .ite .same (.next fun h => h.withTb.acquire)
  · exact .ite .same (.ite (.next fun h => h.onTb.onTb) (.next fun h => h.onTb.takeSync))
  · split
    · exact .ite (.next fun h => h.takeSync) .same
    · exact .same
  · split
    · exact .ite (.next fun h => .ite h.onTb h.onTb.syncOffset) .same
    · exact .same

theorem Goes.execPpsEdge {stampNs : Nat} : Goes s (execPpsEdge stampNs s) :=
  .ite (.next fun h => h.onTb) (.ite (.next fun h => h.onTb.measure) (.next fun h => h.onTb))

theorem Goes.execReferenceLoss : Goes s (execReferenceLoss s) := .ite (.next fun h => h.onTb.loseReference) (.next fun h => h.onTb)

theorem Goes.tbWrite {who : Requester} {off : Nat} {v : W32} {ok : State → Res} (hok : Goes s (ok s)) : Goes s (s.tbWrite who off v ok) := by
  refine .access ?_
  split
  · exact .ite hok .same
  · exact hok

theorem State.Rising.writeSrc {src : BitVec 2} (h : s.Rising) : (s.writeSrc src).Rising :=
  .ite h (.ite h.onTb.enterTb (.ite h.onTb.enterTb h.onTb.loseReference))

theorem State.Rising.writeTbCtrl {v : W32} (h : s.Rising) : (s.writeTbCtrl v).Rising := .ite h.writeSrc.onTb.onTb h.writeSrc.onTb

theorem Goes.execSrcWrite {who : Requester} {v : W32} : Goes s (execSrcWrite who v s) := .tbWrite (.next fun h => h.writeTbCtrl)

theorem Goes.execStepGo {who : Requester} {v : W32} : Goes s (execStepGo who v s) := .tbWrite (.next fun h => h.writeTbCtrl)

theorem Goes.execTbRateWrite {who : Requester} {v : W32} : Goes s (execTbRateWrite who v s) := .tbWrite (.ite (.next fun h => h.onTb) .same)

theorem Goes.execStepApply : Goes s (execStepApply s) := by
  unfold Machine.execStepApply
  split
  · exact .ite (.next fun h => h.onTb.stepTime) .same
  · exact .same

theorem Goes.execPpsOut : Goes s (execPpsOut s) := .ite (.ite (.next fun h => h.onTb.emit) (.next fun h => h.onTb)) .same

theorem Goes.execTbTimeLoRead {who : Requester} : Goes s (execTbTimeLoRead who s) := .access (.next fun h => h.onTb.emit)

theorem Goes.execPathDelayRemeasure {g : DropId} {turnaroundNs : Nat} : Goes s (execPathDelayRemeasure g turnaroundNs s) := by
  unfold Machine.execPathDelayRemeasure
  dsimp only
  refine .ite (.next fun h => h.settleWhistle) ?_
  split
  · exact .next fun h => h.settleWhistle
  · exact .next fun h => h.settleWhistle.onArb.sendTo.refreshed.answered.onDrop.setQdelays

/-! ### The Retriever -/

theorem State.Rising.nextRtv {i : Nat} (h : s.Rising) : (s.nextRtv i).Rising := by
  unfold State.nextRtv
  dsimp only
  split
  · split
    · refine .ite h ?_
      split
      · split
        · exact h.onSeg.transmit
        · exact h.onSeg
      · exact h
    · exact h
  · exact h

theorem State.Rising.rtvFailed {i : Nat} {t : Tx} (h : s.Rising) : (s.rtvFailed i t).Rising := by
  unfold State.rtvFailed
  split
  · exact h.onDrop
  · exact h

theorem Goes.takeRtv {i : Nat} {f : TxFor → Bool} {k : RtvIn → State → State} (hk : ∀ r u, u.Rising → (k r u).Rising) :
    Goes s (s.takeRtv i f k) := by
  unfold State.takeRtv
  split
  · exact .next fun h => (hk _ _ h.onSeg).nextRtv
  · exact .same

theorem State.Rising.rtvMismatch {g : Nat} {seq : Byte} {want got : List W32} {bad : List Nat} (h : s.Rising) :
    (s.rtvMismatch g seq want got bad).Rising := by
  unfold State.rtvMismatch
  dsimp only
  refine .countError ?_
  split
  · exact h.onDrop.markTiles.report
  · exact h.onDrop.markTiles

theorem Goes.execCrcReport {i : SegId} : Goes s (execCrcReport i s) := by
  unfold Machine.execCrcReport
  dsimp only
  refine .takeRtv fun _ _ ht => ?_
  split
  · split
    · exact ht.onPart
    · exact ht
  · split
    · exact ht.onDrop
    · exact ht.rtvMismatch

theorem Goes.execThumbnailDue {g : DropId} : Goes s (execThumbnailDue g s) := by
  unfold Machine.execThumbnailDue
  dsimp only
  split
  · exact .ite (.next fun h => h.onDrop) .same
  · exact .same

theorem Goes.execCaptureResponse {i : SegId} : Goes s (execCaptureResponse i s) := .takeRtv fun _ _ ht => .ite ht.onDrop ht

theorem Goes.execChunkResponse {i : SegId} : Goes s (execChunkResponse i s) :=
  .takeRtv fun _ _ ht => .ite ht.onDrop (.ite ht.onDrop.withEncoder ht.onDrop)

theorem State.Rising.storeThumbnail {p k : Nat} {h : ThumbJob} {qp n : Nat} (hs : s.Rising) : (s.storeThumbnail p k h qp n).Rising :=
  .ite hs.withFree.writeRecord.report.onPart hs.withFree.writeRecord.report

theorem Goes.execThumbnailEncoded {g : DropId} {lens : List Nat} : Goes s (execThumbnailEncoded g lens s) := by
  unfold Machine.execThumbnailEncoded
  dsimp only
  split
  · exact .same
  · refine .ite .same ?_
    split
    · exact .ite .same (.next fun h => h.withEncoder)
    · split
      · exact .same
      · exact .next fun h => h.withEncoder.onPart.onDrop
      · exact .next fun h => h.withEncoder.storeThumbnail

theorem State.Rising.telemetry {g : Nat} {raw : List W16} (h : s.Rising) : (s.telemetry g raw).Rising := by
  unfold State.telemetry
  dsimp only
  split
  · exact h
  · exact .ite (h.foldl fun _ _ ht => ht.onPart).report.report (h.foldl fun _ _ ht => ht.onPart).report

theorem Goes.execTelemetryDue {g : DropId} : Goes s (execTelemetryDue g s) := by
  unfold Machine.execTelemetryDue
  dsimp only
  split
  · exact .ite .same (.ite (.next fun h => h.onDrop)
      (.ite (.next fun h => h.onDrop.blockAccess.queueHk) (.next fun h => h.onDrop.blockAccess.telemetry)))
  · exact .same

theorem Goes.execTelemetryResponse {i : SegId} : Goes s (execTelemetryResponse i s) := .takeRtv fun _ _ ht => ht.telemetry

theorem Goes.execRtvRingCfgEn {p : PartId} {v : W32} : Goes s (execRtvRingCfgEn p v s) :=
  .barWrite (.ite (.ite .same (.next fun h => h.onPart)) (.ite (.next fun h => h.onPart) (.next fun h => h.onPart)))

theorem Goes.execRtvRingHeadWrite {p : PartId} {v : W32} : Goes s (execRtvRingHeadWrite p v s) := by
  unfold Machine.execRtvRingHeadWrite
  dsimp only
  refine .barWrite ?_
  split
  · exact .next fun h => h.onPart
  · exact .same

theorem Goes.execRtvDropCfgWrite {p : PartId} {v : W32} : Goes s (execRtvDropCfgWrite p v s) := .barWrite (.ite .same (.next fun h => h.onDrop))

end Sys2Proof.Machine
end

section
/-! Segments, cycles, guests, compose passes and faults keep the tables rising (O2, O4). -/

namespace Sys2Proof.Machine

open Sys2Proof

variable {s t : State}

/-! ### Segments -/

theorem State.Rising.linkLost {g : Nat} (h : s.Rising) : (s.linkLost g).Rising := .ite h h.setMode.invalidateDrop.onDrop

theorem State.Rising.resetSegment {i : Nat} (h : s.Rising) : (s.resetSegment i).Rising :=
  (h.failIssued.stopClock.foldl fun _ _ ht => ht.linkLost).onSeg

theorem Goes.execSegmentReset {i : SegId} : Goes s (execSegmentReset i s) := .ite .same (.next fun h => h.resetSegment)

theorem State.Rising.enumerateDrop {i n : Nat} {f : Option EnumFinding} (h : s.Rising) : (s.enumerateDrop i n f).Rising := by
  unfold State.enumerateDrop
  dsimp only
  refine .ite h (.ite (.ite h.readDrop.onSeg h.readDrop) ?_)
  split
  · exact (State.Rising.ite h.readDrop.onSeg h.readDrop).onDrop.record.signalSeg
  · exact .ite (State.Rising.ite h.readDrop.onSeg h.readDrop).loseDrop (.ite h.readDrop.onSeg h.readDrop)

theorem State.Rising.enumerateFound {l : List (Nat × Discovery)} (h : s.Rising) : (s.enumerateFound l).Rising :=
  (((h.foldl fun _ _ ht => ht.measureDrop).foldl fun _ _ ht => ht.writeQ).foldl fun _ _ ht => ht.markUnknown.negotiate).foldl fun _ _ ht =>
    ht.readTelemetry

theorem State.Rising.startFrozen {i : Nat} (h : s.Rising) : (s.startFrozen i).Rising := h.sendWords.onSeg

theorem Goes.execSegmentEnumeration {i : SegId} {findings : List EnumFinding} : Goes s (execSegmentEnumeration i findings s) := by
  unfold Machine.execSegmentEnumeration
  extract_lets x off powered u v w frozen heard found answered enumerated charged caused waiting
  refine .ite .same (.next fun h => ?_)
  have hfrozen : frozen.Rising := .ite h.emit.onSeg.sendWords.startFrozen h.emit.onSeg.sendWords
  have hheard : heard.Rising := hfrozen.foldl fun _ _ ht => ht.enumerateDrop
  have henumerated : enumerated.Rising := hheard.enumerateFound.onSeg
  have hcharged : charged.Rising := .ite henumerated henumerated.chargeColant
  have hcaused : caused.Rising := .ite hcharged.segCause hcharged.endCause
  have hwaiting : waiting.Rising := .ite hcaused.onSeg hcaused
  exact hwaiting.updateTakeover

theorem Goes.execNegotiation {g : DropId} {answers : NegoAnswers} : Goes s (execNegotiation g answers s) := by
  unfold Machine.execNegotiation
  refine .ite .same ?_
  split
  · next hbegin => exact .next fun h => (h.beginExchange hbegin).negotiate.markUnknown.onDrop.signalSeg
  · exact .same

theorem Goes.execNegotiationFailWait {g : DropId} {answer : Option W16} : Goes s (execNegotiationFailWait g answer s) := by
  unfold Machine.execNegotiationFailWait
  split
  · exact .same
  · refine .ite .same (.ite (.next fun h => h.onDrop) ?_)
    extract_lets tlm
    split
    · exact .same
    · next u hbegin =>
      extract_lets a v word w x y
      have hw : s.Rising → w.Rising := fun h =>
        have ha : a.2.Rising := (h.beginExchange hbegin).schedAccess
        have hv : v.Rising := .onDrop (.ite ha.sendTo ha)
        hv.getD_map fun _ => hv.setDepth
      have hx : s.Rising → x.Rising := fun h => .ite (hw h).heard (hw h)
      refine .next fun h => .setQdelays ?_
      dsimp only [y]
      split
      · exact .ite (hx h) (hx h).readStatic
      · exact hx h

theorem Goes.execDropRenewal {g : DropId} {answers : Discovery} : Goes s (execDropRenewal g answers s) := by
  unfold Machine.execDropRenewal
  refine .ite .same ?_
  split
  · exact .same
  · next u hbegin =>
    have hread : s.Rising → (u.readDrop g answers).1.Rising := fun h => (h.beginExchange hbegin).readDrop
    generalize u.readDrop g answers = v at hread ⊢
    refine .ite (.next hread) ?_
    split
    · exact .next fun h => (hread h).discover.signalSeg
    · exact .next fun h => (hread h).loseDrop

theorem State.Rising.copyAttnEn {i : Nat} {t : Tx} (h : s.Rising) : (s.copyAttnEn i t).Rising := .ite h.onDrop h

theorem State.Rising.bridgeAnswer {i : Nat} {t : Tx} {p id : Nat} {a : Answer} (h : s.Rising) : (s.bridgeAnswer i t p id a).Rising := by
  unfold State.bridgeAnswer
  dsimp only
  split
  · exact (State.Rising.ite h.countError h).copyAttnEn.ackHead
  · exact (State.Rising.ite h.countError h).readData
  · exact .ite (State.Rising.ite h.countError h).failHead
      (.ite (State.Rising.ite h.countError h).onItem.traceRetry (State.Rising.ite h.countError h).failHead.countError)
  · exact (State.Rising.ite h.countError h).failHead.countError
  · exact (State.Rising.ite h.countError h).failHead.countError
  · exact (State.Rising.ite h.countError h).failHead.countError
  · exact (State.Rising.ite h.countError h).failHead.countError
  · exact (State.Rising.ite h.countError h).failHead.countError
  · exact (State.Rising.ite h.countError h).failHead.countError
  · exact (State.Rising.ite h.countError h).failHead.countError

theorem State.Rising.checkNoAnswer {i : Nat} (h : s.Rising) : (s.checkNoAnswer i).Rising := .ite h h.onSeg.segCause

theorem State.Rising.pollSilent {i n : Nat} {c2 : Bool} (h : s.Rising) : (s.pollSilent i n c2).Rising :=
  (State.Rising.ite h.onDrop.setMode.onDrop.queueHk h.onDrop).checkNoAnswer

theorem State.Rising.breakStray {i : Nat} (h : s.Rising) : (s.breakStray i).Rising := .ite h.onSeg.endCause h

theorem State.Rising.serviceAnswer {i : Nat} {t : Tx} {a : Answer} (h : s.Rising) : (s.serviceAnswer i t a).Rising := by
  unfold State.serviceAnswer
  dsimp only
  split
  · exact h.onPlant.copyAttnEn.emit
  · exact h.onPlant.emit
  · exact h.onPlant.emit
  · exact h.onPlant.emit

theorem State.Rising.unitAnswer {i : Nat} {t : Tx} {a : Answer} (h : s.Rising) : (s.unitAnswer i t a).Rising := by
  unfold State.unitAnswer
  extract_lets g heard u
  have heard_rising {w : State} (hw : w.Rising) : (heard w).Rising := hw.onDrop
  have hu : u.Rising := by
    clear_value heard
    unfold u
    generalize t.who = who
    cases who
    case poll =>
      cases a
      case stat => exact heard_rising h.onSeg
      case silent => exact h.pollSilent.breakStray
      all_goals exact (heard_rising h).breakStray
    case qdelay =>
      cases a
      case ack => exact h.onDrop
      case rdata => exact h.onSeg
      all_goals exact h.rtvFailed
    case service => exact h.serviceAnswer
    all_goals
      cases a
      case rdata => exact h.onSeg
      all_goals exact h.rtvFailed
  exact .ite hu.countError hu

theorem State.Rising.finishTx {i : Nat} {t : Tx} {busy : Nat} {a : Answer} (h : s.Rising) : (s.finishTx i t busy a).Rising := by
  unfold State.finishTx
  dsimp only
  refine .nextRtv (.afterTx (.ite ?_ (.failNoDropAll ?_)))
  · split
    · exact (State.Rising.ite (State.Rising.ite h.endTx.onSeg.refreshed h.endTx.onSeg).answered
        (.ite h.endTx.onSeg.refreshed h.endTx.onSeg)).bridgeAnswer
    · exact (State.Rising.ite (State.Rising.ite h.endTx.onSeg.refreshed h.endTx.onSeg).answered
        (.ite h.endTx.onSeg.refreshed h.endTx.onSeg)).unitAnswer
  · split
    · exact (State.Rising.ite (State.Rising.ite h.endTx.onSeg.refreshed h.endTx.onSeg).answered
        (.ite h.endTx.onSeg.refreshed h.endTx.onSeg)).bridgeAnswer
    · exact (State.Rising.ite (State.Rising.ite h.endTx.onSeg.refreshed h.endTx.onSeg).answered
        (.ite h.endTx.onSeg.refreshed h.endTx.onSeg)).unitAnswer

theorem Goes.execColantResponse {i : SegId} {a : ColAnswer} : Goes s (execColantResponse i a s) := by
  unfold Machine.execColantResponse
  dsimp only
  split
  · exact .same
  · refine .ite .same (.ite (.next fun h => h.finishTx) ?_)
    split
    · exact .next fun h => h.onSeg
    · exact .next fun h => h.finishTx

theorem Goes.execColantTimeout {i : SegId} : Goes s (execColantTimeout i s) := by
  unfold Machine.execColantTimeout
  split
  · exact .same
  · exact .ite (.next fun h => h.finishTx) .same

theorem State.Rising.pollRound {i : Nat} (h : s.Rising) : (s.pollRound i).Rising := (h.foldl fun _ _ ht => ht.queueHk).onSeg

theorem Goes.execAttnAsserted {i : SegId} : Goes s (execAttnAsserted i s) := .ite .same (.next fun h => h.onSeg.pollRound)

theorem Goes.execAttnReleased {i : SegId} : Goes s (execAttnReleased i s) := .ite .same (.next fun h => h.onSeg.endCause)

theorem Goes.execPollRound {i : SegId} : Goes s (execPollRound i s) :=
  .ite .same (.ite (.next fun h => (h.foldl fun _ _ ht => ht.queueHk).onSeg) (.ite (.next fun h => h.pollRound) .same))

theorem State.Rising.stat {g : Nat} {w0 : W16} (h : s.Rising) : (s.stat g w0).Rising := by
  unfold State.stat
  extract_lets d w frames u v x y z
  have hv : v.Rising := .ite h.onDrop.markTiles.countError h.onDrop
  have hx : x.Rising := .ite hv.countError hv
  have hy : y.Rising := .ite hx.countError hx
  have hz : z.Rising := .ite hy.signal hy
  exact .ite hz.setMode.invalidateDrop.markUnknown.onDrop hz

theorem Goes.execStatReceived {i : SegId} : Goes s (execStatReceived i s) := by
  unfold Machine.execStatReceived
  dsimp only
  split
  · exact .same
  · exact .next fun h => .ite h.onSeg.stat.breakStray h.onSeg.stat

theorem Goes.execStrayAttention {i : SegId} : Goes s (execStrayAttention i s) := by
  unfold Machine.execStrayAttention
  dsimp only
  split
  · exact .ite (.next fun h => h.onSeg.signalSeg) .same
  · exact .same

theorem Goes.execStuckAttn {i : SegId} : Goes s (execStuckAttn i s) := by
  unfold Machine.execStuckAttn
  split
  · exact .ite (.next fun h => h.segCause) .same
  · exact .same

theorem Goes.execNoAnswerReset {i : SegId} : Goes s (execNoAnswerReset i s) := by
  unfold Machine.execNoAnswerReset
  dsimp only
  split
  · exact .ite (.next fun h => h.onSeg) .same
  · exact .same

/-! ### Cycles -/

theorem State.Rising.holdWindow {i : Nat} (h : s.Rising) : (s.holdWindow i).Rising :=
  .ite (h.onSeg.foldl fun _ _ ht => ht.refreshed).sendWords
    (.ite (h.onSeg.foldl fun _ _ ht => ht.refreshed).whistlePeriod (h.onSeg.foldl fun _ _ ht => ht.refreshed).sendWords)

theorem State.Rising.cutRun {i : Nat} (h : s.Rising) : (s.cutRun i).Rising := (State.Rising.ite h.signalSeg h).dropRun

theorem State.Rising.markSent {i : Nat} {r : SlotRun} {n left : Nat} (h : s.Rising) : (s.markSent i r n left).Rising := by
  unfold State.markSent
  dsimp only
  split
  · exact h.onWaf
  · exact h

theorem State.Rising.runFrames {i : Nat} (h : s.Rising) : (s.runFrames i).Rising := by
  unfold State.runFrames
  dsimp only
  split
  · exact h
  · exact .ite h.cutRun (h.foldl fun _ _ ht => ht.sendWords.refreshed).markSent.onSeg

theorem Goes.execLinkHoldWindow {i : SegId} : Goes s (execLinkHoldWindow i s) :=
  .ite (.next fun h => h.settleWhistle) (.next fun h => h.settleWhistle.holdWindow.onSeg.runFrames.claimWires.nextRtv)

theorem State.Rising.loseUnsynced {i : Nat} (h : s.Rising) : (s.loseUnsynced i).Rising := h.foldl fun _ _ ht => ht.onWaf

theorem State.Rising.takeThird {g : Nat} (h : s.Rising) : (s.takeThird g).Rising := .ite h (.ite h.onDrop h.onDrop.onWaf)

theorem State.Rising.present {i : Nat} (h : s.Rising) : (s.present i).Rising :=
  ((State.Rising.ite h (h.foldl fun _ _ ht => ht.onDrop).onSeg).foldl fun _ _ ht => ht.onDrop).updateTakeover

theorem Goes.execCycleStart {i : SegId} : Goes s (execCycleStart i s) := by
  unfold Machine.execCycleStart
  extract_lets u x
  split
  · exact .next fun h => h.settleWhistle
  · next c2 v w resume y _ _ _ =>
    refine .ite (.next fun h => h.settleWhistle) (.next fun h => ?_)
    have hw : w.Rising := h.settleWhistle.dropRun.present.loseUnsynced.sendWords
    have hy : y.Rising := .ite hw.sendWords hw
    exact hy.onSeg.holdWindow

theorem Goes.execCalendarSwap {i : SegId} : Goes s (execCalendarSwap i s) := .ite .same (.next fun h => h.onSeg)

theorem State.Rising.sendFrames {i n kind : Nat} {c2 : Bool} {l : List (List W16)} (h : s.Rising) : (s.sendFrames i n kind c2 l).Rising :=
  h.onSeg.runFrames

theorem State.Rising.rawSlot {i : Nat} {e : Slot} (h : s.Rising) : (s.rawSlot i e).Rising := .ite h.sendFrames h

theorem State.Rising.waferSlot {i : Nat} {e : Slot} (h : s.Rising) : (s.waferSlot i e).Rising := .ite h h.onWaf.sendFrames

theorem Goes.execSlotStart {i : SegId} {k : CalIndex} : Goes s (execSlotStart i k s) := by
  unfold Machine.execSlotStart
  extract_lets u x
  split
  · exact .next fun h => h.settleWhistle
  · extract_lets g v w d
    have hw (h : s.Rising) : w.Rising := (State.Rising.ite h.settleWhistle.releaseHolder h.settleWhistle.releaseWires).dropRun.onSeg.takeThird
    refine .ite (.next fun h => h.settleWhistle) (.ite (.next fun h => ?_) (.ite (.next fun h => ?_) ?_))
    · exact h.settleWhistle.dropRun.onSeg.signalSeg.settleIdle
    · exact (hw h).claimWires
    · exact .ite (.next hw) (.ite (.next fun h => (hw h).rawSlot) (.ite (.next fun h => (hw h).waferSlot) (.next fun h => (hw h).nextRtv)))

theorem Goes.execWhistle {i : SegId} {k : CalIndex} : Goes s (execWhistle i k s) := by
  unfold Machine.execWhistle
  dsimp only
  split
  · exact .next fun h => h.settleWhistle
  · exact .ite (.next fun h => h.settleWhistle) (.next fun h => h.settleWhistle.releaseWires.sendWords.sendWords.onSeg)

theorem State.Rising.commitWafer {g : Nat} (h : s.Rising) : (s.commitWafer g).Rising := .ite h.onWaf h.onWaf.onWaf

theorem State.Rising.expectCrcs {g : Nat} {seq : Byte} (h : s.Rising) : (s.expectCrcs g seq).Rising := .ite h.onDrop h.onDrop

theorem Goes.execSync {i : SegId} : Goes s (execSync i s) := by
  unfold Machine.execSync
  extract_lets u x off c2 n seq v w gs y z k
  refine .ite (.next fun h => h.settleWhistle) (.next fun h => ?_)
  have hy : y.Rising := h.settleWhistle.releaseWires.dropRun.sendWords.foldl fun _ _ ht => ht.takeThird
  have hz : z.Rising := hy.foldl fun _ _ ht => ht.commitWafer.refreshed
  have hk : k.Rising := hz.foldl fun _ _ ht => ht.expectCrcs
  exact hk.onSeg

theorem Goes.execPresentationInstant {i : SegId} : Goes s (execPresentationInstant i s) := .next fun h => h.present

theorem State.Rising.queueRefreshes {i : Nat} (h : s.Rising) : (s.queueRefreshes i).Rising := h.foldl fun _ _ ht => .ite ht.queueHk ht

theorem Goes.execArbitrationPhase {i : SegId} : Goes s (execArbitrationPhase i s) :=
  .ite (.next fun h => h.settleWhistle.settleIdle) (.next fun h => h.settleWhistle.settleIdle.queueRefreshes.onArb.claimWires.arbitrate)

theorem Goes.execKeepaliveOverdue {g : DropId} : Goes s (execKeepaliveOverdue g s) := .ite .same (.ite .same (.next fun h => h.onSeg))

theorem Goes.execWheelBucket {p : PartId} {sh : Fin 32} : Goes s (execWheelBucket p sh s) := by
  unfold Machine.execWheelBucket
  split
  · exact .ite (.next fun h => h.onShaper) .same
  · exact .same

theorem Goes.schWrite {who : Requester} {i off : Nat} {v : W32} {f : Arb → Arb} : Goes s (s.schWrite who i off v f) :=
  .access (.next fun h => h.onArb)

theorem Goes.execSchArbFreeze {who : Requester} {i : SegId} {v : W32} : Goes s (execSchArbFreeze who i v s) := .schWrite

theorem Goes.execSchArbClassWrite {who : Requester} {i : SegId} {v : W32} : Goes s (execSchArbClassWrite who i v s) := .schWrite

theorem Goes.execSchArbLeashWrite {who : Requester} {i : SegId} {n : Fin 4} {v : W32} : Goes s (execSchArbLeashWrite who i n v s) := .schWrite

theorem Goes.execSchArbTenureWrite {who : Requester} {i : SegId} {v : W32} : Goes s (execSchArbTenureWrite who i v s) := .schWrite

/-! ### Guests -/

theorem Goes.execGrant {i : SegId} {k : CalIndex} : Goes s (execGrant i k s) := by
  unfold Machine.execGrant
  extract_lets u x
  split
  · exact .next fun h => h.settleWhistle
  · refine .ite (.next fun h => h.settleWhistle) (.ite (.next fun h => ?_) (.ite (.next fun h => ?_) (.next fun h => ?_)))
    · exact h.settleWhistle.dropRun.onSeg.signalSeg.settleIdle
    · exact h.settleWhistle.releaseWires.dropRun.onSeg
    · exact h.settleWhistle.releaseWires.dropRun.onSeg.refreshed.sendWords.onSeg

theorem State.Rising.guestViolation {p : Nat} {k : AccKind} {l : List GuestWord} (h : s.Rising) : (s.guestViolation p k l).Rising := by
  unfold State.guestViolation
  split
  · exact h.violation
  · exact h

theorem State.Rising.guestReads {p i : Nat} {w : Window} {c : GuestCmd} {runs : List (Nat × Nat)} (h : s.Rising) :
    (s.guestReads p i w c runs).Rising := by
  unfold State.guestReads
  dsimp only
  split
  · exact h
  · exact h.beginGuestRead.grantSem

theorem State.Rising.acceptGuest {i : Nat} {t : Tenure} {c : GuestCmd} (h : s.Rising) : (s.acceptGuest i t c).Rising :=
  .ite h.onBridge.nakGuest h.onBridge.answerGuest

theorem State.Rising.dropGuest {i : Nat} {t : Tenure} {c : GuestCmd} (h : s.Rising) : (s.dropGuest i t c).Rising :=
  .ite (State.Rising.ite h.journal.freeSem.grantSem h.journal).nakGuest (State.Rising.ite h.journal.freeSem.grantSem h.journal).answerGuest

theorem State.Rising.guestAct {i : Nat} {t : Tenure} {op drop addr len : Nat} {data : List W16} (h : s.Rising) :
    (s.guestAct i t op drop addr len data).Rising := by
  unfold State.guestAct
  dsimp only
  refine .ite (State.Rising.ite h.violation h).nakGuest ?_
  split
  · exact h.nakGuest
  · refine .ite h.nakGuest (.ite h.guestViolation.nakGuest (.ite ?_ (.ite ?_ ?_)))
    · exact .ite h.guestViolation.nakGuest h.guestViolation.holdGuest.onBridge.grantSem
    · exact .ite h.guestViolation.guestReads h.guestViolation.nakGuest
    · split
      · exact h.guestViolation.nakGuest
      · exact .ite h.guestViolation.dropGuest (.ite h.guestViolation.acceptGuest h.guestViolation.holdGuest)

theorem State.Rising.returnTenure {i : Nat} (h : s.Rising) : (s.returnTenure i).Rising := h.onSeg

theorem Goes.execGuestCommand {i : SegId} {words : List ColWord} : Goes s (execGuestCommand i words s) := by
  unfold Machine.execGuestCommand
  dsimp only
  split
  · refine .ite .same (.ite (.next fun h => h.returnTenure) ?_)
    split
    · exact .same
    · exact .ite (.next fun h => h.nakGuest.countError)
        (.ite (.next fun h => h.nakGuest) (.ite (.next fun h => h.nakGuest) (.next fun h => h.guestAct)))
  · exact .same

theorem State.Rising.resumeRoom {p : Nat} (h : s.Rising) : (s.resumeRoom p).Rising := by
  unfold State.resumeRoom
  dsimp only
  split
  · exact .ite h.beginGuestRead h.nakGuest
  · exact h

theorem State.Rising.answerRead {i : Nat} {t : Tenure} {c : GuestCmd} {x : ReadResult} (h : s.Rising) : (s.answerRead i t c x).Rising := by
  unfold State.answerRead
  split
  · exact .ite h.nakGuest h.answerGuest
  · exact h.nakGuest
  · exact h.nakGuest
  · exact h.nakGuest
  · exact h.nakGuest

theorem Goes.execGuestReadCompletion {i : SegId} {result : ReadResult} : Goes s (execGuestReadCompletion i result s) := by
  unfold Machine.execGuestReadCompletion
  split
  · exact .same
  · next p d _ =>
    refine .ite .same ?_
    extract_lets e done freed
    have hdone : s.Rising → done.Rising := fun h => h.endRequest.readFailed
    have hfreed : ∀ u : State, u.Rising → (freed u).Rising := fun u hu => .ite hu.resumeRoom.grantSem hu
    split
    · exact .next fun h => hfreed _ (.ite (hdone h) (hdone h).onBridge)
    · exact .next fun h => hfreed _ ((hdone h).getD_map fun _ => (hdone h).answerRead)

theorem Goes.execGuestPostedEntry {i : SegId} : Goes s (execGuestPostedEntry i s) := by
  unfold Machine.execGuestPostedEntry
  dsimp only
  split
  · exact .same
  · split
    · refine .ite (.next fun h => .acceptGuest ?_) (.next fun h => ?_)
      · split
        · exact h.onBridge.sendPost.grantSem
        · exact h
      · split
        · exact h.onBridge.sendPost.grantSem
        · exact h
    · refine .next fun h => ?_
      split
      · exact h.onBridge.sendPost.grantSem
      · exact h

theorem Goes.execHoldCeiling {i : SegId} : Goes s (execHoldCeiling i s) := by
  unfold Machine.execHoldCeiling
  dsimp only
  split
  · exact .same
  · split
    · exact .ite (.next fun h => h.nakGuest) .same
    · exact .ite (.next fun h => h.nakGuest) .same
    · exact .ite (.next fun h => h.nakGuest) .same
    · exact .ite (.next fun h => h.onBridge.nakGuest) .same
    · exact .same

theorem Goes.execGuestReturn {i : SegId} : Goes s (execGuestReturn i s) := by
  unfold Machine.execGuestReturn
  split
  · exact .ite (.next fun h => h.returnTenure) .same
  · exact .same

theorem Goes.execTenureEnd {i : SegId} : Goes s (execTenureEnd i s) := by
  unfold Machine.execTenureEnd
  split
  · exact .same
  · exact .ite .same (.next fun h => h.closeTenure)

/-! ### Compose passes -/

theorem Goes.execGateBaseReached {i : GateId} : Goes s (execGateBaseReached i s) := .next fun h => h.onGate

theorem Goes.execGateEntryDue {i : GateId} : Goes s (execGateEntryDue i s) := .next fun h => h.onGate

theorem State.Rising.latchGate {p l : Nat} {next : Bool} {v : Nat} (h : s.Rising) : (s.latchGate p l next v).Rising := h.onPart

theorem Goes.execGateBaseLoRead {p : PartId} : Goes s (execGateBaseLoRead p s) := .barRead (.next fun h => h.latchGate.emit)

theorem Goes.execGateNextLoRead {p : PartId} : Goes s (execGateNextLoRead p s) := .barRead (.next fun h => h.latchGate.emit)

theorem Goes.execComposeInstant {g : DropId} : Goes s (execComposeInstant g s) := .next fun h => .ite h.latchInstant h

theorem State.Rising.releaseJobs {g t : Nat} (h : s.Rising) : (s.releaseJobs g t).Rising := .ite h h.onWaf.withWaf

theorem State.Rising.latePass {g : Nat} {x : Pass} {rest : List Pass} (h : s.Rising) : (s.latePass g x rest).Rising :=
  .ite h.onDrop.releaseAll h.onDrop.withCmp.raise.releaseAll

theorem Goes.execComposePassEnd {g : DropId} : Goes s (execComposePassEnd g s) := by
  unfold Machine.execComposePassEnd
  dsimp only
  split
  · exact .same
  · exact .ite (.next fun h => h.latePass) (.ite .same (.next fun h => h.draw.withCmp.onDrop.onDrop.releaseJobs.releaseAll))

theorem Goes.execComposeLate {g : DropId} : Goes s (execComposeLate g s) := by
  unfold Machine.execComposeLate
  split
  · exact .same
  · exact .next fun h => .ite h.latePass h

theorem Goes.execWaferJobStart {g : DropId} {i : CalIndex} : Goes s (execWaferJobStart g i s) := by
  unfold Machine.execWaferJobStart
  dsimp only
  split
  · exact .ite .same (.next fun h => (State.Rising.ite h.takeThird.markUnknown.onWaf h.takeThird).onWaf.withWaf)
  · exact .same

theorem Goes.execWaferJobEnd {lane : LaneId} : Goes s (execWaferJobEnd lane s) := by
  unfold Machine.execWaferJobEnd
  dsimp only
  split
  · exact .same
  · split
    · exact .next fun h => h.withWaf
    · exact .next fun h => h.withWaf.onWaf

theorem Goes.execWaferLate {g : DropId} {i : CalIndex} : Goes s (execWaferLate g i s) := by
  unfold Machine.execWaferLate
  dsimp only
  split
  · exact .same
  · exact .ite .same (.next fun h => h.withWaf.onWaf.raise)

theorem Goes.execWafDropRefresh {who : Requester} {v : W32} : Goes s (execWafDropRefresh who v s) := .access (.next fun h => .ite h.onWaf h)

/-! ### Fault registers -/

theorem State.Rising.clearMap {first : Nat} {v : W32} {ok : Nat → Bool} (h : s.Rising) : (s.clearMap first v ok).Rising :=
  h.foldl fun _ _ ht => ht.clearFault

theorem State.Rising.clearView {p addr : Nat} {v : W32} (h : s.Rising) : (s.clearView p addr v).Rising :=
  .ite (.ite (State.Rising.ite h.clearFault h).clearFault (.ite h.clearFault h)) (.ite h.clearMap h)

theorem State.Rising.clearVendor {off : Nat} {v : W32} (h : s.Rising) : (s.clearVendor off v).Rising := .ite (.ite h.clearFault h) (.ite h.clearMap h)

theorem Goes.execStickyClear {who : Requester} {addr v : W32} : Goes s (execStickyClear who addr v s) := by
  unfold Machine.execStickyClear
  split
  · exact .barWrite (.next fun h => .ite h.clearView h.onPart)
  · exact .ite (.next fun h => h.busError) (.access (.next fun h => h.clearVendor))

theorem Goes.execFltFirstLoRead {who : Requester} : Goes s (execFltFirstLoRead who s) := .access (.next fun h => h.onFlt.emit)

theorem Goes.execBucketStart {cls : Nat} : Goes s (execBucketStart cls s) := by
  unfold Machine.execBucketStart
  dsimp only
  refine .ite .same ?_
  split
  · exact .ite .same (.next fun h => h.onFlt)
  · exact .same

theorem Goes.execCoalesceIntervalEnd {isFault : Bool} {cls index : Nat} : Goes s (execCoalesceIntervalEnd isFault cls index s) :=
  .next fun h => h.endInterval

theorem State.Rising.restoreSegment {i : Nat} (h : s.Rising) : (s.restoreSegment i).Rising :=
  .ite h (h.clearWindow.foldl fun _ _ ht => .ite ht ht.setLive.loseDrop).onSeg.endCause.occurRestore

theorem State.Rising.restoreCore {n : Nat} (h : s.Rising) : (s.restoreCore n).Rising := .ite h h.clearWindow.onCore.setLive.occurRestore

theorem Goes.restoreWrite {who : Requester} {v : W32} : Goes s (s.restoreWrite who v) :=
  .access (.ite .same (.ite (.next fun h => h.restoreSegment) (.ite (.next fun h => h.restoreCore) .same)))

theorem Goes.execSegmentRestore {who : Requester} {v : W32} : Goes s (execSegmentRestore who v s) := .restoreWrite

theorem Goes.execCoreRestore {who : Requester} {v : W32} : Goes s (execCoreRestore who v s) := .restoreWrite

theorem Goes.execFltLogCfgEn {p : PartId} {v : W32} : Goes s (execFltLogCfgEn p v s) :=
  .barWrite (.ite (.ite .same (.next fun h => h.onPart)) (.ite (.next fun h => h.onPart) (.next fun h => h.onPart)))

theorem Goes.execFltLogHeadWrite {p : PartId} {v : W32} : Goes s (execFltLogHeadWrite p v s) := by
  unfold Machine.execFltLogHeadWrite
  dsimp only
  refine .barWrite ?_
  split
  · exact .next fun h => h.onPart.flushLog
  · exact .same

/-! ### The guard's registers -/

theorem Goes.pairWrite {who : Requester} {b off : Nat} {v : W32} {f : State → State} (hf : ∀ u, u.Rising → (f u).Rising) :
    Goes s (s.pairWrite who b off v f) := .access (.next fun h => hf _ h)

theorem Goes.execGrdEntrySelWrite {who : Requester} {b : PairId} {v : W32} : Goes s (execGrdEntrySelWrite who b v s) :=
  .pairWrite fun _ ht => ht.onPair

theorem Goes.execGrdEntryLoad {who : Requester} {b : PairId} {v : W32} : Goes s (execGrdEntryLoad who b v s) := by
  unfold Machine.execGrdEntryLoad
  dsimp only
  refine .pairWrite fun _ ht => .ite ht ?_
  split
  · exact ht.onPair
  · exact .ite ht.onPair.signalPriv ht.onPair

theorem Goes.execGrdBankSwap {who : Requester} {b : PairId} {v : W32} : Goes s (execGrdBankSwap who b v s) :=
  .pairWrite fun _ ht => .ite ht.swapPair ht

theorem Goes.execGrdCapClear {who : Requester} {b : PairId} {v : W32} : Goes s (execGrdCapClear who b v s) :=
  .pairWrite fun _ ht => .ite ht.clearCapture ht

theorem Goes.execGrdCapAddrLoRead {who : Requester} {b : PairId} : Goes s (execGrdCapAddrLoRead who b s) := .access (.next fun h => h.onPair.emit)

theorem Goes.execGrdSegEnWrite {who : Requester} {i : SegId} {v : W32} : Goes s (execGrdSegEnWrite who i v s) := .access (.next fun h => h.onSeg)

end Sys2Proof.Machine
end

section
/-! Restarts, plant, customer cores, decoding, events and service keep the tables rising (O2, O4). -/

namespace Sys2Proof.Machine

open Sys2Proof

variable {s t : State}

/-! ### Restarts -/

theorem State.Rising.freezeAll (h : s.Rising) : (s.freezeAll).Rising := h.foldl fun _ _ ht => ht.freezeSegment

theorem State.Rising.freezeRest (h : s.Rising) : s.freezeRest.Rising := by
  refine h.foldl fun t i ht => ?_
  extract_lets x u v w
  have hu : u.Rising := .ite ht.sendFreeze ht
  have hv : v.Rising := .ite hu.closeTenure hu
  have hw : w.Rising := .ite hv.closeWhistle hv
  exact .ite ht (.ite hw.onSeg.sendWords hw)

theorem State.Rising.stopClocks (h : s.Rising) : (s.stopClocks).Rising := h.foldl fun _ _ ht => .ite ht.emit ht

theorem State.Rising.lost (h : s.Rising) : s.lost.Rising :=
  ⟨tblRising_filter _ _ (tblRising_map _ _ h.parts), rfl, tblRising_filter _ _ (tblRising_map _ _ h.drops), rfl, rfl, rfl, rfl, rfl,
    tblRising_filter _ _ (tblRising_map _ _ h.cc), rfl, rfl, rfl⟩

theorem State.Rising.powerDown (h : s.Rising) : (s.powerDown).Rising := h.stopClocks.lost

theorem State.Rising.warmRestart (h : s.Rising) : s.warmRestart.Rising := by
  unfold State.warmRestart
  extract_lets t l
  have hl : l.Rising := h.freezeAll.freezeRest.stopClocks.lost
  clear_value l
  exact hl.of_tables rfl

theorem State.Rising.storeFirmware (h : s.Rising) : (s.storeFirmware).Rising := h.storeRec

theorem State.Rising.rollback (h : s.Rising) : (s.rollback).Rising := by
  unfold State.rollback
  split
  · exact h
  · exact h.onBoot.storeFirmware.warmRestart

theorem State.Rising.chooseMap (h : s.Rising) : (s.chooseMap).Rising := .ite h.onBoot (.ite h.onBoot h.onBoot.storeFirmware)

theorem State.Rising.restoreSticky (h : s.Rising) : (s.restoreSticky).Rising := by
  unfold State.restoreSticky
  dsimp only
  split
  · exact .ite h.setFault h
  · exact h

theorem State.Rising.loadSegments (h : s.Rising) : (s.loadSegments).Rising := h.foldl fun _ _ ht => ht.onSeg

theorem State.Rising.loadCores (h : s.Rising) : (s.loadCores).Rising := h.foldl fun _ _ ht => ht.onCust

theorem State.Rising.startPort {port : NetPort} {a : PortAddr} (h : s.Rising) : (s.startPort port a).Rising := .ite h.onPlant.emit h.onPlant

theorem State.Rising.standing (h : s.Rising) : s.standing.Rising := by
  unfold State.standing
  extract_lets f fan junction psu line holdover
  have hfan : fan.Rising := .ite h h.setLive.raise
  have hjunction : junction.Rising := .ite hfan hfan.setLive.raise
  have hpsu : psu.Rising := .ite hjunction.setLive.raise hjunction
  have hline : line.Rising := .ite hpsu.setLive.raise hpsu
  have hholdover : holdover.Rising := .ite hline.setLive.raise hline
  exact .ite hholdover hholdover.recomputePool

theorem State.Rising.loadPartitions (h : s.Rising) : (s.loadPartitions).Rising := h.foldl fun _ _ ht => ht.onPart

theorem State.Rising.printBoot (h : s.Rising) : (s.printBoot).Rising := h.emit.foldl fun _ _ ht => ht.emit

theorem Goes.execDcGood {pinLow : Bool} {rtcNs : Nat} : Goes s (execDcGood pinLow rtcNs s) := by
  unfold Machine.execDcGood
  extract_lets clock boot sticky parts cores timing service ready
  refine .ite .same (.ite (.next fun h => ?_) (.next fun h => ?_))
  · have hclock : clock.Rising := .ite h h.onTb
    exact hclock.rollback
  · have hclock : clock.Rising := .ite h h.onTb
    have hparts : parts.Rising := hclock.onBoot.chooseMap.restoreSticky.loadSegments.loadPartitions
    have hcores : cores.Rising := .ite hparts hparts.loadCores
    have hready : ready.Rising := hcores.startPort.startPort.standing
    exact .ite hready.printBoot hready

theorem State.Rising.decideBoot {i due : Nat} {t : Tbl W64} (h : s.Rising) : (s.decideBoot i due t).Rising :=
  (h.foldl fun _ _ ht => ht.setStaged).onSeg.recharge.chargeColant

theorem State.Rising.bootFails {i : Nat} (h : s.Rising) : (s.bootFails i).Rising := h.traceRec.signalSeg

theorem Goes.execBootCalendarInstall {i : SegId} : Goes s (execBootCalendarInstall i s) :=
  .ite .same (.ite (.next fun h => h.onBoot.bootFails) (.next fun h => h.onBoot.decideBoot))

theorem Goes.execStandbyPageCopy : Goes s (execStandbyPageCopy s) := .ite .same (.next fun h => h.onBoot)

theorem Goes.execStartUpComplete : Goes s (execStartUpComplete s) :=
  .ite .same (.next fun h => .ite (h.foldl fun _ _ ht => ht.onCust).onBoot.raise (h.foldl fun _ _ ht => ht.onCust).onBoot)

theorem Goes.execTrialTimeout : Goes s (execTrialTimeout s) := .ite (.next fun h => h.rollback) .same

theorem State.Rising.endTrial (h : s.Rising) : (s.endTrial).Rising := by
  unfold State.endTrial
  dsimp only
  split
  · exact h.onBoot
  · exact h

theorem Goes.execTrialEnd : Goes s (execTrialEnd s) := by
  unfold Machine.execTrialEnd
  split
  · exact .ite (.next fun h => h.endTrial) .same
  · exact .same

/-! ### The plant -/

theorem State.Rising.assertWarning {lineDv : Nat} (h : s.Rising) : (s.assertWarning lineDv).Rising :=
  .ite h h.onPlant.recomputePool.setLive.raise.freezeAll

theorem Goes.execPowerFailWarning {lineDv : Nat} : Goes s (execPowerFailWarning lineDv s) := .next fun h => h.assertWarning

theorem Goes.execPowerFailWarningClear : Goes s (execPowerFailWarningClear s) := .ite .same (.next fun h => h.onPlant.setLive.recomputePool)

theorem Goes.execMainsCycle {lineDv : Nat} : Goes s (execMainsCycle lineDv s) :=
  .ite .same (.next fun h => .ite h.onPlant.recomputePool.assertWarning h.onPlant.recomputePool)

theorem Goes.execMainsRestored : Goes s (execMainsRestored s) :=
  .ite .same (.next fun h => (h.onPlant.foldl fun _ _ ht => ht.onSeg).onFlt.recomputePool)

theorem Goes.execDcRegulationLoss : Goes s (execDcRegulationLoss s) := .next fun h => h.powerDown

theorem Goes.execPsuLimitChange {quarterWatts : Nat} : Goes s (execPsuLimitChange quarterWatts s) :=
  .ite .same (.next fun h => (State.Rising.ite h.onPlant.setLive.raise h.onPlant.setLive).recomputePool)

theorem Goes.execPowerGrantPeriod {requests draws : List Nat} : Goes s (execPowerGrantPeriod requests draws s) :=
  .ite .same (.next fun h => .ite h.onPlant.setLive.raise h.onPlant.setLive)

theorem Goes.execThermalWarning {tenths : Int} : Goes s (execThermalWarning tenths s) :=
  .ite .same (.ite (.next fun h => h.onPlant) (.next fun h => h.onPlant.setLive.raise))

theorem Goes.execThermalWarningClear {tenths : Int} : Goes s (execThermalWarningClear tenths s) := .ite .same (.next fun h => h.onPlant.setLive)

theorem Goes.execThermalTrip {tenths : Int} : Goes s (execThermalTrip tenths s) :=
  .ite .same (.next fun h => h.onPlant.freezeAll.raise.freezeRest.powerDown.onBoot)

theorem Goes.execThermalRestart {tenths : Int} : Goes s (execThermalRestart tenths s) := .ite .same (.next fun h => h.onPlant.onBoot)

theorem Goes.execFanFailure {m : Fin 4} {failed : Bool} : Goes s (execFanFailure m failed s) :=
  .ite (.next fun h => h.onPlant) (.next fun h => .ite h.onPlant.setLive.raise h.onPlant.setLive)

theorem State.Rising.poisonOut {k : Nat} (h : s.Rising) : (s.poisonOut k).Rising := h.withOut

theorem Goes.execMemoryError {addr : BitVec 35} {kind : MemError} : Goes s (execMemoryError addr kind s) := by
  unfold Machine.execMemoryError
  refine .ite .same ?_
  split
  · exact .next fun h => h.onFlt
  · refine .next fun h => .raise ?_
    split
    · exact h.poisonOut
    · exact h

theorem Goes.execVendorCoreRestart {c : Fin 2} : Goes s (execVendorCoreRestart c s) :=
  .ite .same (.ite (.next fun h => h.rollback) (.next fun h => h.raise.onBoot.fairly (h.raise.onBoot.foldl fun _ _ ht => ht.composeFirst.endSession)))

theorem Goes.execVendorCoreRunning {c : Fin 2} : Goes s (execVendorCoreRunning c s) := by
  unfold Machine.execVendorCoreRunning
  extract_lets u due v w
  refine .ite .same (.next fun h => ?_)
  have hv : v.Rising := h.onBoot.foldl fun _ _ ht => .ite ht.lapse ht
  have hw : w.Rising := .ite hv.onBoot hv
  exact hw.fairly (hw.foldl fun _ _ ht => ht.settleRings)

theorem Goes.execDhcpAnswer {port : NetPort} {addr : W32} {prefixLen : Nat} {gateway : W32} : Goes s (execDhcpAnswer port addr prefixLen gateway s) :=
  .ite .same (.next fun h => h.onPlant)

theorem Goes.execDhcpRequestTimer {port : NetPort} : Goes s (execDhcpRequestTimer port s) := by
  unfold Machine.execDhcpRequestTimer
  dsimp only
  split
  · exact .same
  · exact .next fun h => .ite h.onPlant.emit h.onPlant

theorem Goes.execLeaseLost {port : NetPort} : Goes s (execLeaseLost port s) := .ite .same (.next fun h => h.onPlant.emit)

theorem Goes.execArpIcmpEchoRequest {port : NetPort} {query : NetQuery} {payload : Nat} : Goes s (execArpIcmpEchoRequest port query payload s) :=
  .ite (.next fun h => h.emit) .same

theorem Goes.execServicePortClient {opening chainOk : Bool} : Goes s (execServicePortClient opening chainOk s) :=
  .ite (.next fun h => h.onPlant) (.ite .same (.next fun h => h.onPlant))

/-! ### Customer cores -/

theorem State.Rising.startCore {c : Nat} (h : s.Rising) : (s.startCore c).Rising :=
  .ite h.onCust (h.onCust.foldl fun _ _ ht => ht.onDrop).onPair.onEvcCore

theorem State.Rising.beginCore {c : Nat} (h : s.Rising) : (s.beginCore c).Rising := .ite h.onCust.startCore.onCust.startCore h.onCust.startCore

theorem Goes.execCoreStart {c : CustCore} : Goes s (execCoreStart c s) := .ite .same (.next fun h => h.beginCore)

theorem State.Rising.setRun {c : Nat} {run : Bool} (h : s.Rising) : (s.setRun c run).Rising := h.onCust

theorem Goes.execCcTaskGo {c : CustCore} {v : W32} : Goes s (execCcTaskGo c v s) := .access (.next fun h => h.onCust)

theorem Goes.execTaskExit {c : CustCore} {cause : TaskCause} : Goes s (execTaskExit c cause s) := by
  unfold Machine.execTaskExit
  dsimp only
  refine .ite .same ?_
  split
  · exact .next fun h => h.onCust
  · exact .next fun h => h.onCust
  · exact .ite .same (.next fun h => h.violation.busError)

theorem Goes.execKick {c : CustCore} {v : W32} : Goes s (execKick c v s) := .access (.next fun h => h.onCust)

theorem Goes.execWatchdogHalf {c : CustCore} : Goes s (execWatchdogHalf c s) := .ite .same (.next fun h => h.onCust.signalPriv)

theorem State.Rising.giveUp {c : Nat} (h : s.Rising) : (s.giveUp c).Rising := h.onCust

theorem Goes.execWatchdogExpiry {c : CustCore} : Goes s (execWatchdogExpiry c s) :=
  .ite .same (.next fun h => .ite h.traceRec.onCust.giveUp h.traceRec.onCust)

theorem Goes.execCustomerRestart {c : CustCore} : Goes s (execCustomerRestart c s) := by
  unfold Machine.execCustomerRestart
  split
  · exact .same
  · exact .ite .same (.next fun h => h.onCust.beginCore)

theorem State.Rising.publish {c g : Nat} (h : s.Rising) : (s.publish c g).Rising := .ite h h.composeDue.onDrop

theorem Goes.execCcFbPublish {c : CustCore} {v : W32} : Goes s (execCcFbPublish c v s) := .access (.next fun h => h.publish)

theorem Goes.execCcTimer {c : CustCore} {n : Fin 4} : Goes s (execCcTimer c n s) := .ite .same (.next fun h => h.onCust.signalPriv)

theorem Goes.execCcTmrLoWrite {c : CustCore} {n : Fin 4} {v : W32} : Goes s (execCcTmrLoWrite c n v s) := .access (.next fun h => h.onCust)

theorem Goes.execCcTmrLoRead {who : Requester} {c : CustCore} {n : Fin 4} : Goes s (execCcTmrLoRead who c n s) :=
  .access (.next fun h => h.onCust.emit)

/-! ### Decoding -/

theorem State.Rising.makeAvailable {slot : Nat} {f : Frame} (h : s.Rising) : (s.makeAvailable slot f).Rising := by
  unfold State.makeAvailable
  dsimp only
  split
  · exact h
  · exact h.onStream

theorem State.Rising.popUnit {slot : Nat} (h : s.Rising) : (s.popUnit slot).Rising := h.onStream

theorem State.Rising.drainStream {slot : Nat} (h : s.Rising) : (s.drainStream slot).Rising := (h.foldl fun _ _ ht => ht.makeAvailable).onStream.signal

theorem State.Rising.checkOrder {slot : Nat} {x : Stream} {pts : Nat} {fresh : Bool} (h : s.Rising) : (s.checkOrder slot x pts fresh).Rising :=
  .ite h.onStream.signal h.onStream

theorem State.Rising.finishFrame {slot : Nat} {f : Frame} {output rap : Bool} (h : s.Rising) : (s.finishFrame slot f output rap).Rising := h.onStream

theorem State.Rising.closeField {slot : Nat} (h : s.Rising) : (s.closeField slot).Rising := by
  unfold State.closeField
  split
  · exact h.onStream.finishFrame
  · exact h

theorem State.Rising.markOutput {slot : Nat} {new : Option Frame} {i : PictureInfo} (h : s.Rising) : (s.markOutput slot new i).Rising :=
  (h.onStream.foldl fun _ _ ht => ht.makeAvailable).onStream

theorem State.Rising.storeHidden {slot : Nat} {u : AccessUnit} {i : PictureInfo} {k : Nat} {h : HiddenFrame} (hs : s.Rising) :
    (s.storeHidden slot u i k h).Rising := by
  unfold State.storeHidden
  dsimp only
  split
  · exact hs
  · exact hs.newId.finishFrame.onStream

theorem State.Rising.showExisting {slot : Nat} {u : AccessUnit} {n : Nat} (h : s.Rising) : (s.showExisting slot u n).Rising := h.onStream

theorem State.Rising.storeFrame {slot : Nat} {u : AccessUnit} {i : PictureInfo} {fresh : Bool} (h : s.Rising) :
    (s.storeFrame slot u i fresh).Rising := by
  unfold State.storeFrame
  dsimp only
  split
  · exact h.foldl fun _ _ ht => ht.storeHidden
  · split
    · exact (h.foldl fun _ _ ht => ht.storeHidden).checkOrder.onStream.finishFrame.markOutput
    · exact (h.foldl fun _ _ ht => ht.storeHidden).newId.checkOrder.onStream
    · exact (h.foldl fun _ _ ht => ht.storeHidden).checkOrder.showExisting.markOutput
    · exact (h.foldl fun _ _ ht => ht.storeHidden).newId.checkOrder.finishFrame.markOutput

theorem State.Rising.skipUnit {slot : Nat} (h : s.Rising) : (s.skipUnit slot).Rising := h.onStream

theorem State.Rising.streamErrors {slot n : Nat} (h : s.Rising) : (s.streamErrors slot n).Rising := h.foldl fun _ _ ht => ht.streamError

theorem State.Rising.decodePicture {slot : Nat} {x : Stream} {u : AccessUnit} {i : PictureInfo} (h : s.Rising) :
  (s.decodePicture slot x u i).Rising :=
  .ite (h.foldl fun _ _ ht => ht.onCore).onStream.skipUnit
    (.ite (h.foldl fun _ _ ht => ht.onCore).onStream (h.foldl fun _ _ ht => ht.onCore).onStream.storeFrame)

theorem State.Rising.workUnit {slot : Nat} {u : AccessUnit} {i : PictureInfo} (h : s.Rising) : (s.workUnit slot u i).Rising := by
  unfold State.workUnit
  dsimp only
  split
  · exact (State.Rising.ite h h.closeField).onStream
  · refine .ite (State.Rising.ite h h.closeField).onStream.unitErrors ?_
    split
    · exact (State.Rising.ite h h.closeField).onStream.streamErrors.failStream
    · exact (State.Rising.ite (State.Rising.ite h h.closeField).onStream.streamErrors.onStream.skipUnit
        (State.Rising.ite h h.closeField).onStream.streamErrors.decodePicture).unitErrors

theorem Goes.execPictureDecoded {slot : StreamSlot} {info : PictureInfo} : Goes s (execPictureDecoded slot info s) := by
  unfold Machine.execPictureDecoded
  dsimp only
  split
  · exact .same
  · split
    · exact .same
    · exact .ite .same (.next fun h => (State.Rising.ite h.composeFirst.onStream.popUnit.workUnit.closeField.drainStream
        h.composeFirst.onStream.popUnit.workUnit).releaseFrames.onStream)

theorem Goes.execStreamPauseEnd {slot : StreamSlot} : Goes s (execStreamPauseEnd slot s) := .next fun h => h.releaseFrames.onStream

theorem Goes.execCoreUpset {n : CodecCore} {slot : StreamSlot} : Goes s (execCoreUpset n slot s) := by
  unfold Machine.execCoreUpset
  dsimp only
  split
  · exact .same
  · refine .ite .same ?_
    split
    · exact .next fun h => h.onCore.countError
    · exact .ite (.next fun h => h.onCore.countError)
        (.ite (.next fun h => h.onCore.countError.onStream.onCore.traceRetry) (.next fun h => h.onCore.countError.failStream))

/-! ### The event controller -/

theorem Goes.execDoorbell {who : Requester} {v : W32} : Goes s (execDoorbell who v s) := .access (.next fun h => .ite h.strike (.ite h.strike h))

theorem Goes.execHoldoffExpiry {grp : GroupId} : Goes s (execHoldoffExpiry grp s) := by
  unfold Machine.execHoldoffExpiry
  dsimp only
  split
  · exact .same
  · exact .ite .same (.next fun h => h.setGroup.foldl fun _ _ ht => .ite ht.commit ht)

theorem State.Rising.closeBurst {t : Nat} (h : s.Rising) : (s.closeBurst t).Rising := by
  unfold State.closeBurst
  dsimp only
  refine .foldl ((h.foldl fun _ _ ht => ht.setSource).fairly ((h.foldl fun _ _ ht => ht.setSource).foldl fun _ _ ht => ?_)) fun _ _ ht => ht.arm
  split
  · exact ht.deliverVector
  · exact ht.onEvcCore

theorem Goes.execDeliveryWindowClose : Goes s (execDeliveryWindowClose s) :=
  .next fun h => (h.foldl fun _ _ ht => ht.closeBurst).foldl fun _ _ ht => ht.onEvcCore

theorem State.Rising.maskWrite {n : Nat} {mask : Bool} (h : s.Rising) : (s.maskWrite n mask).Rising := .ite h.setSource.arm h.setSource

theorem State.Rising.srcCfgWrite {p : Nat} {v : W32} (h : s.Rising) : (s.srcCfgWrite p v).Rising := .ite h (State.Rising.ite h h.setSource).maskWrite

theorem State.Rising.routeWrite {v : W32} (h : s.Rising) : (s.routeWrite v).Rising := .ite h h.setSource.maskWrite

theorem Goes.evcWrite {who : Requester} {v : W32} : Goes s (s.evcWrite who v) := by
  unfold State.evcWrite
  split
  · exact .barWrite (.next fun h => h.srcCfgWrite)
  · exact .access (.next fun h => h.routeWrite)

theorem Goes.execEvcMaskWrite {who : Requester} {v : W32} : Goes s (execEvcMaskWrite who v s) := .evcWrite

theorem Goes.execEvcVectorWrite {p : PartId} {v : W32} : Goes s (execEvcVectorWrite p v s) := .barWrite (.next fun h => h.srcCfgWrite)

theorem Goes.execEvcRouteWrite {who : Requester} {v : W32} : Goes s (execEvcRouteWrite who v s) := .access (.next fun h => h.routeWrite)

theorem Goes.execEvcSrcAck {p : PartId} {v : W32} : Goes s (execEvcSrcAck p v s) := .barWrite (.ite .same (.next fun h => h.setSource))

theorem Goes.execEvcGrpHoldoffWrite {who : Requester} {grp : GroupId} {v : W32} : Goes s (execEvcGrpHoldoffWrite who grp v s) := by
  unfold Machine.execEvcGrpHoldoffWrite
  dsimp only
  split
  · exact .barWrite (.ite (.next fun h => h.setGroup) .same)
  · exact .access (.next fun h => h.setGroup)

theorem Goes.execEvcCoreClaim {who : Requester} {c : CtlCore} : Goes s (execEvcCoreClaim who c s) := .access (.next fun h => h.onEvcCore.emit)

theorem Goes.execEvcImaskWrite {who : Requester} {c : CtlCore} {v : W32} : Goes s (execEvcImaskWrite who c v s) :=
  .access (.next fun h => h.onEvcCore)

theorem Goes.execEvcPcntWrite {who : Requester} {c : CtlCore} {v : W32} : Goes s (execEvcPcntWrite who c v s) := .access (.next fun h => h.onEvcCore)

/-! ### Loads of the guard -/

theorem Goes.execGuardWrite {p : PartId} {r : RingId} : Goes s (execGuardWrite p r s) := by
  unfold Machine.execGuardWrite
  dsimp only
  split
  · exact .same
  · refine .ringCmd fun _ _ ht => ?_
    split
    · exact ht.onPair.reply
    · exact ht.checked ht.onPair.reply

theorem Goes.execGuardSwap {p : PartId} {r : RingId} : Goes s (execGuardSwap p r s) := .ringCmd fun _ _ ht => ht.swapPair.reply

theorem Goes.execGuardQuery {p : PartId} {r : RingId} : Goes s (execGuardQuery p r s) :=
  .ringCmd fun _ _ ht => (State.Rising.ite ht.writeRecord.clearCapture ht.writeRecord).reply

/-! ### Service -/

theorem State.Rising.svcOk (h : s.Rising) : (s.svcOk).Rising := h.emit

theorem State.Rising.svcRefused {rule : Nat} (h : s.Rising) : (s.svcRefused rule).Rising := h.emit

theorem State.Rising.svcVerify (h : s.Rising) : (s.svcVerify).Rising := h.emit

theorem Goes.svc {f : State → State} (hf : ∀ u, u.Rising → (f u).Rising) : Goes s (s.svc f) :=
  .ite .same (.ite (.next fun h => h.emit) (.next fun h => hf _ h))

theorem State.Rising.putMap {m : PartMap} (h : s.Rising) : (s.putMap m).Rising := by
  unfold State.putMap
  split
  · exact h.svcRefused
  · exact h.onBoot.svcOk

theorem Goes.execMapWrite {m : PartMap} {formatOk : Bool} : Goes s (execMapWrite m formatOk s) := .svc fun _ ht => .ite ht.svcVerify ht.putMap

theorem Goes.execMapRead : Goes s (execMapRead s) := .svc fun _ ht => ht.svcOk.emit

theorem Goes.execMapFactory : Goes s (execMapFactory s) := .svc fun _ ht => ht.putMap

theorem Goes.execMapCapture : Goes s (execMapCapture s) := .svc fun _ ht => ht.putMap

theorem Goes.execFwWrite {img : FwImage} : Goes s (execFwWrite img s) := .svc fun _ ht => .ite ht.onBoot.svcOk ht.onBoot.svcVerify

theorem Goes.execFwActivate : Goes s (execFwActivate s) := .svc fun _ ht => .ite ht.svcRefused ht.onBoot.svcOk.warmRestart

theorem Goes.execFwCommit {fuse : Bool} : Goes s (execFwCommit fuse s) := .svc fun _ ht => .ite ht.endTrial.svcOk (.ite ht.onBoot.svcOk ht.svcOk)

theorem Goes.execCcWrite {c : CustCore} {img : CustImage} : Goes s (execCcWrite c img s) := .svc fun _ ht => .ite ht.svcVerify ht.onCust.svcOk

theorem Goes.execCcActivate {c : CustCore} : Goes s (execCcActivate c s) := .svc fun _ ht => .ite ht.svcRefused ht.onCust.svcOk

theorem Goes.execCoreRun {c : CustCore} {run : Bool} : Goes s (execCoreRun c run s) := .svc fun _ ht => ht.setRun.svcOk

theorem Goes.execCalLoad {g : DropId} {w : CalWrite} : Goes s (execCalLoad g w s) :=
  .svc fun _ ht => .ite ht.svcRefused (.ite ht.svcVerify (.ite ht.svcRefused (.ite ht.svcVerify ht.composeDue.onDrop.svcOk)))

theorem Goes.execCalRevert {g : DropId} : Goes s (execCalRevert g s) := by
  unfold Machine.execCalRevert
  refine .svc fun _ ht => ?_
  split
  · exact ht.svcRefused
  · exact ht.composeDue.onDrop.svcOk

theorem Goes.execPageWrite {i : Fin 256} {page : Image} : Goes s (execPageWrite i page s) :=
  .svc fun _ ht => .ite ht.svcVerify (.ite ht.svcRefused ht.onBoot.svcOk)

theorem Goes.execRestartCold : Goes s (execRestartCold s) := .svc fun _ ht => ht.svcOk.powerDown

theorem Goes.execRestartWarm : Goes s (execRestartWarm s) := .svc fun _ ht => ht.svcOk.warmRestart

theorem Goes.execSegReset {i : SegId} : Goes s (execSegReset i s) := .svc fun _ ht => .ite ht.svcRefused ht.onSeg.svcOk

theorem Goes.execSegAccess {g : DropId} {acc : SegAccess} : Goes s (execSegAccess g acc s) := by
  unfold Machine.execSegAccess
  dsimp only
  refine .svc fun _ ht => .ite ht.svcRefused ?_
  split
  · exact ht.violation.svcRefused
  · exact ht.onPlant.queueHk

theorem Goes.execFlt {op : FltOp} : Goes s (execFlt op s) := by
  unfold Machine.execFlt
  dsimp only
  refine .svc fun _ ht => ?_
  split
  · exact ht.emit
  · exact ht.clearFault.svcOk
  · exact ht.onFlt.svcOk
  · exact ht.onFlt.svcOk

theorem Goes.execTrace : Goes s (execTrace s) := .svc fun _ ht => ht.svcOk.emit

theorem Goes.execStore : Goes s (execStore s) := .svc fun _ ht => ht.svcOk.emit

end Sys2Proof.Machine
end

section
/-! Register accesses, windows and fences keep the tables rising (O2, O4). -/

namespace Sys2Proof.Machine

open Sys2Proof

variable {s t : State}

/-! ### Register accesses -/

theorem State.Rising.after {r : Res} (h : s.Rising) (hr : Goes s r) : (after r s).Rising := by
  obtain ⟨t, rfl, ht⟩ := hr
  exact ht h

theorem State.Rising.latchBar {p l off : Nat} (h : s.Rising) : (s.latchBar p l off).Rising := .ite h.onTb (.ite h.latchGate (.ite h.latchGate h))

theorem State.Rising.latchCtl {l a : Nat} (h : s.Rising) : (s.latchCtl l a).Rising := by
  unfold State.latchCtl
  dsimp only
  split
  · exact .ite h.latchBar h
  · split
    · exact .ite h.latchBar h
    · exact .ite h.onEvcCore h
    · exact .ite h.onPair h
    · exact .ite h.onFlt h
    · exact .ite h.onCust h
    · exact h

theorem State.Rising.hstWrite {p : PartId} {off : Nat} {v : W32} (h : s.Rising) : (s.hstWrite p off v).Rising := by
  unfold State.hstWrite
  split
  · exact h.onPart
  · exact h.onPart
  · exact h.onPart
  · exact h.onPart
  · exact h.onPart
  · refine h.after ?_
    exact .execAdminRingEnable
  · exact h.onPart
  · refine h.after ?_
    exact .execHeartbeat
  · exact h

theorem State.Rising.doorbellWrite {p : PartId} {off : Nat} {v : W32} (h : s.Rising) : (s.doorbellWrite p off v).Rising := by
  unfold State.doorbellWrite
  split
  · refine .ite (h.after ?_) (h.after ?_)
    · exact .execSqTailDoorbell
    · exact .execCqHeadDoorbell
  · exact h

theorem State.Rising.tbRegWrite {who : Requester} {off : Nat} {v : W32} (h : s.Rising) : (s.tbRegWrite who off v).Rising := by
  unfold State.tbRegWrite
  split
  · exact h.writeTbCtrl
  · refine h.after ?_
    exact .execTbRateWrite
  · exact h.onTb
  · exact h.onTb
  · exact h.onTb
  · exact h.onTb
  · exact h

theorem State.Rising.clearFired {p first : Nat} {v : W32} (h : s.Rising) : (s.clearFired p first v).Rising := h.foldl fun _ _ ht => ht.setSource

theorem State.Rising.evcRegWrite {p : PartId} {off : Nat} {v : W32} (h : s.Rising) : (s.evcRegWrite p off v).Rising := by
  unfold State.evcRegWrite
  split
  · exact h.onPart
  · refine h.after ?_
    exact .execEvcMaskWrite
  · refine h.after ?_
    exact .execEvcSrcAck
  · refine h.after ?_
    exact .execEvcGrpHoldoffWrite
  · exact .ite h.clearFired h

theorem State.Rising.semCtrl {p : PartId} {v : W32} (h : s.Rising) : (s.semCtrl p v).Rising := by
  unfold State.semCtrl
  refine .ite (.ite (h.after ?_) h) (.ite (h.after ?_) h)
  · exact .execRelease
  · exact .execClaim

theorem State.Rising.brgWrite {p : PartId} {off : Nat} {v : W32} (h : s.Rising) : (s.brgWrite p off v).Rising := by
  unfold State.brgWrite
  dsimp only
  split
  · exact h.onBridge
  · exact .ite h.onWin h
  · refine h.after ?_
    exact .execBrgJrnAckWrite
  · exact h.semCtrl
  · exact .ite h.onBridge h
  · exact .ite h.onBridge h
  · exact h

theorem State.Rising.fltViewWrite {p : PartId} {off : Nat} {v : W32} (h : s.Rising) : (s.fltViewWrite p off v).Rising := by
  unfold State.fltViewWrite
  split
  · exact h.onPart
  · exact h.onPart
  · refine h.after ?_
    exact .execFltLogCfgEn
  · refine h.after ?_
    exact .execFltLogHeadWrite
  · exact h.clearView

theorem State.Rising.rtvWrite {p : PartId} {off : Nat} {v : W32} (h : s.Rising) : (s.rtvWrite p off v).Rising := by
  unfold State.rtvWrite
  dsimp only
  split
  · exact h.onPart
  · exact h.onPart
  · refine h.after ?_
    exact .execRtvRingCfgEn
  · refine h.after ?_
    exact .execRtvRingHeadWrite
  · exact h.onPart
  · exact h.onPart
  · exact h.onPart
  · exact h.onPart
  · refine h.after ?_
    exact .execRtvDropCfgWrite
  · exact h

theorem State.Rising.writeBar {p : PartId} {a : Nat} {v : W32} (h : s.Rising) : (s.writeBar p a v).Rising :=
  .ite h (.ite h.hstWrite (.ite h.doorbellWrite
    (.ite (.ite h.tbRegWrite h) (.ite h.evcRegWrite (.ite h.brgWrite (.ite h.fltViewWrite (.ite h.rtvWrite (.ite h.onPart (.ite h.onPart h)))))))))

theorem State.Rising.evcVendorWrite {who : Requester} {off : Nat} {v : W32} (h : s.Rising) : (s.evcVendorWrite who off v).Rising := by
  unfold State.evcVendorWrite
  dsimp only
  refine .ite (h.after ?_) (.ite h.withRouteSel (.ite (h.after ?_) ?_))
  · exact .execDoorbell
  · exact .execEvcRouteWrite
  · split
    · refine h.after ?_
      exact .execEvcGrpHoldoffWrite
    · split
      · split
        · refine h.after ?_
          exact .execEvcImaskWrite
        · exact h.onEvcCore
        · exact h.onEvcCore
        · exact h.onEvcCore
        · refine h.after ?_
          exact .execEvcPcntWrite
        · exact h
      · exact h

theorem State.Rising.grdWrite {who : Requester} {off : Nat} {v : W32} (h : s.Rising) : (s.grdWrite who off v).Rising := by
  unfold State.grdWrite
  dsimp only
  split
  · split
    · refine h.after ?_
      exact .execGrdBankSwap
    · refine h.after ?_
      exact .execGrdEntrySelWrite
    · exact h.onPair
    · exact h.onPair
    · exact h.onPair
    · exact h.onPair
    · refine h.after ?_
      exact .execGrdEntryLoad
    · exact .ite h.onPair h
    · refine h.after ?_
      exact .execGrdCapClear
    · exact h
  · exact .ite h.onSeg h

theorem State.Rising.writeWin {cls : Nat} {v : W32} (h : s.Rising) : (s.writeWin cls v).Rising := h.onFlt

theorem State.Rising.fltWrite {who : Requester} {off : Nat} {v : W32} (h : s.Rising) : (s.fltWrite who off v).Rising := by
  unfold State.fltWrite
  split
  · exact h.onFlt
  · exact h.onFlt
  · exact h.writeWin
  · exact h.writeWin
  · exact h.writeWin
  · exact h.writeWin
  · exact h.onFlt
  · refine h.after ?_
    exact .restoreWrite
  · exact h.onFlt
  · exact h.clearVendor

theorem State.Rising.ccWrite {vendor : Bool} {c off : Nat} {v : W32} (h : s.Rising) : (s.ccWrite vendor c off v).Rising := by
  unfold State.ccWrite
  split
  · exact .ite h.setRun.onCust h
  · exact h.onCust
  · exact h.onCust
  · exact h.onCust
  · exact h.onCust
  · exact h.onCust
  · exact h.publish
  · exact .ite h.onCust h

theorem State.Rising.wafWrite {who : Requester} {off : Nat} {v : W32} (h : s.Rising) : (s.wafWrite who off v).Rising := by
  unfold State.wafWrite
  dsimp only
  split
  · exact h.withWaf
  · exact h.withWaf
  · refine h.after ?_
    exact .execWafDropRefresh
  · exact h

theorem State.Rising.arbRegWrite {who : Requester} {off : Nat} {v : W32} (h : s.Rising) : (s.arbRegWrite who off v).Rising := by
  unfold State.arbRegWrite
  dsimp only
  split
  · split
    · refine h.after ?_
      exact .execSchArbFreeze
    · refine h.after ?_
      exact .execSchArbClassWrite
    · refine h.after ?_
      exact .execSchArbLeashWrite
    · refine h.after ?_
      exact .execSchArbLeashWrite
    · refine h.after ?_
      exact .execSchArbLeashWrite
    · refine h.after ?_
      exact .execSchArbLeashWrite
    · refine h.after ?_
      exact .execSchArbTenureWrite
    · exact h
  · exact h

theorem State.Rising.writeCtl {who : Requester} {a : Nat} {v : W32} (h : s.Rising) : (s.writeCtl who a v).Rising := by
  unfold State.writeCtl
  dsimp only
  split
  · exact h.tbRegWrite
  · exact h.evcVendorWrite
  · exact h.grdWrite
  · exact h.fltWrite
  · exact .ite h.onPlant h
  · exact .ite h.ccWrite h
  · exact .ite h.withDecSel h
  · exact .ite h.withCmp (.ite h.withCmp h)
  · exact .ite h.withCmp h
  · exact h.wafWrite
  · exact h.arbRegWrite
  · exact h

theorem State.Rising.barAccess {p : PartId} {a : RegAccess} (h : s.Rising) : (s.barAccess p a).Rising :=
  .ite h (.ite (.ite h.emit h.dropWrite) (.ite (.ite h.onPart.emit h.onPart)
    (.ite (h.foldl fun _ _ ht => ht.latchBar.emit) (h.foldl fun _ _ ht => .ite ht.writeBar ht.onPart))))

theorem State.Rising.ctlAccess {who : Requester} {a : RegAccess} (h : s.Rising) : (s.ctlAccess who a).Rising := by
  unfold State.ctlAccess
  dsimp only
  refine .ite h.busError ?_
  split
  · exact h.foldl fun _ _ ht => .ite (.ite ht.latchCtl.emit ht.emit) (.ite ht.writeCtl ht)
  · exact (h.foldl fun _ _ ht => .ite (.ite ht.latchCtl.emit ht.emit) (.ite ht.writeCtl ht)).violation.busError

theorem Goes.execRegisterWrite {who : Requester} {acc : RegAccess} : Goes s (execRegisterWrite who acc s) := by
  unfold Machine.execRegisterWrite
  split
  · exact .next fun h => h.barAccess
  · exact .next fun h => h.ctlAccess

/-! ### Windows, drains and fences -/

theorem Goes.execWindowCreate {p : PartId} {r : RingId} : Goes s (execWindowCreate p r s) := .ringCmd fun _ _ ht => ht.checked ht.onBridge.reply

theorem Goes.execWindowSet {p : PartId} {r : RingId} : Goes s (execWindowSet p r s) := by
  unfold Machine.execWindowSet
  dsimp only
  refine .ringCmd fun _ _ ht => ?_
  split
  · exact ht.reply
  · exact ht.checked ht.onWin.reply

theorem State.Rising.onNamedWindow {p : Nat} {e : BitVec 512} {legal : WinState} {k : Nat → Window → CmdOut} (h : s.Rising)
    (hk : ∀ i w, (k i w).Rising) : (onNamedWindow s p e legal k).Rising := by
  unfold Machine.onNamedWindow
  dsimp only
  split
  · exact h.reply
  · exact .ite (hk _ _) h.reply

theorem Goes.execWindowEnable {p : PartId} {r : RingId} : Goes s (execWindowEnable p r s) :=
  .ringCmd fun _ _ ht => ht.onNamedWindow fun _ _ => ht.checked ht.onWin.reply

theorem State.Rising.drainedWindow {p w : Nat} (h : s.Rising) : (s.drainedWindow p w).Rising := h.onWin

theorem Goes.execWindowDisable {p : PartId} {r : RingId} : Goes s (execWindowDisable p r s) :=
  .ringCmd fun _ _ ht => ht.onNamedWindow fun _ _ => .ite ht.invalidate.onWin.hold ht.invalidate.onWin.drainedWindow.reply

theorem Goes.execWindowDrained {p : PartId} {r : RingId} : Goes s (execWindowDrained p r s) := by
  unfold Machine.execWindowDrained
  split
  · exact .ite .same (.next fun h => h.drainedWindow.endWait)
  · exact .same

theorem Goes.execWindowDestroy {p : PartId} {r : RingId} : Goes s (execWindowDestroy p r s) :=
  .ringCmd fun _ _ ht => ht.onNamedWindow fun _ _ => ht.onBridge.reply

theorem State.Rising.clearFence {p : Nat} (h : s.Rising) : (s.clearFence p).Rising := h.onBridge

theorem Goes.execWriteFence {p : PartId} {r : RingId} : Goes s (execWriteFence p r s) := by
  unfold Machine.execWriteFence
  dsimp only
  refine .ringCmd fun _ _ ht => ?_
  split
  · exact ht.clearFence.reply
  · exact ht.hold

theorem Goes.execWriteFenceHolds {p : PartId} {r : RingId} : Goes s (execWriteFenceHolds p r s) := by
  unfold Machine.execWriteFenceHolds
  split
  · exact .ite .same (.next fun h => h.clearFence.endWait)
  · exact .same

end Sys2Proof.Machine
end

section
/-! Every command answers a next state, and every step keeps the tables rising (O2, O3, O4). -/

namespace Sys2Proof.Machine

open Sys2Proof

/-- Every command at every state leads to a next state, and to one whose tables rise where those of the first do. -/
theorem exec_goes (c : Instr) (s : State) : Goes s (exec c s) := by
  cases c with
  | hostWrite => exact .execHostWrite
  | hostRead => exact .execHostRead
  | zeroLengthRead => exact .execZeroLengthRead
  | atomicOp => exact .execAtomicOp
  | poisonedWrite => exact .execPoisonedWrite
  | dmaReadCompletion => exact .execDmaReadCompletion
  | linkReset => exact .execLinkReset
  | partitionReady => exact .execPartitionReady
  | functionLevelReset => exact .execFunctionLevelReset
  | linkDegraded => exact .execLinkDegraded
  | d3hotEntry => exact .execD3hotEntry
  | d0Return => exact .execD0Return
  | pmeResend => exact .execPmeResend
  | pmeTurnOff => exact .execPmeTurnOff
  | aspmL1Entry => exact .execAspmL1Entry
  | busMasterEnableSet => exact .execBusMasterEnableSet
  | msixUnmask => exact .execMsixUnmask
  | registerWrite => exact .execRegisterWrite
  | sqTailDoorbell => exact .execSqTailDoorbell
  | cqHeadDoorbell => exact .execCqHeadDoorbell
  | sqFetchRetry => exact .execSqFetchRetry
  | adminRingEnable => exact .execAdminRingEnable
  | heartbeat => exact .execHeartbeat
  | heartbeatLapse => exact .execHeartbeatLapse
  | openSession => exact .execOpenSession
  | closeSession => exact .execCloseSession
  | handback => exact .execHandback
  | ringCreate => exact .execRingCreate
  | ringDelete => exact .execRingDelete
  | admissionQuery => exact .execAdmissionQuery
  | streamCreate => exact .execStreamCreate
  | streamStart => exact .execStreamStart
  | streamFeed => exact .execStreamFeed
  | streamFeedSpace => exact .execStreamFeedSpace
  | streamStop => exact .execStreamStop
  | streamDestroy => exact .execStreamDestroy
  | streamQuery => exact .execStreamQuery
  | dropQuery => exact .execDropQuery
  | dropRestore => exact .execDropRestore
  | dropRestoreEnd => exact .execDropRestoreEnd
  | imageCreate => exact .execImageCreate
  | imageWrite => exact .execImageWrite
  | imageDestroy => exact .execImageDestroy
  | layerSet => exact .execLayerSet
  | surfaceSet => exact .execSurfaceSet
  | surfaceQuery => exact .execSurfaceQuery
  | canvasCreate => exact .execCanvasCreate
  | canvasDestroy => exact .execCanvasDestroy
  | commandReadEnd => exact .execCommandReadEnd
  | windowCreate => exact .execWindowCreate
  | windowSet => exact .execWindowSet
  | windowEnable => exact .execWindowEnable
  | windowDisable => exact .execWindowDisable
  | windowDrained => exact .execWindowDrained
  | windowDestroy => exact .execWindowDestroy
  | writeFence => exact .execWriteFence
  | writeFenceHolds => exact .execWriteFenceHolds
  | calWrite => exact .execCalWrite
  | calDiscard => exact .execCalDiscard
  | calCommit => exact .execCalCommit
  | gateListCreate => exact .execGateListCreate
  | gateListWrite => exact .execGateListWrite
  | gateListStart => exact .execGateListStart
  | gateListStop => exact .execGateListStop
  | gateListDestroy => exact .execGateListDestroy
  | shaperCreate => exact .execShaperCreate
  | shaperSet => exact .execShaperSet
  | shaperDestroy => exact .execShaperDestroy
  | guardWrite => exact .execGuardWrite
  | guardSwap => exact .execGuardSwap
  | guardQuery => exact .execGuardQuery
  | timebaseTick => exact .execTimebaseTick
  | ptpMessage => exact .execPtpMessage
  | ppsEdge => exact .execPpsEdge
  | referenceLoss => exact .execReferenceLoss
  | srcWrite => exact .execSrcWrite
  | tbRateWrite => exact .execTbRateWrite
  | stepGo => exact .execStepGo
  | stepApply => exact .execStepApply
  | ppsOut => exact .execPpsOut
  | tbTimeLoRead => exact .execTbTimeLoRead
  | pathDelayRemeasure => exact .execPathDelayRemeasure
  | segmentReset => exact .execSegmentReset
  | segmentEnumeration => exact .execSegmentEnumeration
  | negotiation => exact .execNegotiation
  | negotiationFailWait => exact .execNegotiationFailWait
  | dropRenewal => exact .execDropRenewal
  | colantResponse => exact .execColantResponse
  | colantTimeout => exact .execColantTimeout
  | attnAsserted => exact .execAttnAsserted
  | pollRound => exact .execPollRound
  | statReceived => exact .execStatReceived
  | strayAttention => exact .execStrayAttention
  | stuckAttn => exact .execStuckAttn
  | noAnswerReset => exact .execNoAnswerReset
  | cycleStart => exact .execCycleStart
  | calendarSwap => exact .execCalendarSwap
  | linkHoldWindow => exact .execLinkHoldWindow
  | slotStart => exact .execSlotStart
  | whistle => exact .execWhistle
  | grant => exact .execGrant
  | guestCommand => exact .execGuestCommand
  | guestReadCompletion => exact .execGuestReadCompletion
  | guestPostedEntry => exact .execGuestPostedEntry
  | holdCeiling => exact .execHoldCeiling
  | guestReturn => exact .execGuestReturn
  | tenureEnd => exact .execTenureEnd
  | sync => exact .execSync
  | presentationInstant => exact .execPresentationInstant
  | arbitrationPhase => exact .execArbitrationPhase
  | wheelBucket => exact .execWheelBucket
  | keepaliveOverdue => exact .execKeepaliveOverdue
  | schArbFreeze => exact .execSchArbFreeze
  | schArbClassWrite => exact .execSchArbClassWrite
  | schArbLeashWrite => exact .execSchArbLeashWrite
  | schArbTenureWrite => exact .execSchArbTenureWrite
  | gateBaseReached => exact .execGateBaseReached
  | gateEntryDue => exact .execGateEntryDue
  | gateBaseLoRead => exact .execGateBaseLoRead
  | gateNextLoRead => exact .execGateNextLoRead
  | composeInstant => exact .execComposeInstant
  | composePassEnd => exact .execComposePassEnd
  | composeLate => exact .execComposeLate
  | waferJobStart => exact .execWaferJobStart
  | waferJobEnd => exact .execWaferJobEnd
  | waferLate => exact .execWaferLate
  | wafDropRefresh => exact .execWafDropRefresh
  | pictureDecoded => exact .execPictureDecoded
  | streamPauseEnd => exact .execStreamPauseEnd
  | coreUpset => exact .execCoreUpset
  | stale => exact .execStale
  | prefetchExpiry => exact .execPrefetchExpiry
  | claim => exact .execClaim
  | release => exact .execRelease
  | semaphoreExpiry => exact .execSemaphoreExpiry
  | brgJrnAckWrite => exact .execBrgJrnAckWrite
  | doorbell => exact .execDoorbell
  | holdoffExpiry => exact .execHoldoffExpiry
  | deliveryWindowClose => exact .execDeliveryWindowClose
  | evcMaskWrite => exact .execEvcMaskWrite
  | evcVectorWrite => exact .execEvcVectorWrite
  | evcSrcAck => exact .execEvcSrcAck
  | evcGrpHoldoffWrite => exact .execEvcGrpHoldoffWrite
  | evcRouteWrite => exact .execEvcRouteWrite
  | evcCoreClaim => exact .execEvcCoreClaim
  | evcImaskWrite => exact .execEvcImaskWrite
  | evcPcntWrite => exact .execEvcPcntWrite
  | grdEntrySelWrite => exact .execGrdEntrySelWrite
  | grdEntryLoad => exact .execGrdEntryLoad
  | grdBankSwap => exact .execGrdBankSwap
  | grdCapClear => exact .execGrdCapClear
  | grdCapAddrLoRead => exact .execGrdCapAddrLoRead
  | grdSegEnWrite => exact .execGrdSegEnWrite
  | stickyClear => exact .execStickyClear
  | fltFirstLoRead => exact .execFltFirstLoRead
  | bucketStart => exact .execBucketStart
  | coalesceIntervalEnd => exact .execCoalesceIntervalEnd
  | segmentRestore => exact .execSegmentRestore
  | coreRestore => exact .execCoreRestore
  | fltLogCfgEn => exact .execFltLogCfgEn
  | fltLogHeadWrite => exact .execFltLogHeadWrite
  | powerFailWarning => exact .execPowerFailWarning
  | mainsRestored => exact .execMainsRestored
  | dcRegulationLoss => exact .execDcRegulationLoss
  | mainsCycle => exact .execMainsCycle
  | psuLimitChange => exact .execPsuLimitChange
  | powerGrantPeriod => exact .execPowerGrantPeriod
  | thermalWarning => exact .execThermalWarning
  | thermalTrip => exact .execThermalTrip
  | thermalRestart => exact .execThermalRestart
  | fanFailure => exact .execFanFailure
  | memoryError => exact .execMemoryError
  | vendorCoreRestart => exact .execVendorCoreRestart
  | vendorCoreRunning => exact .execVendorCoreRunning
  | crcReport => exact .execCrcReport
  | thumbnailDue => exact .execThumbnailDue
  | captureResponse => exact .execCaptureResponse
  | chunkResponse => exact .execChunkResponse
  | thumbnailEncoded => exact .execThumbnailEncoded
  | telemetryDue => exact .execTelemetryDue
  | telemetryResponse => exact .execTelemetryResponse
  | rtvRingCfgEn => exact .execRtvRingCfgEn
  | rtvRingHeadWrite => exact .execRtvRingHeadWrite
  | rtvDropCfgWrite => exact .execRtvDropCfgWrite
  | coreStart => exact .execCoreStart
  | ccTaskGo => exact .execCcTaskGo
  | taskExit => exact .execTaskExit
  | kick => exact .execKick
  | watchdogHalf => exact .execWatchdogHalf
  | watchdogExpiry => exact .execWatchdogExpiry
  | customerRestart => exact .execCustomerRestart
  | ccFbPublish => exact .execCcFbPublish
  | ccTimer => exact .execCcTimer
  | ccTmrLoWrite => exact .execCcTmrLoWrite
  | ccTmrLoRead => exact .execCcTmrLoRead
  | dcGood => exact .execDcGood
  | startUpComplete => exact .execStartUpComplete
  | bootCalendarInstall => exact .execBootCalendarInstall
  | standbyPageCopy => exact .execStandbyPageCopy
  | trialTimeout => exact .execTrialTimeout
  | trialEnd => exact .execTrialEnd
  | mapWrite => exact .execMapWrite
  | mapRead => exact .execMapRead
  | mapFactory => exact .execMapFactory
  | mapCapture => exact .execMapCapture
  | fwWrite => exact .execFwWrite
  | fwActivate => exact .execFwActivate
  | fwCommit => exact .execFwCommit
  | ccWrite => exact .execCcWrite
  | ccActivate => exact .execCcActivate
  | calLoad => exact .execCalLoad
  | calRevert => exact .execCalRevert
  | pageWrite => exact .execPageWrite
  | restartCold => exact .execRestartCold
  | restartWarm => exact .execRestartWarm
  | segReset => exact .execSegReset
  | segAccess => exact .execSegAccess
  | coreRun => exact .execCoreRun
  | flt => exact .execFlt
  | trace => exact .execTrace
  | store => exact .execStore
  | attnReleased => exact .execAttnReleased
  | powerFailWarningClear => exact .execPowerFailWarningClear
  | thermalWarningClear => exact .execThermalWarningClear
  | dhcpAnswer => exact .execDhcpAnswer
  | dhcpRequestTimer => exact .execDhcpRequestTimer
  | leaseLost => exact .execLeaseLost
  | arpIcmpEchoRequest => exact .execArpIcmpEchoRequest
  | servicePortClient => exact .execServicePortClient

/-- Settles O2: each command's meaning is a next state. -/
theorem everyCommandAnswersANextState : Obligations.EveryCommandAnswersANextState := fun c s =>
  let ⟨t, ht, _⟩ := exec_goes c s
  ⟨t, ht⟩

theorem step_goes (s : State) : Goes s (step s) := by
  unfold step
  split
  · exact .same
  · obtain ⟨t, ht, hrising⟩ := exec_goes _ _
    exact ⟨t, ht, fun h => hrising h.withPending⟩

/-- Settles O4: the unit idles or runs one command, and each command's meaning keeps the tables rising. -/
theorem everyStepKeepsTablesRising : Obligations.EveryStepKeepsTablesRising := by
  intro s t h hstep
  obtain ⟨u, hu, hrising⟩ := step_goes s
  obtain rfl : u = t := Host.Outcome.next.inj (hu.symm.trans hstep)
  exact hrising h

/-- Settles O3: each table is empty or lists its indices in order. -/
theorem resetTablesRise : Obligations.ResetTablesRise := by
  unfold Obligations.ResetTablesRise
  exact ⟨rfl, rfl, rfl, rfl, rfl, rfl, rfl, rfl, rfl, rfl, rfl, rfl⟩

end Sys2Proof.Machine
end

section
/-! RING_CREATE and RING_DELETE complete with their effects (O6). -/

namespace Sys2Proof.Machine

open Sys2Proof

/-! ### A ring of which nothing is fetched -/

/-- From s to t ring k of partition p stays as it is, and every new request of the partition is a fetch of another ring. -/
structure IdleStep (p k : Nat) (s t : State) : Prop where
  ring : t.ring p k = s.ring p k
  dma : ∀ d ∈ t.dma, d ∈ s.dma ∨ ∃ q a n, q ≠ k ∧ d.purpose = .fetch p q a n

theorem IdleStep.same (p k : Nat) (s : State) : IdleStep p k s s := ⟨rfl, fun _ h => .inl h⟩

theorem IdleStep.trans {p k : Nat} {a b c : State} (h : IdleStep p k a b) (g : IdleStep p k b c) : IdleStep p k a c :=
  ⟨g.ring.trans h.ring, fun d hd => (g.dma d hd).elim (h.dma d) .inr⟩

theorem State.mem_startReads_dma {s : State} {p : Nat} {w : DmaFor} {l : List ((Nat × Nat) × Bool)} {d : DmaRead}
    (h : d ∈ (s.startReads p w l).dma) : d ∈ s.dma ∨ d.purpose = w := by
  unfold State.startReads at h
  dsimp only at h
  generalize (l.flatMap fun x => (s.requestsFor p x.1.1 x.1.2).map fun y => (y, x.2)) = l, s.nextId = read at h
  induction l generalizing s with
  | nil => exact .inl h
  | cons x l ih =>
    have hadded (sent : Bool) (hd : d ∈ (s.withRequest w read x.1.1 x.1.2 x.2 sent).dma) : d ∈ s.dma ∨ d.purpose = w := by
      rcases List.mem_append.mp hd with hd | hd
      · exact .inl hd
      · exact .inr (by rw [List.mem_singleton.mp hd])
    rcases ih h with hd | hd
    · dsimp only at hd
      rcases s.startRequest_eq p w read x.1.1 x.1.2 x.2 with he | he <;> rw [he] at hd
      · exact hadded true (by simpa using hd)
      · exact hadded false hd
    · exact .inr hd

theorem State.mem_fetch_dma {s : State} {p r : Nat} {d : DmaRead} (h : d ∈ (s.fetch p r).dma) :
    d ∈ s.dma ∨ ∃ a n, d.purpose = .fetch p r a n := by
  unfold State.fetch at h
  dsimp only at h
  split at h
  · exact .inl h
  · exact (State.mem_startReads_dma h).imp id fun hd => ⟨_, _, hd⟩

theorem State.writeEntry_dma (s : State) (p r a : Nat) (b : List Byte) : (s.writeEntry p r a b).dma = s.dma := by
  unfold State.writeEntry
  split
  · exact s.emit_dma _
  · rfl

theorem State.signalUnit_dma (s : State) (p n : Nat) (hb : s.bellsPass = true) : (s.signalUnit p n).dma = s.dma := by
  rw [State.signalUnit, (EvcOnly.signal _ s hb).frame]

theorem State.mem_complete_dma {s : State} {p r : Nat} {x : Reply} {v : Nat} {d : DmaRead} (hs : tblRising s.parts = true) (hb : s.bellsPass = true)
    (h : d ∈ (s.complete p r x v).dma) :
    d ∈ s.dma ∨ ∃ a n, d.purpose = .fetch p r a n := by
  cases hf : (s.ring p r).fetched with
  | nil =>
    unfold State.complete at h
    simp only [hf] at h
    exact .inl h
  | cons c rest =>
    rw [s.complete_eq p r x v c rest hf] at h
    refine (State.mem_fetch_dma h).imp (fun hd => ?_) id
    have hentered : (s.entered p r x v c rest).dma = s.dma := State.writeEntry_dma _ p r _ _
    split at hd
    · rwa [State.signalUnit_dma _ p r ((State.entered_step p r x v s c rest hs).bells hb), hentered] at hd
    · rwa [hentered] at hd

theorem State.complete_idle (s : State) (p r k : Nat) (x : Reply) (v : Nat) (h : tblRising s.parts = true) (hb : s.bellsPass = true)
    (hr : r < 32) (hk : k ≠ r) : IdleStep p k s (s.complete p r x v) :=
  ⟨s.complete_ring_other p r k x v h hb hr hk, fun _ hd => (State.mem_complete_dma h hb hd).imp id fun ⟨a, n, hp⟩ => ⟨r, a, n, hk.symm, hp⟩⟩

/-- A ring of which nothing is fetched has no turn. -/
theorem State.drainUnknown_idle (p k n : Nat) (s : State) (h : tblRising s.parts = true) (hb : s.bellsPass = true)
    (hidle : (s.ring p k).fetched = []) : IdleStep p k s (s.drainUnknown n p) := by
  induction n generalizing s with
  | zero => exact .same p k s
  | succ n ih =>
    unfold State.drainUnknown
    split
    · exact .same p k s
    · next r hnext =>
      split
      · exact .same p k s
      · next c rest hfetched =>
        split
        · exact .same p k s
        · have hk : k ≠ r := by
            rintro rfl
            rw [hidle] at hfetched
            cases hfetched
          have hlt := s.nextRing_lt p r hnext
          have hserved := RingStep.lastRing p r s h
          have hring : (s.onPart p fun x => { x with lastRing := r }).ring p k = s.ring p k :=
            State.ring_of_rings s _ p k (State.rings_onPart s p _ h rfl)
          have hstep := hserved.trans (State.complete_step p r (replyBadParam 0) s.now _ hserved.rising (hserved.bells hb) (by omega))
          have hdone := State.complete_idle _ p r k (replyBadParam 0) s.now hserved.rising (hserved.bells hb) (by omega) hk
          have hfirst : IdleStep p k s _ := ⟨hdone.ring.trans hring, hdone.dma⟩
          exact hfirst.trans (ih _ hstep.rising (hstep.bells hb) (by rw [hfirst.ring]; exact hidle))

/-- A command of another ring that is answered OK leaves a ring of which nothing is fetched. -/
theorem State.finish_idle (s m : State) (p r k : Nat) (x : Reply) (hm : tblRising m.parts = true) (hb : m.bellsPass = true) (hr : r < 32)
    (hx : x.status = 0) (hk : k ≠ r) (hidle : (m.ring p k).fetched = []) : IdleStep p k m (s.finish p r (.reply x m)) := by
  have heq : s.finish p r (.reply x m) = (m.complete p r x s.now).settleRings p := by unfold State.finish; simp [hx]
  have hcomplete := m.complete_step p r x s.now hm hb hr
  have hdone := m.complete_idle p r k x s.now hm hb hr hk
  rw [heq]
  exact hdone.trans (State.drainUnknown_idle p k _ _ hcomplete.rising (hcomplete.bells hb) (by rw [hdone.ring]; exact hidle))

/-! ### Effects on other rings -/

/-- A command answered from u is answered from m as well, where the two agree in what the answer speaks of. -/
theorem Answered.of_same {p r : Nat} {x : Reply} {v : Nat} {m u t : State} (h : Answered p r x v u t) (hring : u.ring p r = m.ring p r)
    (hok : (u.part p).dmaOk = (m.part p).dmaOk) (hheld : (u.part p).held = (m.part p).held) (hout : u.out = m.out) : Answered p r x v m t := by
  unfold Answered at h ⊢
  simpa only [hring, hok, hheld, hout] using h

/-- From m to u no output leaves, no completion entry is added to those held, and the function may write as before. -/
structure Quiet (p : Nat) (m u : State) : Prop where
  out : u.out = m.out
  held : (u.part p).held = (m.part p).held
  ok : (u.part p).dmaOk = (m.part p).dmaOk

theorem Quiet.onPart (p : Nat) (m : State) (f : Partition → Partition) (h : tblRising m.parts = true)
    (hheld : (f (m.part p)).held = (m.part p).held) (hok : (f (m.part p)).dmaOk = (m.part p).dmaOk) : Quiet p m (m.onPart p f) :=
  ⟨rfl, by rw [m.part_onPart_same p f h, hheld], by rw [m.part_onPart_same p f h, hok]⟩

/-- A command whose effect is a ring step to u, quiet and beside its own ring, completes from m, and its answer leaves a ring that stands idle
in u as it is there. -/
theorem ringStep_completesWith {s m u : State} {i : Instr} {p r k : Nat} {c : Fetched} {rest : List Fetched} {P : State → Prop}
    (hexec : exec i s = .next ((s.atRing p r).finish p r (.reply (replyOk 0) u))) (hstep : RingStep p m u) (hquiet : Quiet p m u)
    (hring : u.ring p r = m.ring p r) (hb : m.bellsPass = true) (hr : r < 32) (hf : (m.ring p r).fetched = c :: rest) (hk : k ≠ r)
    (hidle : (u.ring p k).fetched = []) (hP : ∀ t, IdleStep p k u t → P t) : CompletesWith p r i (replyOk 0) s m P := by
  have hfetched : (u.ring p r).fetched = c :: rest := by rw [hring]; exact hf
  have hfinish := (s.atRing p r).finish_step u p r (replyOk 0) hstep.rising (hstep.bells hb) hr rfl
  obtain ⟨-, hanswer⟩ := State.finish_ok (s.atRing p r) u p r (replyOk 0) c rest hstep.rising (hstep.bells hb) hr hfetched rfl
  exact ⟨_, hexec, (hstep.trans hfinish).only, hanswer.of_same hring hquiet.ok hquiet.held hquiet.out,
    hP _ (State.finish_idle _ u p r k (replyOk 0) hstep.rising (hstep.bells hb) hr rfl hk hidle)⟩

/-- OBJECT of a ring command that passes step 1 is in its range. -/
theorem object_of_check {layout : List (Nat × Nat)} {checks : List (Bool × Nat)} {e : BitVec 512} {lo hi : Nat}
    (h : badField layout checks e = none) (hmem : objectCheck e lo hi ∈ checks) : lo ≤ entryObject e ∧ entryObject e ≤ hi := by
  have hfalse := badField_check (c := decide (entryObject e < lo) || decide (hi < entryObject e)) (b := bitPos 8 0) h hmem
  simpa only [Bool.or_eq_false_iff, decide_eq_false_iff_not, Nat.not_lt] using hfalse

/-! ### RING_CREATE (R141) -/

/-- The ring that RING_CREATE's entry describes. -/
def createdRing (e : BitVec 512) : Ring :=
  { state := .active, sqAddr := BitVec.ofNat 64 (entryField e 0x10 0 64), cqAddr := BitVec.ofNat 64 (entryField e 0x18 0 64),
    sqLog2 := entryField e 0x20 0 4, cqLog2 := entryField e 0x21 0 4 }

/-- What RING_CREATE does at its turn. -/
def ringCreateAct (p : Nat) (s : State) (e : BitVec 512) : CmdOut :=
  let k := entryObject e
  let g := s.ring p k
  checked s [failIf (g.state != .absent) (replyConflict typeRing g.state.code k)] (.reply (replyOk 0) (s.onRing p k fun _ => createdRing e))

theorem exec_ringCreate_eq (p : PartId) (r : RingId) (s : State) :
    exec (.ringCreate p r) s = ringCmd s p r 0x04 true ringLayout ringChecks (ringCreateAct p) := rfl

theorem ringCreateAct_absent {p : Nat} {s : State} {e : BitVec 512} (h : (s.ring p (entryObject e)).state = .absent) :
    ringCreateAct p s e = .reply (replyOk 0) (s.onRing p (entryObject e) fun _ => createdRing e) := by
  unfold ringCreateAct
  simp only [h]
  rfl

theorem State.ring_created (s : State) (p k : Nat) (e : BitVec 512) (h : tblRising s.parts = true) :
    (s.onRing p k fun _ => createdRing e).ring p k = createdRing e := by
  have hne : createdRing e ≠ {} := fun heq => by cases congrArg Ring.state heq
  unfold State.onRing State.ring
  rw [State.part_onPart_same _ _ _ h]
  exact tblGet_set_ne _ _ _ _ hne

theorem ringCreate_completes (p : PartId) (r : RingId) (s : State) (e : BitVec 512) (h : Ready s p r 0x04 e true ringLayout (ringChecks e))
    (habsent : (s.ring p (entryObject e)).state = .absent) :
    CompletesWith p r (.ringCreate p r) (replyOk 0) s (s.atRing p r) fun t => t.ring p (entryObject e) = createdRing e := by
  obtain ⟨hturn, hfields, hcheck, ⟨hparts, -⟩, hbells⟩ := id h
  obtain ⟨hlt, c, rest, hfetched, -⟩ := State.turn_fetched s p r 0x04 e hturn
  have hr0 : (r : Nat) = 0 := ring0_of_sessionCheck hcheck
  have hk : entryObject e ≠ r := by
    have := (object_of_check hfields (List.mem_cons_self : objectCheck e 1 15 ∈ ringChecks e)).1
    omega
  have hat := s.rising_atRing p r hparts
  have hring := s.ring_atRing p r
  have hcreated := (s.atRing p r).ring_created p (entryObject e) e hat
  refine ringStep_completesWith ?_ (RingStep.onRing p (entryObject e) (s.atRing p r) (fun _ => createdRing e) hat)
    (.onPart p _ _ hat rfl rfl) (State.ring_onRing_other _ _ _ _ _ hat hk.symm) hbells (by omega)
    (by rw [hring r hparts]; exact hfetched) hk (by rw [hcreated]; rfl) fun t ht => ht.ring.trans hcreated
  rw [exec_ringCreate_eq, ringCmd_eq s p r 0x04 true ringLayout ringChecks _ e h,
    ringCreateAct_absent (by rw [hring _ hparts]; exact habsent)]

/-! ### RING_DELETE (R147) -/

/-- t is s but for the rings of partition p. -/
structure RingsApart (p : Nat) (s t : State) : Prop where
  frame : t = { s with parts := t.parts }
  rising : tblRising s.parts = true ∧ tblRising t.parts = true
  others : ∀ q, q ≠ p → t.part q = s.part q
  part : ∃ l, t.part p = { s.part p with rings := l }

theorem RingsApart.onRings (p : Nat) (s : State) (f : Partition → Tbl Ring) (h : tblRising s.parts = true) :
    RingsApart p s (s.onPart p fun x => { x with rings := f x }) :=
  ⟨rfl, ⟨h, s.rising_onPart p _ h⟩, fun q hq => s.part_onPart_other p q _ hq, _, s.part_onPart_same p _ h⟩

theorem RingsApart.withDma {p : Nat} {s t : State} (h : RingsApart p s t) (l : List DmaRead) :
    RingsApart p { s with dma := l } { t with dma := l } :=
  ⟨by rw [h.frame], h.rising, h.others, h.part⟩

theorem RingsApart.withOut {p : Nat} {s t : State} (h : RingsApart p s t) (l : List Output) :
    RingsApart p { s with out := l } { t with out := l } :=
  ⟨by rw [h.frame], h.rising, h.others, h.part⟩

/-- A change of the partition's record that neither reads nor writes the rings is the same change on both sides. -/
theorem RingsApart.onPart {p : Nat} {s t : State} (h : RingsApart p s t) (f : Partition → Partition)
    (hf : ∀ x l, f { x with rings := l } = { f x with rings := l }) : RingsApart p (s.onPart p f) (t.onPart p f) := by
  obtain ⟨hs, ht⟩ := h.rising
  obtain ⟨l, hl⟩ := h.part
  refine ⟨?_, ⟨s.rising_onPart p f hs, t.rising_onPart p f ht⟩, fun q hq => ?_, l, ?_⟩
  · rw [h.frame]
    rfl
  · rw [t.part_onPart_other p q f hq, s.part_onPart_other p q f hq, h.others q hq]
  · rw [t.part_onPart_same p f ht, s.part_onPart_same p f hs, hl, hf]

theorem RingsApart.emit {p : Nat} {s t : State} (h : RingsApart p s t) (o : Output) (ho : o.port = some p) :
    RingsApart p (s.emit o) (t.emit o) := by
  have htick : t.tick = s.tick := by rw [h.frame]; rfl
  have hout : t.out = s.out := by rw [h.frame]
  have heq (u : State) : u.emit o = ({ u with out := u.out ++ [o] } : State).onPart p fun x =>
      { x with inL1 := false, idleTick := u.tick, aer := x.aer.note o } := by
    unfold State.emit
    rw [ho]
    rfl
  rw [heq s, heq t, htick, hout]
  exact (h.withOut _).onPart _ fun _ _ => rfl

theorem RingsApart.quiet {p : Nat} {s t : State} (h : RingsApart p s t) : Quiet p s t := by
  obtain ⟨l, hl⟩ := h.part
  exact ⟨by rw [h.frame], by rw [hl], by rw [hl]; rfl⟩

theorem RingsApart.sendRead {p : Nat} {s t : State} (h : RingsApart p s t) : RingsApart p (s.sendRead p) (t.sendRead p) := by
  have hdma : t.dma = s.dma := by rw [h.frame]
  have hok : (t.part p).dmaOk = (s.part p).dmaOk := h.quiet.ok
  have hout : t.outstanding p = s.outstanding p := by unfold State.outstanding; rw [hdma]
  unfold State.sendRead
  rw [hdma, hok, hout]
  split
  · split
    · exact (h.withDma _).emit _ rfl
    · exact h
  · exact h

theorem RingsApart.sendReads {p : Nat} {s t : State} (h : RingsApart p s t) : RingsApart p (s.sendReads p) (t.sendReads p) := by
  have hdma : t.dma = s.dma := by rw [h.frame]
  unfold State.sendReads
  rw [hdma]
  clear hdma
  generalize s.dma.filter _ = l
  induction l generalizing s t with
  | nil => exact h
  | cons d l ih => exact ih h.sendRead

theorem RingsApart.dropReads {p : Nat} {s t : State} (h : RingsApart p s t) (f : Nat → Bool) :
    RingsApart p (s.dropReads p f) (t.dropReads p f) := by
  have hdma : t.dma = s.dma := by rw [h.frame]
  unfold State.dropReads State.dropReadsOf
  rw [hdma]
  exact (h.withDma _).sendReads

theorem RingsApart.ringStep {p : Nat} {s t : State} (h : RingsApart p s t) : RingStep p s t := by
  have hsource (n : Nat) : t.source n = s.source n := by rw [h.frame]; rfl
  have hgroup (n : Nat) : t.group n = s.group n := by rw [h.frame]; rfl
  obtain ⟨l, hl⟩ := h.part
  refine ⟨⟨?_, h.others, ?_, fun n _ => hsource n, fun g _ => hgroup g, by rw [h.frame]⟩, h.rising.2, ⟨[], ?_⟩, ⟨[], ?_⟩⟩
  · rw [h.frame]
  · rw [hl]
  · rw [h.frame, List.append_nil]
  · rw [hl, List.append_nil]

/-! #### The requests that stay outstanding -/

theorem State.mem_sendRead_of {s : State} {p : Nat} {d : DmaRead} (h : d ∈ (s.sendRead p).dma) :
    ∃ e ∈ s.dma, d.purpose = e.purpose ∧ d.dropped = e.dropped := by
  unfold State.sendRead at h
  split at h
  · split at h
    · rw [State.emit_dma] at h
      obtain ⟨e, he, rfl⟩ := List.mem_map.mp h
      exact ⟨e, he, by split <;> rfl, by split <;> rfl⟩
    · exact ⟨d, h, rfl, rfl⟩
  · exact ⟨d, h, rfl, rfl⟩

theorem State.mem_sendReads_of {s : State} {p : Nat} {d : DmaRead} (h : d ∈ (s.sendReads p).dma) :
    ∃ e ∈ s.dma, d.purpose = e.purpose ∧ d.dropped = e.dropped := by
  unfold State.sendReads at h
  generalize s.dma.filter _ = l at h
  induction l generalizing s with
  | nil => exact ⟨d, h, rfl, rfl⟩
  | cons x l ih =>
    obtain ⟨e, he, hpurpose, hdropped⟩ := ih h
    obtain ⟨w, hw, hsame⟩ := State.mem_sendRead_of he
    exact ⟨w, hw, hpurpose.trans hsame.1, hdropped.trans hsame.2⟩

/-- What fetched for a ring whose reads are dropped waits for nothing. -/
theorem State.dropReads_dropped {s : State} {p k : Nat} {f : Nat → Bool} (hf : f k = true) {d : DmaRead} (h : d ∈ (s.dropReads p f).dma)
    {a n : Nat} (hpurpose : d.purpose = .fetch p k a n) : d.dropped = true := by
  obtain ⟨e, he, hsame, hdropped⟩ := State.mem_sendReads_of h
  obtain ⟨w, -, rfl⟩ := List.mem_map.mp he
  rw [hdropped]
  rw [hpurpose] at hsame
  split at hsame
  · rw [if_pos (by assumption)]
  · next hnot => exact absurd (by simp only [← hsame, hf, beq_self_eq_true, Bool.and_self]) hnot

/-- What RING_DELETE does at its turn. -/
def ringDeleteAct (p : Nat) (s : State) (e : BitVec 512) : CmdOut :=
  let k := entryObject e
  let g := s.ring p k
  checked s [failIf (g.state == .absent || !g.fetched.isEmpty || s.heldOn p k != 0) (replyConflict typeRing g.state.code k)]
    (let t := s.onPart p fun x => { x with rings := tblErase x.rings k }
     .reply (replyOk 0) (t.dropReads p fun j => j == k))

theorem exec_ringDelete_eq (p : PartId) (r : RingId) (s : State) :
    exec (.ringDelete p r) s = ringCmd s p r 0x05 true [] (fun e => [objectCheck e 1 15]) (ringDeleteAct p) := rfl

/-- Ring k's record is gone. -/
def State.withoutRing (s : State) (p k : Nat) : State := s.onPart p fun x => { x with rings := tblErase x.rings k }

theorem ringDeleteAct_idle {p : Nat} {s : State} {e : BitVec 512} (hstate : (s.ring p (entryObject e)).state ≠ .absent)
    (hfetched : (s.ring p (entryObject e)).fetched = []) (hheld : s.heldOn p (entryObject e) = 0) :
    ringDeleteAct p s e = .reply (replyOk 0) ((s.withoutRing p (entryObject e)).dropReads p fun j => j == entryObject e) := by
  have hpass : ((s.ring p (entryObject e)).state == .absent || !(s.ring p (entryObject e)).fetched.isEmpty ||
      s.heldOn p (entryObject e) != 0) = false := by
    simp [hstate, hfetched, hheld]
  unfold ringDeleteAct
  simp only [hpass]
  rfl

theorem State.ring_withoutRing (s : State) (p k r : Nat) (h : tblRising s.parts = true) (hrings : tblRising (s.part p).rings = true) :
    (s.withoutRing p k).ring p r = if r = k then {} else s.ring p r := by
  unfold State.withoutRing State.ring tblGet
  rw [State.part_onPart_same _ _ _ h]
  split
  · next hr => rw [hr, tblFind_erase_same _ k hrings]; rfl
  · next hr => rw [tblFind_erase_other _ k r hr]

theorem ringDelete_completes (p : PartId) (r : RingId) (s : State) (e : BitVec 512) (h : Ready s p r 0x05 e true [] [objectCheck e 1 15])
    (hstate : (s.ring p (entryObject e)).state ≠ .absent) (hidle : (s.ring p (entryObject e)).fetched = [])
    (hheld : s.heldOn p (entryObject e) = 0) (hrings : tblRising (s.part p).rings = true) :
    CompletesWith p r (.ringDelete p r) (replyOk 0) s ((s.atRing p r).dropReads p fun j => j == entryObject e) fun t =>
      (t.ring p (entryObject e)).state = .absent ∧ ∀ d ∈ t.dma, ∀ a n, d.purpose = .fetch p (entryObject e) a n → d.dropped = true := by
  obtain ⟨hturn, hfields, hcheck, ⟨hparts, -⟩, hbells⟩ := id h
  obtain ⟨hlt, c, rest, hfetched, -⟩ := State.turn_fetched s p r 0x05 e hturn
  have hr0 : (r : Nat) = 0 := ring0_of_sessionCheck hcheck
  have hk : entryObject e ≠ r := by
    have := (object_of_check hfields List.mem_cons_self).1
    omega
  set k := entryObject e with hkdef
  set a := s.atRing p r with ha
  have hat : tblRising a.parts = true := s.rising_atRing p r hparts
  have hring (q : Nat) : a.ring p q = s.ring p q := s.ring_atRing p r q hparts
  have hpart : a.part p = { s.part p with lastRing := r } := s.part_atRing p r hparts
  set m := a.dropReads p fun j => j == k with hm
  set u := (a.withoutRing p k).dropReads p fun j => j == k with hu
  have hapart : RingsApart p m u := (RingsApart.onRings p a _ hat).dropReads _
  have hfirst : Spares ringsOf a m := Spares.dropReads deaf_ringsOf a p _
  have hsecond : Spares ringsOf (a.withoutRing p k) u := Spares.dropReads deaf_ringsOf _ p _
  have hmring (q : Nat) : m.ring p q = s.ring p q := (hfirst.ring hat p q).trans (hring q)
  have huring (q : Nat) : u.ring p q = if q = k then {} else s.ring p q := by
    rw [hsecond.ring (a.rising_onPart p _ hat) p q, a.ring_withoutRing p k q hat (by rw [hpart]; exact hrings), hring]
  have hgone : u.ring p k = {} := (huring k).trans (if_pos rfl)
  refine ringStep_completesWith ?_ hapart.ringStep hapart.quiet ?_ (hfirst.bells hbells) (by omega) (by rw [hmring]; exact hfetched) hk
    (by rw [hgone]) fun t ht => ⟨by rw [ht.ring, hgone], fun d hd addr n hpurpose => ?_⟩
  · rw [exec_ringDelete_eq, ringCmd_eq s p r 0x05 true [] (fun e => [objectCheck e 1 15]) _ e h]
    rw [ringDeleteAct_idle (by rw [hring]; exact hstate) (by rw [hring]; exact hidle)
      (by unfold State.heldOn; rw [hpart]; exact hheld)]
  · rw [hmring, huring, if_neg hk.symm]
  · rcases ht.dma d hd with hd | ⟨q, b, l, hq, hother⟩
    · exact State.dropReads_dropped (f := fun j => j == k) (beq_self_eq_true k) hd hpurpose
    · rw [hother] at hpurpose
      cases hpurpose
      exact absurd rfl hq

/-- Settles O6: the effect touches another ring than the command's own, of which nothing is fetched, and the answer leaves such a ring alone. -/
theorem ringsAreCreatedAndDeleted : Obligations.RingsAreCreatedAndDeleted := ⟨ringCreate_completes, ringDelete_completes⟩

end Sys2Proof.Machine
end

section
/-! A command whose effect leaves the rings and the unit's doorbells alone completes, or waits (O7, O8, O14–O17, O19). -/

namespace Sys2Proof.Machine

open Sys2Proof

variable {s t m : State}

/-- From s to t every ring stays as it is, and doorbells that pass the guard still do. -/
structure KeepsRings (s t : State) : Prop where
  rising : tblRising s.parts = true → tblRising t.parts = true
  ring : tblRising s.parts = true → ∀ p r, t.ring p r = s.ring p r
  bells : s.bellsPass = true → t.bellsPass = true

namespace KeepsRings

theorem same : KeepsRings s s := ⟨id, fun _ _ _ => rfl, id⟩

theorem trans {u : State} (h : KeepsRings s t) (g : KeepsRings t u) : KeepsRings s u :=
  ⟨fun hs => g.rising (h.rising hs), fun hs p r => (g.ring (h.rising hs) p r).trans (h.ring hs p r), fun hb => g.bells (h.bells hb)⟩

theorem of_spares (h : Spares ringsOf s t) : KeepsRings s t := ⟨fun hs => (h.parts hs).1, fun hs => h.ring hs, h.bells⟩

/-- A change beside the partitions and the bank pairs. -/
theorem of_parts (hparts : t.parts = s.parts) (hpairs : t.pairs = s.pairs) : KeepsRings s t := by
  refine ⟨fun hs => by rwa [hparts], fun _ p r => ?_, fun hb => ?_⟩
  · unfold State.ring State.part
    rw [hparts]
  · have hok : t.bellsPass = s.bellsPass := by
      unfold State.bellsPass State.blockOk
      rw [show t.pair = s.pair from funext fun n => by unfold State.pair; rw [hpairs]]
    rw [hok, hb]

theorem onPart (p : Nat) (f : Partition → Partition) (hf : ∀ x, (f x).rings = x.rings) : KeepsRings s (s.onPart p f) := by
  refine ⟨fun hs => s.rising_onPart p f hs, fun hs q r => ?_, id⟩
  refine State.ring_of_rings s _ q r ?_
  by_cases hq : q = p
  · rw [hq, s.part_onPart_same p f hs, hf]
  · rw [s.part_onPart_other p q f hq]

theorem foldl {α : Type} {f : State → α → State} (hf : ∀ t x, KeepsRings t (f t x)) (l : List α) : KeepsRings s (l.foldl f s) := by
  induction l generalizing s with
  | nil => exact same
  | cons x l ih => exact (hf s x).trans ih

theorem ite {c : Prop} [Decidable c] {u : State} (ht : KeepsRings s t) (hu : KeepsRings s u) : KeepsRings s (if c then t else u) := by
  split
  · exact ht
  · exact hu

end KeepsRings

/-- Checks that all pass leave the effect. -/
theorem checked_of_pass {l : List (Option Reply)} {k : CmdOut} (h : firstFail l = none) : checked s l k = k := by
  unfold checked
  rw [h]

/-- Checks pass that pass one by one. -/
theorem firstFail_cons {x : Option Reply} {l : List (Option Reply)} (hx : x = none) (hl : firstFail l = none) : firstFail (x :: l) = none := by
  rw [hx]
  exact hl

theorem firstFail_append {l k : List (Option Reply)} (hl : firstFail l = none) (hk : firstFail k = none) : firstFail (l ++ k) = none := by
  unfold firstFail at *
  rw [List.findSome?_append, hl, hk]
  rfl

theorem failIf_of_false {c : Bool} {x : Reply} (h : c = false) : failIf c x = none := by
  rw [h]
  rfl

/-- A command at its turn that answers OK with an effect beside the rings completes. -/
theorem ringCmd_completes_of_keeps {i : Instr} {p r op : Nat} {ring0 : Bool} {layout : List (Nat × Nat)} {bad : BitVec 512 → List (Bool × Nat)}
    {act : State → BitVec 512 → CmdOut} {e : BitVec 512} {x : Reply} (hi : exec i s = ringCmd s p r op ring0 layout bad act)
    (h : Ready s p r op e ring0 layout (bad e)) (ha : act (s.atRing p r) e = .reply x m) (hx : x.status = 0)
    (hm : KeepsRings (s.atRing p r) m) : Completes p r i x s m := by
  obtain ⟨-, -, -, ⟨hparts, -⟩, hbells⟩ := id h
  have hat := s.rising_atRing p r hparts
  exact ringCmd_completes s m i p r op ring0 layout bad act e x hi h ha hx (hm.rising hat) (hm.bells hbells)
    ((hm.ring hat p r).trans (s.ring_atRing p r r hparts))

end Sys2Proof.Machine
end

section
/-! SHAPER_CREATE, SHAPER_SET and SHAPER_DESTROY complete with their effects (O19). -/

namespace Sys2Proof.Machine

open Sys2Proof

variable {s : State}

theorem KeepsRings.settleCal (i : Nat) : KeepsRings s (s.settleCal i) := .ite (.of_parts rfl rfl) .same

theorem KeepsRings.onShaper (p n : Nat) (f : Shaper → Shaper) : KeepsRings s (s.onShaper p n f) := by
  refine .onPart p _ fun x => ?_
  split <;> rfl

theorem State.shaper_atRing (s : State) (p r k : Nat) (h : tblRising s.parts = true) : (s.atRing p r).shaper p k = s.shaper p k := by
  unfold State.shaper
  rw [s.part_atRing p r h]

theorem State.settleCal_parts (s : State) (i : Nat) : (s.settleCal i).parts = s.parts := by
  unfold State.settleCal
  split
  · exact s.onSeg_parts i _
  · rfl

theorem State.settleCals_parts (s : State) (l : Tbl Segment) : (l.foldl (fun v x => v.settleCal x.1) s).parts = s.parts := by
  induction l generalizing s with
  | nil => rfl
  | cons x l ih => exact (ih _).trans (s.settleCal_parts x.1)

/-- What SHAPER_CREATE does at its turn. -/
def shaperCreateAct (p : Nat) (s : State) (e : BitVec 512) : CmdOut :=
  let k := entryObject e
  checked s [failIf (s.shaper p k).isSome (replyConflict typeShaper 1 k)]
    (.reply (replyOk 0) (s.onPart p fun x =>
      { x with shapers := tblPut x.shapers k { rate := entryField e 0x10 0 32, burst := entryField e 0x14 0 16 } }))

/-- What SHAPER_SET does at its turn. -/
def shaperSetAct (p : Nat) (s : State) (e : BitVec 512) : CmdOut :=
  let k := entryObject e
  checked s [failIf (s.shaper p k).isNone replyNotOwner]
    (.reply (replyOk 0) (s.onShaper p k fun x => x.retune (entryField e 0x10 0 32) (entryField e 0x14 0 16) s.now))

/-- What SHAPER_DESTROY does at its turn. -/
def shaperDestroyAct (p : Nat) (s : State) (e : BitVec 512) : CmdOut :=
  let k := entryObject e
  let s := s.segs.foldl (fun s x => s.settleCal x.1) s
  checked s [failIf (s.shaper p k).isNone replyNotOwner,
             (s.shaperNamed p k).map fun i => replyConflict typeCalendar (s.staged p i).state.code i]
    (.reply (replyOk 0) (s.onPart p fun x => { x with shapers := tblErase x.shapers k }))

theorem exec_shaperCreate_eq (p : PartId) (r : RingId) (s : State) :
    exec (.shaperCreate p r) s = ringCmd s p r 0x60 false shaperLayout (shaperChecks 1) (shaperCreateAct p) := rfl

theorem exec_shaperSet_eq (p : PartId) (r : RingId) (s : State) :
    exec (.shaperSet p r) s = ringCmd s p r 0x61 false shaperLayout (shaperChecks 0) (shaperSetAct p) := rfl

theorem exec_shaperDestroy_eq (p : PartId) (r : RingId) (s : State) :
    exec (.shaperDestroy p r) s = ringCmd s p r 0x62 false [] (fun e => [objectCheck e 1 31]) (shaperDestroyAct p) := rfl

/-- Settles O19: each command's checks pass, and its effect is beside the rings. -/
theorem shapersAreCreatedSetAndDestroyed : Obligations.ShapersAreCreatedSetAndDestroyed := by
  intro p r s e k u
  refine ⟨fun h hnone => ?create, fun h hsome => ?set, ?destroy⟩
  case create =>
    have hpass : (u.shaper p k).isSome = false := by rw [s.shaper_atRing p r k h.2.2.2.1.1, hnone]; rfl
    exact ringCmd_completes_of_keeps (exec_shaperCreate_eq p r s) h (checked_of_pass (firstFail_cons (failIf_of_false hpass) rfl)) rfl
      (.onPart p _ fun _ => rfl)
  case set =>
    have hpass : (u.shaper p k).isNone = false := by rw [s.shaper_atRing p r k h.2.2.2.1.1]; simpa using hsome
    exact ringCmd_completes_of_keeps (exec_shaperSet_eq p r s) h (checked_of_pass (firstFail_cons (failIf_of_false hpass) rfl)) rfl
      (.onShaper p k _)
  case destroy =>
    intro v h hsome hfree
    have hshaper : v.shaper p k = s.shaper p k := by
      rw [← s.shaper_atRing p r k h.2.2.2.1.1]
      unfold State.shaper State.part
      rw [State.settleCals_parts]
    have hpass : (v.shaper p k).isNone = false := by rw [hshaper]; simpa using hsome
    have hnamed : (v.shaperNamed p k).map (fun i => replyConflict typeCalendar (v.staged p i).state.code i) = none := by rw [hfree]; rfl
    have hsettled : KeepsRings u v := .foldl (fun _ (x : Nat × Segment) => .settleCal x.1) _
    exact ringCmd_completes_of_keeps (exec_shaperDestroy_eq p r s) h
      (checked_of_pass (firstFail_cons (failIf_of_false hpass) (firstFail_cons hnamed rfl))) rfl
      (hsettled.trans (.onPart p _ fun _ => rfl))

end Sys2Proof.Machine
end

section
/-! CAL_WRITE, CAL_DISCARD and CAL_COMMIT complete with their effects (O16). -/

namespace Sys2Proof.Machine

open Sys2Proof

variable {s : State}

/-! ### What the calendar's operations leave alone -/

theorem KeepsRings.onSeg (i : Nat) (f : Segment → Segment) : KeepsRings s (s.onSeg i f) := .of_parts rfl rfl

theorem KeepsRings.setStaged (p i : Nat) (x : Staged) : KeepsRings s (s.setStaged p i x) := .onSeg i _

theorem KeepsRings.onDrop (g : Nat) (f : Drop → Drop) : KeepsRings s (s.onDrop g f) := .of_parts rfl rfl

theorem KeepsRings.discardCal (p i : Nat) : KeepsRings s (s.discardCal p i) :=
  .ite ((KeepsRings.setStaged p i {}).trans (.onSeg i _)) (.setStaged p i {})

theorem KeepsRings.recharge (l : List Nat) : KeepsRings s (s.recharge l) := .foldl (fun _ g => .onDrop g _) l

theorem KeepsRings.chargeColant (i : Nat) : KeepsRings s (s.chargeColant i) := .onSeg i _

theorem KeepsRings.commitCal (p i due : Nat) : KeepsRings s (s.commitCal p i due) :=
  (((KeepsRings.setStaged p i _).trans (.onSeg i _)).trans (.recharge _)).trans (.chargeColant i)

/-! ### Settling a calendar changes its segment's calendar alone -/

theorem State.settleCal_beside (s : State) (i : Nat) : s.settleCal i = { s with segs := (s.settleCal i).segs } := by
  unfold State.settleCal
  split <;> rfl

theorem State.settleCal_retired (s : State) (i j : Nat) (h : tblRising s.segs = true) : ((s.settleCal i).seg j).retired = (s.seg j).retired := by
  unfold State.settleCal
  split
  · by_cases hj : j = i
    · rw [hj, s.seg_onSeg_same i _ h]
      rfl
    · rw [s.seg_onSeg_other i j _ hj]
  · rfl

theorem State.settleCal_rising (s : State) (i : Nat) (h : tblRising s.segs = true) : tblRising (s.settleCal i).segs = true := by
  unfold State.settleCal
  split
  · exact tblRising_set _ _ _ _ h
  · exact h

theorem State.settleCal_dropState (s : State) (i g : Nat) (h : tblRising s.segs = true) : (s.settleCal i).dropState g = s.dropState g := by
  unfold State.dropState
  rw [s.settleCal_retired i _ h, s.settleCal_beside i]
  rfl

theorem State.settleCal_owns (s : State) (i p g : Nat) : (s.settleCal i).owns p g = s.owns p g := by
  rw [s.settleCal_beside i]
  rfl

/-! ### What is staged -/

theorem State.staged_onSeg_same (s : State) (p i : Nat) (f : Segment → Segment) (h : tblRising s.segs = true)
    (hf : (f (s.seg i)).staged = (s.seg i).staged) : (s.onSeg i f).staged p i = s.staged p i := by
  unfold State.staged
  rw [s.seg_onSeg_same i f h, hf]

theorem State.staged_setStaged (s : State) (p i : Nat) (x : Staged) (h : tblRising s.segs = true) (hi : tblRising (s.seg i).staged = true) :
    (s.setStaged p i x).staged p i = x := by
  unfold State.staged State.setStaged
  rw [s.seg_onSeg_same i _ h]
  exact tblGet_set_same _ _ _ _ hi

theorem State.setStaged_rising (s : State) (p i : Nat) (x : Staged) (h : tblRising s.segs = true) : tblRising (s.setStaged p i x).segs = true :=
  tblRising_set _ _ _ _ h

theorem State.staged_discardCal (s : State) (p i : Nat) (h : tblRising s.segs = true) (hi : tblRising (s.seg i).staged = true) :
    (s.discardCal p i).staged p i = {} := by
  have hcleared := s.staged_setStaged p i {} h hi
  unfold State.discardCal
  dsimp only
  split
  · exact (State.staged_onSeg_same _ p i _ (s.setStaged_rising p i {} h) rfl).trans hcleared
  · exact hcleared

theorem State.recharge_segs (s : State) (l : List Nat) : (s.recharge l).segs = s.segs := by
  unfold State.recharge
  induction l generalizing s with
  | nil => rfl
  | cons g l ih => exact ih _

theorem State.staged_commitCal (s : State) (p i due : Nat) (h : tblRising s.segs = true) (hi : tblRising (s.seg i).staged = true) :
    (s.commitCal p i due).staged p i = { s.staged p i with state := .pending, due := due } := by
  unfold State.commitCal State.chargeColant
  have hset := s.setStaged_rising p i { s.staged p i with state := .pending, due := due } h
  have hderived : tblRising ((s.setStaged p i { s.staged p i with state := .pending, due := due }).onSeg i fun x =>
      { x with vendor := x.vendor ++ [{ due := due, idle := none, mixed := s.mixed i }] }).segs = true := tblRising_set _ _ _ _ hset
  rw [State.staged_onSeg_same _ p i _ (by rw [State.recharge_segs]; exact hderived) rfl]
  unfold State.staged State.seg
  rw [State.recharge_segs]
  exact (State.staged_onSeg_same _ p i _ hset rfl).trans (s.staged_setStaged p i _ h hi)

/-- What CAL_WRITE does at its turn. -/
def calWriteAct (p : Nat) (s : State) (e : BitVec 512) : CmdOut :=
  let i := entryObject e
  let s := s.settleCal i
  let k := entryField e 0x10 0 16
  let x := entrySlot k (calEntry e)
  let busy := x.kind != 0
  let g := i * 32 + x.drop
  let t := s.staged p i
  checked s [failIf (x.kind != 4 && !s.owns p g) replyNotOwner,
             failIf (x.kind == 3 && (s.shaper p x.shaper).isNone) replyNotOwner,
             failIf (s.heldByOther p i k) replyNotOwner,
             failIf ((s.seg i).retired || s.dropState g == .retired) replyRetired,
             failIf (t.state == .pending) (replyConflict typeCalendar t.state.code i)]
    (.reply (replyOk 0) (s.setStaged p i
      { state := .staged, changes := tblPut t.changes k (if busy then calEntry e else 0), due := 0 }))

/-- What CAL_DISCARD does at its turn. -/
def calDiscardAct (p : Nat) (s : State) (e : BitVec 512) : CmdOut :=
  let i := entryObject e
  let s := s.settleCal i
  let t := s.staged p i
  checked s [failIf (t.state != .staged) (replyConflict typeCalendar t.state.code i)] (.reply (replyOk 0) (s.discardCal p i))

/-- What CAL_COMMIT does at its turn. -/
def calCommitAct (p : Nat) (s : State) (e : BitVec 512) : CmdOut :=
  let i := entryObject e
  let s := s.settleCal i
  let t := s.staged p i
  let due := s.swapInstant i
  let c := s.commitCal p i due
  let x := c.seg i
  checked s ([failIf ((s.seg i).retired || s.namesRetired i t.changes) replyRetired, failIf (t.state != .staged) (replyConflict typeCalendar t.state.code i)]
      ++ c.wordsSteps i ++ c.admitCalendar p i (slotsOf (x.calendarAt x.lastDue).1))
    (.reply (replyOk due) c)

theorem exec_calWrite_eq (p : PartId) (r : RingId) (s : State) :
    exec (.calWrite p r) s = ringCmd s p r 0x50 false calLayout (calChecks s p) (calWriteAct p) := rfl

theorem exec_calDiscard_eq (p : PartId) (r : RingId) (s : State) :
    exec (.calDiscard p r) s = ringCmd s p r 0x51 false [] (fun e => [objectCheck e 0 63]) (calDiscardAct p) := rfl

theorem exec_calCommit_eq (p : PartId) (r : RingId) (s : State) :
    exec (.calCommit p r) s = ringCmd s p r 0x52 false [] (fun e => [objectCheck e 0 63]) (calCommitAct p) := rfl

/-- CAL_WRITE completes with the entry staged. -/
theorem calWrite_completes (p : PartId) (r : RingId) (s : State) (e : BitVec 512) (h : Ready s p r 0x50 e false calLayout (calChecks s p e)) :
    let i := entryObject e
    let u := (s.atRing p r).settleCal i
    let k := entryField e 0x10 0 16
    let x := entrySlot k (calEntry e)
    (x.kind ≠ 4 → s.owns p (i * 32 + x.drop) = true) → (x.kind = 3 → (s.shaper p x.shaper).isSome) → u.heldByOther p i k = false →
    (s.seg i).retired = false → s.dropState (i * 32 + x.drop) ≠ .retired → (u.staged p i).state ≠ .pending →
    Completes p r (.calWrite p r) (replyOk 0) s
      (u.setStaged p i { state := .staged, changes := tblPut (u.staged p i).changes k (if x.kind = 0 then 0 else calEntry e), due := 0 }) := by
  intro i u k x howns hshaper hother hretired hdrop hstate
  obtain ⟨-, -, -, ⟨hparts, hsegs, -⟩, -⟩ := id h
  have hu : u.shaper p x.shaper = s.shaper p x.shaper := by
    rw [← s.shaper_atRing p r x.shaper hparts]
    unfold State.shaper State.part
    rw [State.settleCal_parts]
  have hown : (x.kind != 4 && !u.owns p (i * 32 + x.drop)) = false := by
    rw [State.settleCal_owns]
    by_cases hkind : x.kind = 4
    · simp [hkind]
    · simp [show (s.atRing p r).owns p (i * 32 + x.drop) = true from howns hkind]
  have hshaped : (x.kind == 3 && (u.shaper p x.shaper).isNone) = false := by
    rw [hu]
    by_cases hkind : x.kind = 3
    · simpa [hkind] using hshaper hkind
    · simp [hkind]
  have hlive : ((u.seg i).retired || u.dropState (i * 32 + x.drop) == .retired) = false := by
    have hseg : (u.seg i).retired = (s.seg i).retired := State.settleCal_retired (s.atRing p r) i i hsegs
    have hstate : u.dropState (i * 32 + x.drop) = s.dropState (i * 32 + x.drop) := State.settleCal_dropState (s.atRing p r) i _ hsegs
    rw [hseg, hstate, Bool.or_eq_false_iff]
    exact ⟨hretired, beq_false_of_ne hdrop⟩
  have hact : calWriteAct p (s.atRing p r) e = .reply (replyOk 0) (u.setStaged p i
      { state := .staged, changes := tblPut (u.staged p i).changes k (if (x.kind != 0) = true then calEntry e else 0), due := 0 }) :=
    checked_of_pass (firstFail_cons (failIf_of_false hown) (firstFail_cons (failIf_of_false hshaped) (firstFail_cons (failIf_of_false hother)
      (firstFail_cons (failIf_of_false hlive) (firstFail_cons (failIf_of_false (beq_false_of_ne hstate)) rfl)))))
  have hentry : (if (x.kind != 0) = true then calEntry e else 0) = if x.kind = 0 then 0 else calEntry e := by
    by_cases hkind : x.kind = 0 <;> simp [hkind]
  rw [hentry] at hact
  exact ringCmd_completes_of_keeps (exec_calWrite_eq p r s) h hact rfl ((KeepsRings.settleCal i).trans (.setStaged p i _))

/-- CAL_DISCARD completes with nothing staged. -/
theorem calDiscard_completes (p : PartId) (r : RingId) (s : State) (e : BitVec 512) (h : Ready s p r 0x51 e false [] [objectCheck e 0 63]) :
    let i := entryObject e
    let u := (s.atRing p r).settleCal i
    (u.staged p i).state = .staged →
    Completes p r (.calDiscard p r) (replyOk 0) s (u.discardCal p i) ∧ (tblRising (u.seg i).staged = true → (u.discardCal p i).staged p i = {}) := by
  intro i u hstate
  obtain ⟨-, -, -, ⟨-, hsegs, -⟩, -⟩ := id h
  have hact : calDiscardAct p (s.atRing p r) e = .reply (replyOk 0) (u.discardCal p i) :=
    checked_of_pass (firstFail_cons (failIf_of_false (bne_eq_false_iff_eq.2 hstate)) rfl)
  exact ⟨ringCmd_completes_of_keeps (exec_calDiscard_eq p r s) h hact rfl ((KeepsRings.settleCal i).trans (.discardCal p i)),
    u.staged_discardCal p i (State.settleCal_rising _ i hsegs)⟩

/-- CAL_COMMIT completes with the staged changes PENDING. -/
theorem calCommit_completes (p : PartId) (r : RingId) (s : State) (e : BitVec 512) (h : Ready s p r 0x52 e false [] [objectCheck e 0 63]) :
    let i := entryObject e
    let u := (s.atRing p r).settleCal i
    let due := u.swapInstant i
    let c := u.commitCal p i due
    (s.seg i).retired = false → u.namesRetired i (u.staged p i).changes = false → (u.staged p i).state = .staged →
    firstFail (c.wordsSteps i ++ c.admitCalendar p i (slotsOf ((c.seg i).calendarAt (c.seg i).lastDue).1)) = none →
    Completes p r (.calCommit p r) (replyOk due) s c ∧
      (tblRising (u.seg i).staged = true → (c.staged p i).state = .pending ∧ (c.staged p i).due = due) := by
  intro i u due c hretired hnames hstate hsteps
  obtain ⟨-, -, -, ⟨-, hsegs, -⟩, -⟩ := id h
  have hlive : ((u.seg i).retired || u.namesRetired i (u.staged p i).changes) = false := by
    have hseg : (u.seg i).retired = (s.seg i).retired := State.settleCal_retired (s.atRing p r) i i hsegs
    rw [hseg, Bool.or_eq_false_iff]
    exact ⟨hretired, hnames⟩
  have hact : calCommitAct p (s.atRing p r) e = .reply (replyOk due) c := by
    refine checked_of_pass ?_
    rw [List.append_assoc]
    exact firstFail_append (firstFail_cons (failIf_of_false hlive) (firstFail_cons (failIf_of_false (bne_eq_false_iff_eq.2 hstate)) rfl)) hsteps
  refine ⟨ringCmd_completes_of_keeps (exec_calCommit_eq p r s) h hact rfl ((KeepsRings.settleCal i).trans (.commitCal p i due)), fun hi => ?_⟩
  have hstaged := u.staged_commitCal p i due (State.settleCal_rising _ i hsegs) hi
  exact ⟨congrArg Staged.state hstaged, congrArg Staged.due hstaged⟩

/-- Settles O16: the checks pass on the calendar as settled, and what is staged is read off the segment's table. -/
theorem calendarChangesAreStagedAndCommitted : Obligations.CalendarChangesAreStagedAndCommitted :=
  ⟨fun p r s e => ⟨calWrite_completes p r s e, calDiscard_completes p r s e⟩, calCommit_completes⟩

end Sys2Proof.Machine
end

section
/-! Gate-list commands complete, lists run, and their times are read (O17). -/

namespace Sys2Proof.Machine

open Sys2Proof

variable {s : State}

/-! ### What gate lists leave alone -/

theorem State.onGate_beside (s : State) (k : Nat) (f : GateList → GateList) : s.onGate k f = { s with gates := (s.onGate k f).gates } := by
  unfold State.onGate
  split <;> rfl

theorem State.gate_onGate_same (s : State) (k : Nat) (f : GateList → GateList) : (s.onGate k f).gate k = (s.gate k).map f := by
  unfold State.onGate
  split
  · next g hg =>
    rw [hg]
    exact tblFind_put_same _ _ _
  · next hg => rw [hg]; rfl

theorem State.gate_onGate_other (s : State) (k j : Nat) (f : GateList → GateList) (h : j ≠ k) : (s.onGate k f).gate j = s.gate j := by
  unfold State.onGate
  split
  · exact tblFind_put_other _ _ _ _ h
  · rfl

theorem KeepsRings.onGate (k : Nat) (f : GateList → GateList) : KeepsRings s (s.onGate k f) :=
  .of_parts (by rw [s.onGate_beside]) (by rw [s.onGate_beside])

theorem KeepsRings.composeFirst (p : Nat) : KeepsRings s (s.composeFirst p) := .of_spares (Spares.composeFirst deaf_ringsOf s p)

/-! ### The commands (R174, R238–R240) -/

theorem GateList.reached_idle {g : GateList} {now : Nat} (h : g.state = .idle) : g.reached now = g := by
  unfold GateList.reached
  rw [h]
  exact if_neg fun hreached => by cases hreached.1

/-- A list that is ARMED or RUNNING is so once its base has been looked at. -/
theorem GateList.reached_started {g : GateList} {now : Nat} (h : g.state = .armed ∨ g.state = .running) :
    (g.reached now).state = .armed ∨ (g.reached now).state = .running := by
  unfold GateList.reached
  split
  · exact .inr rfl
  · exact h

theorem State.gateOf_atRing (s : State) (p r q k : Nat) : (s.atRing p r).gateOf q k = s.gateOf q k := rfl

/-- A command on a list the partition holds, in a state that is legal for it. -/
theorem onNamedGate_of_held {p : Nat} {e : BitVec 512} {legal : List GateState} {f : Nat → GateList → CmdOut} {g : GateList}
    (h : s.gateOf p (entryObject e) = some g) (hlegal : (g.reached s.now).state ∈ legal) :
    onNamedGate s p e legal f = f (entryObject e) (g.reached s.now) := by
  unfold onNamedGate
  dsimp only
  rw [h]
  exact if_pos (List.contains_iff_mem.2 hlegal)

theorem onNamedGate_of_idle {p : Nat} {e : BitVec 512} {f : Nat → GateList → CmdOut} {g : GateList}
    (h : s.gateOf p (entryObject e) = some g) (hidle : g.state = .idle) : onNamedGate s p e [.idle] f = f (entryObject e) g := by
  have hreached := GateList.reached_idle (now := s.now) hidle
  rw [onNamedGate_of_held h (by rw [hreached, hidle]; exact List.mem_singleton_self _), hreached]

/-- GATE_LIST_WRITE's change of a list. -/
def writtenGate (e : BitVec 512) (g : GateList) : GateList :=
  let t := tblPut g.entries (entryField e 0x10 0 8) (gateEntry e 0x20)
  { g with entries := if entryField e 0x11 0 8 = 2 then tblPut t (entryField e 0x10 0 8 + 1) (gateEntry e 0x30) else t }

/-- What GATE_LIST_WRITE does at its turn. -/
def gateListWriteAct (p : Nat) (s : State) (e : BitVec 512) : CmdOut :=
  onNamedGate s p e [.idle] fun k _ => .reply (replyOk 0) (s.onGate k (writtenGate e))

/-- What GATE_LIST_START does at its turn. -/
def gateListStartAct (p : Nat) (s : State) (e : BitVec 512) : CmdOut :=
  let roll := entryField e 0x18 0 1 == 1
  let base := entryField e 0x10 0 64
  if roll && decide ((s.part p).level < 2) then .reply replyVersion s
  else
    onNamedGate s p e [.idle] fun k g =>
      checked s [failIf (!g.startable) (replyConflict typeGateList g.state.code k),
                 failIf (decide (base < s.now + 2000000) && !roll) replyPastBase]
        (let b := gateBase base g.cycle s.now
         .reply (replyOk b) ((s.composeFirst p).onGate k fun g => { g with state := .armed, base := b, rep := 0, next := 0, applied := [] }))

/-- What GATE_LIST_STOP does at its turn. -/
def gateListStopAct (p : Nat) (s : State) (e : BitVec 512) : CmdOut :=
  onNamedGate s p e [.armed, .running] fun k _ => .reply (replyOk 0) ((s.composeFirst p).onGate k fun g => { g with state := .idle })

/-- What GATE_LIST_DESTROY does at its turn. -/
def gateListDestroyAct (p : Nat) (s : State) (e : BitVec 512) : CmdOut :=
  onNamedGate s p e [.idle] fun k _ =>
    let t := s.composeFirst p
    .reply (replyOk 0) { t with gates := tblErase t.gates k }

theorem exec_gateListWrite_eq (p : PartId) (r : RingId) (s : State) (e : BitVec 512) (h : s.turn p r 0x59 = some e) :
    exec (.gateListWrite p r) s = ringCmd s p r 0x59 false (gateWriteLayout e) (gateWriteChecks s p) (gateListWriteAct p) := by
  rw [exec_gateListWrite]
  unfold execGateListWrite
  rw [h]
  rfl

theorem exec_gateListStart_eq (p : PartId) (r : RingId) (s : State) :
    exec (.gateListStart p r) s = ringCmd s p r 0x5A false [(bitPos 0x10 0, 64), (bitPos 0x18 0, 1)] gateObject (gateListStartAct p) := rfl

theorem exec_gateListStop_eq (p : PartId) (r : RingId) (s : State) :
    exec (.gateListStop p r) s = ringCmd s p r 0x5B false [] gateObject (gateListStopAct p) := rfl

theorem exec_gateListDestroy_eq (p : PartId) (r : RingId) (s : State) :
    exec (.gateListDestroy p r) s = ringCmd s p r 0x5C false [] gateObject (gateListDestroyAct p) := rfl

section Commands

variable {p : PartId} {r : RingId} {e : BitVec 512} {g : GateList}

theorem gateListWrite_completes (hg : s.gateOf p (entryObject e) = some g)
    (h : Ready s p r 0x59 e false (gateWriteLayout e) (gateWriteChecks s p e)) (hidle : g.state = .idle) :
    Completes p r (.gateListWrite p r) (replyOk 0) s ((s.atRing p r).onGate (entryObject e) (writtenGate e)) :=
  ringCmd_completes_of_keeps (exec_gateListWrite_eq p r s e h.1) h
    (onNamedGate_of_idle (s := s.atRing p r) hg hidle) rfl (.onGate _ _)

theorem gateListStart_completes (hg : s.gateOf p (entryObject e) = some g)
    (h : Ready s p r 0x5A e false [(bitPos 0x10 0, 64), (bitPos 0x18 0, 1)] (gateObject e)) (hidle : g.state = .idle)
    (hstart : g.startable = true) (hbase : s.now + 2000000 ≤ entryField e 0x10 0 64 ∨ entryField e 0x18 0 1 = 1)
    (hlevel : entryField e 0x18 0 1 = 0 ∨ 2 ≤ (s.part p).level) :
    let base := gateBase (entryField e 0x10 0 64) g.cycle s.now
    Completes p r (.gateListStart p r) (replyOk base) s (((s.atRing p r).composeFirst p).onGate (entryObject e) fun g =>
      { g with state := .armed, base := base, rep := 0, next := 0, applied := [] }) := by
  intro base
  have hparts := h.2.2.2.1.1
  have hversion : (entryField e 0x18 0 1 == 1 && decide (((s.atRing p r).part p).level < 2)) = false := by
    rw [s.part_atRing p r hparts]
    rcases hlevel with hzero | hlevel
    · simp [hzero]
    · rw [decide_eq_false (Nat.not_lt.2 hlevel), Bool.and_false]
  have htime : (decide (entryField e 0x10 0 64 < s.now + 2000000) && !(entryField e 0x18 0 1 == 1)) = false := by
    rcases hbase with hahead | hroll
    · simp [hahead]
    · simp [hroll]
  have hact : gateListStartAct p (s.atRing p r) e = .reply (replyOk base) (((s.atRing p r).composeFirst p).onGate (entryObject e) fun g =>
      { g with state := .armed, base := base, rep := 0, next := 0, applied := [] }) := by
    unfold gateListStartAct
    dsimp only
    rw [if_neg (by rw [hversion]; exact Bool.false_ne_true), onNamedGate_of_idle (s := s.atRing p r) hg hidle]
    exact checked_of_pass (firstFail_cons (failIf_of_false (by rw [hstart]; rfl)) (firstFail_cons (failIf_of_false htime) rfl))
  exact ringCmd_completes_of_keeps (exec_gateListStart_eq p r s) h hact rfl ((KeepsRings.composeFirst p).trans (.onGate _ _))

theorem gateListStop_completes (hg : s.gateOf p (entryObject e) = some g) (h : Ready s p r 0x5B e false [] (gateObject e))
    (hstate : g.state = .armed ∨ g.state = .running) :
    Completes p r (.gateListStop p r) (replyOk 0) s
      (((s.atRing p r).composeFirst p).onGate (entryObject e) fun g => { g with state := .idle }) := by
  have hlegal : (g.reached s.now).state ∈ [GateState.armed, .running] := by simpa using GateList.reached_started hstate
  exact ringCmd_completes_of_keeps (exec_gateListStop_eq p r s) h (onNamedGate_of_held (s := s.atRing p r) hg hlegal) rfl
    ((KeepsRings.composeFirst p).trans (.onGate _ _))

theorem gateListDestroy_completes (hg : s.gateOf p (entryObject e) = some g) (h : Ready s p r 0x5C e false [] (gateObject e))
    (hidle : g.state = .idle) :
    let t := (s.atRing p r).composeFirst p
    Completes p r (.gateListDestroy p r) (replyOk 0) s { t with gates := tblErase t.gates (entryObject e) } :=
  ringCmd_completes_of_keeps (exec_gateListDestroy_eq p r s) h
    (onNamedGate_of_idle (s := s.atRing p r) hg hidle) rfl
    ((KeepsRings.composeFirst p).trans (.of_parts rfl rfl))

end Commands

/-! ### The run of a list, and its times (R174, R239, R262) -/

/-- A change of list i answers a state that differs in that list alone. -/
theorem exec_onGate {c : Instr} {i : Nat} {f : GateList → GateList} {g : GateList} (hexec : exec c s = .next (s.onGate i f))
    (hg : s.gate i = some g) :
    ∃ t, exec c s = .next t ∧ t.gate i = some (f g) ∧ (∀ j, j ≠ i → t.gate j = s.gate j) ∧ t = { s with gates := t.gates } :=
  ⟨_, hexec, by rw [s.gate_onGate_same i f, hg]; rfl, fun j hj => s.gate_onGate_other i j f hj, s.onGate_beside i f⟩

theorem gateBaseReached_runs {i : GateId} {g : GateList} (hg : s.gate i = some g) (harmed : g.state = .armed) (hbase : g.base ≤ s.now) :
    ∃ t, exec (.gateBaseReached i) s = .next t ∧ t.gate i = some { g with state := .running } ∧ (∀ j, j ≠ i.val → t.gate j = s.gate j) ∧
      t = { s with gates := t.gates } := by
  have hreached : g.reached s.now = { g with state := .running } := if_pos ⟨harmed, hbase⟩
  rw [← hreached]
  exact exec_onGate (f := (·.reached s.now)) rfl hg

/-- The entry that follows in a running list whose next entry is due. -/
def GateList.advanced (now : Nat) (g : GateList) : GateList :=
  if g.state = .running ∧ (g.nextDue.map fun t => decide (t ≤ now)).getD false then
    (if g.next + 1 < g.count then { g with next := g.next + 1 } else { g with next := 0, rep := g.rep + 1 })
  else g

theorem GateList.nextDue_of {g : GateList} {e : GateEntry} (hstate : g.state ≠ .idle) (he : tblFind g.entries g.next = some e) :
    g.nextDue = some (g.base + g.rep * g.cycle + e.offset) := by
  unfold GateList.nextDue
  rw [if_neg hstate, he]
  rfl

theorem gateEntryDue_advances {i : GateId} {g : GateList} {e : GateEntry} (hg : s.gate i = some g) (hrunning : g.state = .running)
    (he : tblFind g.entries g.next = some e) (hdue : g.base + g.rep * g.cycle + e.offset ≤ s.now) :
    ∃ t, exec (.gateEntryDue i) s = .next t ∧
      t.gate i = some (if g.next + 1 < g.count then { g with next := g.next + 1 } else { g with next := 0, rep := g.rep + 1 }) ∧
      (∀ j, j ≠ i.val → t.gate j = s.gate j) ∧ t = { s with gates := t.gates } := by
  have hnext : g.nextDue = some (g.base + g.rep * g.cycle + e.offset) := GateList.nextDue_of (by rw [hrunning]; decide) he
  have hadvanced : g.advanced s.now = if g.next + 1 < g.count then { g with next := g.next + 1 } else { g with next := 0, rep := g.rep + 1 } :=
    if_pos ⟨hrunning, by rw [hnext]; exact decide_eq_true hdue⟩
  rw [← hadvanced]
  exact exec_onGate (f := GateList.advanced s.now) rfl hg

theorem State.part_emit_same (s : State) (p : Nat) (o : Output) (ho : o.port = some p) (h : tblRising s.parts = true) :
    (s.emit o).part p = { s.part p with inL1 := false, idleTick := s.tick, aer := (s.part p).aer.note o } := by
  unfold State.emit
  rw [ho]
  exact State.part_onPart_same _ p _ h

theorem State.part_emit_other (s : State) (p q : Nat) (o : Output) (ho : o.port = some p) (h : q ≠ p) : (s.emit o).part q = s.part q := by
  unfold State.emit
  rw [ho]
  exact State.part_onPart_other _ p q _ h

/-- What a read of a lower half of a GATE time leaves: the upper half is latched, and the lower half is answered. -/
theorem State.latchGate_emit (s : State) (p : PartId) (next : Bool) (v : Nat) (h : tblRising s.parts = true) :
    let t := (s.latchGate p p next v).emit (.regData (.host p) (BitVec.ofNat 32 v))
    t.out = s.out ++ [.regData (.host p) (BitVec.ofNat 32 v)] ∧ t.gates = s.gates ∧ (∀ q, q ≠ p.val → t.part q = s.part q) ∧
      (if next then (t.part p).gateNextHi = tblSet 0 (s.part p).gateNextHi p (BitVec.ofNat 32 (v / 2 ^ 32))
       else (t.part p).gateBaseHi = tblSet 0 (s.part p).gateBaseHi p (BitVec.ofNat 32 (v / 2 ^ 32))) := by
  have hlatched : tblRising (s.latchGate p p next v).parts = true := s.rising_onPart p _ h
  intro t
  refine ⟨State.emit_out _ _, State.emit_gates _ _, fun q hq => ?_, ?_⟩
  · exact (State.part_emit_other _ p q _ rfl hq).trans (s.part_onPart_other p q _ hq)
  · rw [State.part_emit_same _ p _ rfl hlatched, State.latchGate, s.part_onPart_same p _ h]
    cases next <;> rfl

theorem State.barRead_of_open {s : State} {p : Nat} {ok : State → Res} (hopen : s.hostOpen p = true) (hheld : s.linkHeld p true = false) :
    s.barRead p ok = ok s := by
  unfold State.barRead
  rw [if_neg (by rw [hheld]; exact Bool.false_ne_true), if_pos hopen]

theorem gateBaseLoRead_latches {p : PartId} {g : GateList} (hr : s.Rising) (hopen : s.hostOpen p = true) (hheld : s.linkHeld p true = false)
    (hg : s.gateOf p (s.part p).gateSel.toNat = some g) (hhi : tblRising (s.part p).gateBaseHi = true) :
    ∃ t, exec (.gateBaseLoRead p) s = .next t ∧ t.out = s.out ++ [.regData (.host p) (BitVec.ofNat 32 g.base)] ∧
      tblGet 0 (t.part p).gateBaseHi p = BitVec.ofNat 32 (g.base / 2 ^ 32) ∧ t.gates = s.gates ∧ ∀ q, q ≠ p.val → t.part q = s.part q := by
  obtain ⟨hout, hgates, hothers, hlatch⟩ := s.latchGate_emit p false g.base hr.1
  refine ⟨_, ?_, hout, ?_, hgates, hothers⟩
  · rw [exec_gateBaseLoRead]
    unfold execGateBaseLoRead State.shownGate
    rw [State.barRead_of_open hopen hheld, hg]
    rfl
  · exact (congrArg (tblGet 0 · p) hlatch).trans (tblGet_set_same _ _ _ _ hhi)

theorem gateNextLoRead_latches {p : PartId} {g : GateList} {e : GateEntry} (hr : s.Rising) (hopen : s.hostOpen p = true)
    (hheld : s.linkHeld p true = false) (hg : s.gateOf p (s.part p).gateSel.toNat = some g) (hhi : tblRising (s.part p).gateNextHi = true)
    (hstate : g.state ≠ .idle) (he : tblFind g.entries g.next = some e) :
    let due := g.base + g.rep * g.cycle + e.offset
    ∃ t, exec (.gateNextLoRead p) s = .next t ∧ t.out = s.out ++ [.regData (.host p) (BitVec.ofNat 32 due)] ∧
      tblGet 0 (t.part p).gateNextHi p = BitVec.ofNat 32 (due / 2 ^ 32) ∧ t.gates = s.gates ∧ ∀ q, q ≠ p.val → t.part q = s.part q := by
  intro due
  obtain ⟨hout, hgates, hothers, hlatch⟩ := s.latchGate_emit p true due hr.1
  refine ⟨_, ?_, hout, ?_, hgates, hothers⟩
  · rw [exec_gateNextLoRead]
    unfold execGateNextLoRead State.shownGate
    rw [State.barRead_of_open hopen hheld, hg]
    simp only [Option.bind_some, GateList.nextDue_of hstate he]
    rfl
  · exact (congrArg (tblGet 0 · p) hlatch).trans (tblGet_set_same _ _ _ _ hhi)

/-- Settles O17: the commands act on the list as its base has found it, and a run and a read change that list or its latch alone. -/
theorem gateListsAreCommandedAndRun : Obligations.GateListsAreCommandedAndRun := by
  refine ⟨?commands, ?runs⟩
  case commands =>
    intro p r s e g k u hg first
    exact ⟨gateListWrite_completes hg, gateListStart_completes hg, gateListStop_completes hg, gateListDestroy_completes hg⟩
  case runs =>
    intro i p s g hr hg
    exact ⟨gateBaseReached_runs hg, fun e => gateEntryDue_advances hg, fun hopen hheld hshown hbase hnext =>
      ⟨gateBaseLoRead_latches hr hopen hheld hshown hbase, fun e => gateNextLoRead_latches hr hopen hheld hshown hnext⟩⟩

end Sys2Proof.Machine
end

section
/-! Window commands complete with their effects, and overlapping windows are never enabled (O14). -/

namespace Sys2Proof.Machine

open Sys2Proof

variable {s m : State}

/-- A command at its turn whose meaning waits with an effect beside the rings holds its ring. -/
theorem ringCmd_holds_of_keeps {i : Instr} {p r op : Nat} {ring0 : Bool} {layout : List (Nat × Nat)} {bad : BitVec 512 → List (Bool × Nat)}
    {act : State → BitVec 512 → CmdOut} {e : BitVec 512} {w : Wait} (hi : exec i s = ringCmd s p r op ring0 layout bad act)
    (h : Ready s p r op e ring0 layout (bad e)) (ha : act (s.atRing p r) e = .hold w m) (hm : KeepsRings (s.atRing p r) m) :
    Holds p r i w s m := by
  obtain ⟨-, -, -, ⟨hparts, -⟩, hbells⟩ := id h
  exact ringCmd_holds s m i p r op ring0 layout bad act e w hi h ha (hm.rising (s.rising_atRing p r hparts)) (hm.bells hbells)

/-! ### Windows of a partition -/

theorem KeepsRings.onBridge (p : Nat) (f : Bridge → Bridge) : KeepsRings s (s.onBridge p f) := .onPart p _ fun _ => rfl

theorem KeepsRings.onWin (p w : Nat) (f : Window → Window) : KeepsRings s (s.onWin p w f) := .onBridge p _

theorem KeepsRings.invalidate (p w : Nat) : KeepsRings s (s.invalidate p w) :=
  .of_spares (Spares.invalidate deaf_ringsOf s p w fun _ => rfl)

theorem State.bridge_atRing (s : State) (p r : Nat) (h : tblRising s.parts = true) : (s.atRing p r).bridge p = s.bridge p := by
  unfold State.bridge
  rw [s.part_atRing p r h]

theorem State.win_atRing (s : State) (p r k : Nat) (h : tblRising s.parts = true) : (s.atRing p r).win p k = s.win p k := by
  unfold State.win
  rw [s.bridge_atRing p r h]

theorem State.windowBusy_atRing (s : State) (p r k : Nat) (h : tblRising s.parts = true) : (s.atRing p r).windowBusy p k = s.windowBusy p k := by
  unfold State.windowBusy
  rw [s.bridge_atRing p r h]
  rfl

theorem State.win_onWin_same (s : State) (p k : Nat) (f : Window → Window) (h : tblRising s.parts = true) :
    (s.onWin p k f).win p k = (s.win p k).map f := by
  unfold State.win State.onWin
  rw [s.bridge_onBridge_same p _ h]
  split
  · next w hw =>
    rw [hw]
    exact tblFind_put_same _ _ _
  · next hw => rw [hw]; rfl

theorem State.signalUnit_win (s : State) (p n q k : Nat) (hb : s.bellsPass = true) : (s.signalUnit p n).win q k = s.win q k := by
  rw [State.signalUnit, (EvcOnly.signal _ s hb).frame]
  rfl

/-- A window whose prefetched data is given up is still there. -/
theorem State.win_invalidate (s : State) (p k : Nat) (h : tblRising s.parts = true) (hb : s.bellsPass = true) (hwin : (s.win p k).isSome) :
    ((s.invalidate p k).win p k).isSome := by
  have hchanged (f : Window → Window) : ((s.onWin p k f).win p k).isSome := by
    rw [s.win_onWin_same p k f h]
    simpa using hwin
  unfold State.invalidate
  split
  · exact hwin
  · dsimp only
    split
    · exact (congrArg Option.isSome (State.signalUnit_win (s.onWin p k _) p 16 p k hb)).trans (hchanged _)
    · exact hchanged _

/-! ### What the commands do at their turns -/

/-- What WINDOW_CREATE does at its turn. -/
def windowCreateAct (p : Nat) (s : State) (e : BitVec 512) : CmdOut :=
  let k := entryObject e
  checked s [((s.win p k).map fun w => replyConflict typeWindow w.state.code k),
             failIf (s.windowBusy p k) (replyConflict typeWindow WinState.draining.code k)]
    (.reply (replyOk 0) (s.onBridge p fun b =>
      { b with windows := tblPut b.windows k { guest := entryField e 0x10 0 1 == 1 } }))

/-- The window that WINDOW_SET's entry describes, on the window as created. -/
def setWindow (e : BitVec 512) (w : Window) : Window :=
  { w with isSet := true, haddr := BitVec.ofNat 64 (entryField e 0x10 0 64), sizeLog2 := winSize e, cbase := winCbase e,
           swap := BitVec.ofNat 2 (entryField e 0x1C 27 2), prefetch := winPrefetch e, force := winForce e, hold := winHold e,
           drop := winDrop e % 32, seg := winDrop e / 32, failCnt := 0, pfSuspended := false }

/-- What WINDOW_SET does at its turn. -/
def windowSetAct (p : Nat) (s : State) (e : BitVec 512) : CmdOut :=
  let k := entryObject e
  let g := winDrop e
  match s.win p k with
  | none => .reply replyNotOwner s
  | some w =>
    let onHost := fun (x : Option Reply) => if w.guest then none else x
    checked s [onHost (ownDrop s p g), onHost (notRetired s g), failIf (w.state != .disabled) (replyConflict typeWindow w.state.code k),
               onHost (dropPresent s g)]
      (.reply (replyOk 0) (s.onWin p k (setWindow e)))

/-- What WINDOW_ENABLE does at its turn. -/
def windowEnableAct (p : Nat) (s : State) (e : BitVec 512) : CmdOut :=
  onNamedWindow s p e .disabled fun i w =>
    let other := (s.bridge p).windows.find? fun x => x.1 != i && x.2.state != .disabled && x.2.overlaps w
    checked s [failIf (!w.isSet) (replyConflict typeWindow w.state.code i),
               other.map fun x => replyConflict typeWindow x.2.state.code x.1]
      (.reply (replyOk 0) (s.onWin p i fun w => { w with state := .enabled }))

/-- What WINDOW_DISABLE does at its turn. -/
def windowDisableAct (p : Nat) (s : State) (e : BitVec 512) : CmdOut :=
  onNamedWindow s p e .enabled fun i _ =>
    let s := (s.invalidate p i).onWin p i fun w => { w with state := .draining }
    if s.windowBusy p i then .hold (.drain i) s else .reply (replyOk 0) (s.drainedWindow p i)

/-- What WINDOW_DESTROY does at its turn. -/
def windowDestroyAct (p : Nat) (s : State) (e : BitVec 512) : CmdOut :=
  onNamedWindow s p e .disabled fun i _ =>
    .reply (replyOk 0) (s.onBridge p fun b => { b with windows := tblErase b.windows i })

theorem exec_windowCreate_eq (p : PartId) (r : RingId) (s : State) :
    exec (.windowCreate p r) s = ringCmd s p r 0x40 false [(bitPos 0x10 0, 1)] windowObject (windowCreateAct p) := rfl

theorem exec_windowSet_eq (p : PartId) (r : RingId) (s : State) :
    exec (.windowSet p r) s = ringCmd s p r 0x41 false windowLayout (windowChecks s p) (windowSetAct p) := rfl

theorem exec_windowEnable_eq (p : PartId) (r : RingId) (s : State) :
    exec (.windowEnable p r) s = ringCmd s p r 0x42 false [] windowObject (windowEnableAct p) := rfl

theorem exec_windowDisable_eq (p : PartId) (r : RingId) (s : State) :
    exec (.windowDisable p r) s = ringCmd s p r 0x43 false [] windowObject (windowDisableAct p) := rfl

theorem exec_windowDestroy_eq (p : PartId) (r : RingId) (s : State) :
    exec (.windowDestroy p r) s = ringCmd s p r 0x44 false [] windowObject (windowDestroyAct p) := rfl

theorem onNamedWindow_of_state {p : Nat} {e : BitVec 512} {legal : WinState} {f : Nat → Window → CmdOut} {w : Window}
    (hw : s.win p (entryObject e) = some w) (hstate : w.state = legal) : onNamedWindow s p e legal f = f (entryObject e) w := by
  unfold onNamedWindow
  dsimp only
  rw [hw]
  exact if_pos hstate

/-! ### The commands complete -/

section Commands

variable {p : PartId} {r : RingId} {e : BitVec 512} {w : Window}

theorem windowCreate_completes (h : Ready s p r 0x40 e false [(bitPos 0x10 0, 1)] (windowObject e)) (hnone : s.win p (entryObject e) = none)
    (hbusy : s.windowBusy p (entryObject e) = false) :
    Completes p r (.windowCreate p r) (replyOk 0) s ((s.atRing p r).onBridge p fun b =>
      { b with windows := tblPut b.windows (entryObject e) { guest := entryField e 0x10 0 1 == 1 } }) := by
  have hparts := h.2.2.2.1.1
  refine ringCmd_completes_of_keeps (exec_windowCreate_eq p r s) h (checked_of_pass (firstFail_cons ?_ (firstFail_cons (failIf_of_false ?_) rfl)))
    rfl (.onBridge p _)
  · rw [s.win_atRing p r _ hparts, hnone]
    rfl
  · rw [s.windowBusy_atRing p r _ hparts, hbusy]

theorem windowSet_completes (h : Ready s p r 0x41 e false windowLayout (windowChecks s p e)) (hw : s.win p (entryObject e) = some w)
    (hstate : w.state = .disabled)
    (hdrop : w.guest = true ∨ (s.owns p (winDrop e) = true ∧ (s.dropState (winDrop e) = .active ∨ s.dropState (winDrop e) = .fallback))) :
    Completes p r (.windowSet p r) (replyOk 0) s ((s.atRing p r).onWin p (entryObject e) (setWindow e)) := by
  have hat : (s.atRing p r).win p (entryObject e) = some w := (s.win_atRing p r _ h.2.2.2.1.1).trans hw
  have honHost (x : Option Reply) (hx : w.guest = true ∨ x = none) : (if w.guest = true then none else x) = none := by
    rcases hx with hguest | hnone
    · rw [if_pos hguest]
    · rw [hnone, ite_self]
  have hown : w.guest = true ∨ ownDrop (s.atRing p r) p (winDrop e) = none := hdrop.imp id fun hd =>
    failIf_of_false (by rw [show (s.atRing p r).owns p (winDrop e) = true from hd.1]; rfl)
  have hlive : w.guest = true ∨ notRetired (s.atRing p r) (winDrop e) = none := hdrop.imp id fun hd =>
    failIf_of_false (by rcases hd.2 with hd | hd <;> rw [show (s.atRing p r).dropState (winDrop e) = _ from hd] <;> rfl)
  have hpresent : w.guest = true ∨ dropPresent (s.atRing p r) (winDrop e) = none := hdrop.imp id fun hd =>
    failIf_of_false (by rcases hd.2 with hd | hd <;> rw [show (s.atRing p r).dropState (winDrop e) = _ from hd] <;> rfl)
  have hact : windowSetAct p (s.atRing p r) e = .reply (replyOk 0) ((s.atRing p r).onWin p (entryObject e) (setWindow e)) := by
    unfold windowSetAct
    dsimp only
    rw [hat]
    exact checked_of_pass (firstFail_cons (honHost _ hown) (firstFail_cons (honHost _ hlive)
      (firstFail_cons (failIf_of_false (bne_eq_false_iff_eq.2 hstate)) (firstFail_cons (honHost _ hpresent) rfl))))
  exact ringCmd_completes_of_keeps (exec_windowSet_eq p r s) h hact rfl (.onWin p _ _)

theorem windowEnable_completes (h : Ready s p r 0x42 e false [] (windowObject e)) (hw : s.win p (entryObject e) = some w)
    (hstate : w.state = .disabled) (hset : w.isSet = true)
    (hfree : ((s.bridge p).windows.find? fun x => x.1 != entryObject e && x.2.state != .disabled && x.2.overlaps w) = none) :
    Completes p r (.windowEnable p r) (replyOk 0) s ((s.atRing p r).onWin p (entryObject e) fun w => { w with state := .enabled }) := by
  have hparts := h.2.2.2.1.1
  have hact : windowEnableAct p (s.atRing p r) e =
      .reply (replyOk 0) ((s.atRing p r).onWin p (entryObject e) fun w => { w with state := .enabled }) := by
    refine (onNamedWindow_of_state ((s.win_atRing p r _ hparts).trans hw) hstate).trans (checked_of_pass
      (firstFail_cons (failIf_of_false (by rw [hset]; rfl)) (firstFail_cons ?_ rfl)))
    rw [s.bridge_atRing p r hparts, hfree]
    rfl
  exact ringCmd_completes_of_keeps (exec_windowEnable_eq p r s) h hact rfl (.onWin p _ _)

/-- WINDOW_ENABLE of a window that overlaps another is refused with the other as the conflict. -/
theorem windowEnable_conflicts {v : Window} {j : Nat} (h : Ready s p r 0x42 e false [] (windowObject e)) (hw : s.win p (entryObject e) = some w)
    (hstate : w.state = .disabled) (hset : w.isSet = true)
    (hother : ((s.bridge p).windows.find? fun x => x.1 != entryObject e && x.2.state != .disabled && x.2.overlaps w) = some (j, v)) :
    exec (.windowEnable p r) s =
      .next (((s.atRing p r).complete p r { status := 1, detail := 0x0500 + v.state.code, res0 := j } s.now).settleRings p) := by
  have hparts := h.2.2.2.1.1
  have hact : windowEnableAct p (s.atRing p r) e = .reply (replyConflict typeWindow v.state.code j) (s.atRing p r) := by
    refine (onNamedWindow_of_state ((s.win_atRing p r _ hparts).trans hw) hstate).trans ?_
    dsimp only
    rw [s.bridge_atRing p r hparts, hother, hset]
    rfl
  rw [exec_windowEnable_eq, ringCmd_eq s p r 0x42 false [] windowObject _ e h, hact]
  rfl

theorem windowDisable_drains (h : Ready s p r 0x43 e false [] (windowObject e)) (hw : s.win p (entryObject e) = some w)
    (hstate : w.state = .enabled) :
    let k := entryObject e
    let m := ((s.atRing p r).invalidate p k).onWin p k fun w => { w with state := .draining }
    (m.windowBusy p k = false → Completes p r (.windowDisable p r) (replyOk 0) s (m.drainedWindow p k) ∧
      ((m.drainedWindow p k).win p k).map (·.state) = some .disabled) ∧
    (m.windowBusy p k = true → Holds p r (.windowDisable p r) (.drain k) s m ∧ (m.win p k).map (·.state) = some .draining) := by
  intro k m
  obtain ⟨-, -, -, ⟨hparts, -⟩, hbells⟩ := id h
  have hat := s.rising_atRing p r hparts
  have hwat : (s.atRing p r).win p k = some w := (s.win_atRing p r k hparts).trans hw
  have hinvalid : KeepsRings (s.atRing p r) ((s.atRing p r).invalidate p k) := .invalidate p k
  have hkeeps : KeepsRings (s.atRing p r) m := hinvalid.trans (.onWin p k _)
  obtain ⟨x, hx⟩ := Option.isSome_iff_exists.1 (State.win_invalidate _ p k hat hbells (by rw [hwat]; rfl))
  have hdraining : m.win p k = some { x with state := .draining } := by
    rw [State.win_onWin_same _ p k _ (hinvalid.rising hat), hx]
    rfl
  have hnamed : windowDisableAct p (s.atRing p r) e =
      if m.windowBusy p k = true then .hold (.drain k) m else .reply (replyOk 0) (m.drainedWindow p k) :=
    onNamedWindow_of_state hwat hstate
  constructor
  · intro hidle
    refine ⟨ringCmd_completes_of_keeps (exec_windowDisable_eq p r s) h (hnamed.trans (if_neg (by rw [hidle]; exact Bool.false_ne_true))) rfl
      (hkeeps.trans (.onWin p k _)), ?_⟩
    unfold State.drainedWindow
    rw [State.win_onWin_same _ p k _ (hkeeps.rising hat), hdraining]
    rfl
  · intro hbusy
    exact ⟨ringCmd_holds_of_keeps (exec_windowDisable_eq p r s) h (hnamed.trans (if_pos hbusy)) hkeeps, by rw [hdraining]; rfl⟩

theorem windowDestroy_completes (h : Ready s p r 0x44 e false [] (windowObject e)) (hw : s.win p (entryObject e) = some w)
    (hstate : w.state = .disabled) :
    Completes p r (.windowDestroy p r) (replyOk 0) s ((s.atRing p r).onBridge p fun b =>
      { b with windows := tblErase b.windows (entryObject e) }) :=
  ringCmd_completes_of_keeps (exec_windowDestroy_eq p r s) h
    (onNamedWindow_of_state ((s.win_atRing p r _ h.2.2.2.1.1).trans hw) hstate) rfl (.onBridge p _)

end Commands

/-- Settles O14: each command's checks pass on the window it names, and its effect is beside the rings. -/
theorem windowsAreSetAndNeverOverlap : Obligations.WindowsAreSetAndNeverOverlap :=
  ⟨fun _ _ _ _ => ⟨windowCreate_completes, fun _ => windowSet_completes, fun _ => windowEnable_completes, fun _ => windowDisable_drains,
    fun _ => windowDestroy_completes⟩, fun _ _ _ _ _ _ _ => windowEnable_conflicts⟩

end Sys2Proof.Machine
end

section
/-! WRITE_FENCE and WINDOW_DISABLE wait for what they cover (O15). -/

namespace Sys2Proof.Machine

open Sys2Proof

variable {s : State} {p : PartId} {r : RingId}

theorem KeepsRings.clearFence (p : Nat) : KeepsRings s (s.clearFence p) := .onBridge p _

/-- The number of the first item that came after the doorbell of ring r's oldest command. -/
def State.fenceMark (s : State) (p r : Nat) : Nat :=
  tblGet s.nextId (s.ring p r).announced (((s.ring p r).fetched.map (·.index)).headD 0)

/-- What WRITE_FENCE does at its turn. -/
def writeFenceAct (p r : Nat) (s : State) (_ : BitVec 512) : CmdOut :=
  match s.postedBefore p (s.fenceMark p r) with
  | [] => .reply (s.fenceReply p) (s.clearFence p)
  | ids => .hold (.fence ids) s

theorem exec_writeFence_eq (p : PartId) (r : RingId) (s : State) :
    exec (.writeFence p r) s = ringCmd s p r 0x45 false [] (fun e => [objectCheck e 0 0]) (writeFenceAct p r) := rfl

theorem State.fenceMark_atRing (s : State) (p r : Nat) (h : tblRising s.parts = true) : (s.atRing p r).fenceMark p r = s.fenceMark p r := by
  unfold State.fenceMark
  rw [s.ring_atRing p r r h]
  rfl

theorem State.postedBefore_atRing (s : State) (p r n : Nat) (h : tblRising s.parts = true) : (s.atRing p r).postedBefore p n = s.postedBefore p n := by
  unfold State.postedBefore
  rw [s.bridge_atRing p r h]

theorem State.fenceReply_atRing (s : State) (p r : Nat) (h : tblRising s.parts = true) : (s.atRing p r).fenceReply p = s.fenceReply p := by
  unfold State.fenceReply
  rw [s.bridge_atRing p r h, s.part_atRing p r h]

theorem State.fenceReply_status (s : State) (p : Nat) : (s.fenceReply p).status = 0 := by
  unfold State.fenceReply
  split <;> rfl

theorem writeFence_completes {e : BitVec 512} (h : Ready s p r 0x45 e false [] [objectCheck e 0 0])
    (hnone : s.postedBefore p (s.fenceMark p r) = []) :
    Completes p r (.writeFence p r) (s.fenceReply p) s ((s.atRing p r).onBridge p fun b => { b with fenceSeqs := [] }) := by
  have hparts := h.2.2.2.1.1
  have hact : writeFenceAct p r (s.atRing p r) e = .reply (s.fenceReply p) ((s.atRing p r).clearFence p) := by
    unfold writeFenceAct
    rw [s.fenceMark_atRing p r hparts, s.postedBefore_atRing p r _ hparts, hnone, s.fenceReply_atRing p r hparts]
  exact ringCmd_completes_of_keeps (exec_writeFence_eq p r s) h hact (s.fenceReply_status p) (.clearFence p)

theorem writeFence_holds {e : BitVec 512} (h : Ready s p r 0x45 e false [] [objectCheck e 0 0])
    (hsome : s.postedBefore p (s.fenceMark p r) ≠ []) :
    Holds p r (.writeFence p r) (.fence (s.postedBefore p (s.fenceMark p r))) s (s.atRing p r) := by
  have hparts := h.2.2.2.1.1
  have hact : writeFenceAct p r (s.atRing p r) e = .hold (.fence (s.postedBefore p (s.fenceMark p r))) (s.atRing p r) := by
    unfold writeFenceAct
    rw [s.fenceMark_atRing p r hparts, s.postedBefore_atRing p r _ hparts]
    split
    · next hnone => exact absurd hnone hsome
    · rfl
  exact ringCmd_holds_of_keeps (exec_writeFence_eq p r s) h hact .same

theorem exec_windowDrained_waiting {w : Nat} (h : (s.ring p r).wait = some (.drain w)) :
    exec (.windowDrained p r) s = .next (if s.windowBusy p w then s
      else (s.onWin p w fun x => { x with state := .disabled }).endWait p r (replyOk 0)) := by
  rw [exec_windowDrained]
  unfold execWindowDrained
  rw [h]
  exact (apply_ite Host.Outcome.next _ _ _).symm

theorem exec_writeFenceHolds_waiting {ids : List Nat} (h : (s.ring p r).wait = some (.fence ids)) :
    exec (.writeFenceHolds p r) s = .next (if ids.any fun i => (s.item p i).isSome then s
      else (s.onBridge p fun b => { b with fenceSeqs := [] }).endWait p r (s.fenceReply p)) := by
  rw [exec_writeFenceHolds]
  unfold execWriteFenceHolds
  rw [h]
  exact (apply_ite Host.Outcome.next _ _ _).symm

/-- Settles O15: what a fence covers is there at its turn or is waited for, and the two waits end once nothing is left of it. -/
theorem fencesAndDrainsWait : Obligations.FencesAndDrainsWait :=
  ⟨fun _ _ _ _ h => ⟨writeFence_completes h, writeFence_holds h⟩,
    fun _ _ _ => ⟨fun _ => exec_windowDrained_waiting, fun _ => exec_writeFenceHolds_waiting⟩⟩

end Sys2Proof.Machine
end

section
/-! STREAM_STOP need not complete where a partition's ring table names a ring twice (O7). -/

namespace Sys2Proof.Machine

open Sys2Proof

/-- STREAM_STOP of stream 0. -/
def stopEntry : BitVec 512 := 0x13

/-- The stream it stops, in unit slot 0. -/
def stoppedStream : Stream := { newStream 0 (0 : BitVec 512) with state := .running }

/-- Partition 0 holds STREAM_STOP on ring 0, and its table names ring 0 a second time, with a feed that waits for the stream's input space. Nothing
that `State.Rising` says keeps a ring from standing twice in a partition's table. -/
def doubledRing : State :=
  { State.reset with
    streams := [(0, stoppedStream)],
    parts := [(0, { session := .opened,
                    rings := [(0, { state := .active, fetched := [{ index := 0, entry := stopEntry }] }),
                              (0, { state := .active, wait := some (.feedSpace 0 1) })] })] }

theorem doubledRing_ready : Ready doubledRing (0 : PartId) (0 : RingId) 0x13 stopEntry false [] (streamObject stopEntry) := by
  refine ⟨by decide +kernel, by decide +kernel, by decide +kernel, ?_, by decide +kernel⟩
  exact ⟨rfl, rfl, rfl, rfl, rfl, rfl, rfl, rfl, rfl, rfl, rfl, rfl⟩

/-- The abort of the feed that waits completes the oldest command of ring 0, STREAM_STOP itself, and leaves the ring empty. -/
theorem doubledRing_stopped_fetched :
    ((((doubledRing.atRing 0 0).composeFirst 0).onStream 0 (·.stopped)).abortFeeds 0 |>.ring 0 0).fetched = [] := by
  decide +kernel

/-- Refutes O7: where ring 0 stands twice in the table, the second time with a feed that waits, STREAM_STOP's abort of that feed answers STREAM_STOP
ABORTED, and no command is left for the answer OK. -/
theorem not_streamsAreCreatedStartedAndEnded : ¬ Obligations.StreamsAreCreatedStartedAndEnded := by
  unfold Obligations.StreamsAreCreatedStartedAndEnded
  intro ⟨_, hnamed⟩
  obtain ⟨-, hstop, -⟩ := hnamed 0 0 doubledRing stopEntry 0 stoppedStream (by decide +kernel) rfl
  obtain ⟨⟨t, -, -, c, rest, hfetched, -⟩, -⟩ := hstop doubledRing_ready (.inl rfl)
  cases doubledRing_stopped_fetched.symm.trans hfetched

end Sys2Proof.Machine
end

section
/-! STREAM_FEED waits or reads, and a command whose reads have ended goes on (O8). -/

namespace Sys2Proof.Machine

open Sys2Proof

variable {s m u : State} {p : PartId} {r : RingId}

/-! ### The reads of a command -/

theorem State.startRequest_nextId (s : State) (p : Nat) (w : DmaFor) (read a n : Nat) (keep : Bool) :
    (s.startRequest p w read a n keep).nextId = s.nextId + 1 := by
  rcases s.startRequest_eq p w read a n keep with heq | heq <;> rw [heq]
  · exact State.emit_nextId _ _
  · rfl

theorem State.foldl_startRequest_nextId (s : State) (p : Nat) (w : DmaFor) (read : Nat) (l : List ((Nat × Nat) × Bool)) :
    (l.foldl (fun s x => s.startRequest p w read x.1.1 x.1.2 x.2) s).nextId = s.nextId + l.length := by
  induction l generalizing s with
  | nil => rfl
  | cons x l ih =>
    rw [List.foldl_cons, ih, State.startRequest_nextId, List.length_cons]
    omega

theorem State.startRead_nextId (s : State) (p : Nat) (w : DmaFor) (a n : Nat) :
    (s.startRead p w a n).nextId = s.nextId + (s.requestsFor p a n).length := by
  unfold State.startRead State.startReads
  dsimp only
  rw [State.foldl_startRequest_nextId]
  simp

theorem State.requestsFor_congr {s t : State} {p : Nat} (h : (t.part p).dev = (s.part p).dev) (a n : Nat) :
    t.requestsFor p a n = s.requestsFor p a n := by
  unfold State.requestsFor
  rw [h]

theorem State.readNumbers_congr {s t : State} {p : Nat} (h : (t.part p).dev = (s.part p).dev) (n : Nat) (l : List (Nat × Nat)) :
    t.readNumbers p n l = s.readNumbers p n l := by
  induction l generalizing n with
  | nil => rfl
  | cons x l ih =>
    unfold State.readNumbers
    rw [State.requestsFor_congr h, ih]

theorem RingStep.dev {p : Nat} {s t : State} (h : RingStep p s t) : (t.part p).dev = (s.part p).dev := by
  rw [h.only.2.2.1]

/-- One command read of a fold over its ranges: its number is noted, and its requests begin. -/
def State.readNext (p r : Nat) (a : List Nat × State) (x : Nat × Nat) : List Nat × State :=
  (a.1 ++ [a.2.nextId], a.2.startRead p (.command p r) x.1 x.2)

theorem State.foldl_readNext (s : State) (p r : Nat) (l : List (Nat × Nat)) (k : List Nat) (h : tblRising s.parts = true) :
    (l.foldl (State.readNext p r) (k, s)).1 = k ++ s.readNumbers p s.nextId l ∧ RingStep p s (l.foldl (State.readNext p r) (k, s)).2 := by
  induction l generalizing s k with
  | nil => exact ⟨(List.append_nil k).symm, RingStep.rfl' p s h⟩
  | cons x l ih =>
    have hread := RingStep.startRead p s (.command p r) x.1 x.2 h
    obtain ⟨hnumbers, hstep⟩ := ih (s.startRead p (.command p r) x.1 x.2) (k ++ [s.nextId]) hread.rising
    refine ⟨hnumbers.trans ?_, hread.trans hstep⟩
    rw [State.readNumbers_congr hread.dev, State.startRead_nextId, List.append_assoc]
    rfl

/-- Where DMA may run, the reads of a command begin, and the ring waits for their numbers. -/
theorem State.startCmdReads_ok (s : State) (p r : Nat) (l : List (Nat × Nat)) (h : tblRising s.parts = true) (hok : (s.part p).dmaOk = true) :
    (s.startCmdReads p r l).1 = .reads (s.readNumbers p s.nextId l) [] false ∧ RingStep p s (s.startCmdReads p r l).2 := by
  have heq : s.startCmdReads p r l =
      (.reads (l.foldl (State.readNext p r) ([], s)).1 [] false, (l.foldl (State.readNext p r) ([], s)).2) := by
    unfold State.startCmdReads
    rw [if_pos hok]
    rfl
  obtain ⟨hnumbers, hstep⟩ := s.foldl_readNext p r l [] h
  rw [heq]
  exact ⟨by rw [hnumbers]; rfl, hstep⟩

/-! ### Waits -/

/-- A command at its turn waits where its effect is m, with ring steps after it. -/
theorem ringCmd_holds_of_step {i : Instr} {op : Nat} {ring0 : Bool} {layout : List (Nat × Nat)} {bad : BitVec 512 → List (Bool × Nat)}
    {act : State → BitVec 512 → CmdOut} {e : BitVec 512} {w : Wait} (hi : exec i s = ringCmd s p r op ring0 layout bad act)
    (h : Ready s p r op e ring0 layout (bad e)) (ha : act (s.atRing p r) e = .hold w u) (hstep : RingStep p m u) (hb : m.bellsPass = true) :
    Holds p r i w s m := by
  have hwaits := RingStep.onRing p r u (fun g => { g with wait := some w, validNs := (s.atRing p r).now }) hstep.rising
  have hsettled := State.settleRings_step p _ hwaits.rising (hwaits.bells (hstep.bells hb))
  exact ⟨_, by rw [hi, ringCmd_eq s p r op ring0 layout bad act e h, ha]; rfl, (hstep.trans (hwaits.trans hsettled)).only,
    (State.finish_hold (s.atRing p r) u p r w hstep.rising (hstep.bells hb)).2⟩

/-- A ring that goes on waiting after ring steps from m holds. -/
theorem holds_of_rewait {i : Instr} {w : Wait} (hexec : exec i s = .next (u.rewait p r w)) (hstep : RingStep p m u) : Holds p r i w s m := by
  refine ⟨_, hexec, (hstep.trans (RingStep.onRing p r u _ hstep.rising)).only, ?_⟩
  unfold State.rewait
  rw [State.ring_onRing_waiting u p r _ w hstep.rising rfl]

/-! ### Streams -/

theorem State.stream_onStream_same (s : State) (slot : Nat) (f : Stream → Stream) : (s.onStream slot f).stream slot = (s.stream slot).map f := by
  unfold State.onStream
  split
  · next x hx =>
    rw [hx]
    exact tblFind_put_same _ _ _
  · next hx => rw [hx]; rfl

theorem State.onStream_const {s : State} {slot : Nat} {x : Stream} (h : s.stream slot = some x) (f : Stream → Stream) :
    s.onStream slot f = s.onStream slot fun _ => f x := by
  unfold State.onStream
  rw [h]

theorem State.onStream_onRing (s : State) (p r slot : Nat) (f : Ring → Ring) (g : Stream → Stream) :
    (s.onRing p r f).onStream slot g = (s.onStream slot g).onRing p r f := by
  unfold State.onStream
  rw [show (s.onRing p r f).stream slot = s.stream slot from rfl]
  split <;> rfl

theorem KeepsRings.onStream (slot : Nat) (f : Stream → Stream) : KeepsRings s (s.onStream slot f) := by
  exact .of_parts (s.onStream_parts slot f) (s.onStream_pairs slot f)

/-! ### A feed whose descriptors are known (R166–R168) -/

section Feed

variable {slot badAt : Nat} {x : Stream} {l : List (Nat × Nat)}

/-- The state in which a feed has its descriptors and has taken its input space. -/
def State.feedTaken (s : State) (p r slot : Nat) (l : List (Nat × Nat)) : State :=
  (s.onRing p r fun g => { g with descs := l }).onStream slot fun x => { x with inUsed := x.inUsed + descBytes l }

theorem RingStep.feedTaken (p r slot : Nat) (s : State) (l : List (Nat × Nat)) (h : tblRising s.parts = true) :
    RingStep p (s.onStream slot fun x => { x with inUsed := x.inUsed + descBytes l }) (s.feedTaken p r slot l) := by
  unfold State.feedTaken
  rw [State.onStream_onRing]
  exact RingStep.onRing p r _ _ (by rw [State.onStream_parts]; exact h)

theorem State.feedGo_reads (h : tblRising s.parts = true) (hok : (s.part p).dmaOk = true) (hroom : descBytes l ≤ x.inBuf - x.inUsed) :
    ∃ u, s.feedGo p r slot x l badAt = .hold (.reads (s.readNumbers p s.nextId l) [] false) u ∧ RingStep p (s.feedTaken p r slot l) u := by
  have hring := RingStep.onRing p r s (fun g => { g with descs := l }) h
  have hpart : (s.feedTaken p r slot l).part p = (s.onRing p r fun g => { g with descs := l }).part p := by
    unfold State.part State.feedTaken
    rw [State.onStream_parts]
  have hdma : ((s.feedTaken p r slot l).part p).dmaOk = (s.part p).dmaOk := by
    rw [hpart]
    unfold State.onRing
    rw [State.part_onPart_same _ p _ h]
    rfl
  have hdev : ((s.feedTaken p r slot l).part p).dev = (s.part p).dev := by rw [hpart, hring.dev]
  have hnext : (s.feedTaken p r slot l).nextId = s.nextId := by
    unfold State.feedTaken
    exact State.onStream_nextId _ _ _
  obtain ⟨hwait, hstep⟩ := (s.feedTaken p r slot l).startCmdReads_ok p r l
    (by unfold State.feedTaken; rw [State.onStream_parts]; exact hring.rising) (hdma.trans hok)
  refine ⟨_, ?_, hstep⟩
  unfold State.feedGo
  dsimp only
  rw [if_neg (by omega), if_neg (by omega)]
  rw [State.readNumbers_congr hdev, hnext] at hwait
  exact congrArg (CmdOut.hold · _) hwait

theorem State.feedGo_waits (hfull : x.inBuf - x.inUsed < descBytes l) (hfits : descBytes l ≤ x.inBuf) (hrunning : x.state = .running) :
    s.feedGo p r slot x l badAt = .hold (.feedSpace slot (descBytes l)) (s.onRing p r fun g => { g with descs := l }) := by
  unfold State.feedGo
  dsimp only
  rw [if_neg (by omega), if_pos hfull, if_pos hrunning]

/-! ### STREAM_FEED and STREAM_FEED_SPACE -/

/-- What STREAM_FEED does at its turn. -/
def streamFeedAct (p r : Nat) (s : State) (e : BitVec 512) : CmdOut :=
  onNamedStream s p e [.idle, .running] fun slot x =>
    if feedIndirect e then
      let w := s.startCmdReads p r [(entryField e 0x20 0 64, 16 * feedCount e)]
      .hold w.1 w.2
    else s.feedGo p r slot x (feedDescs e) (bitPos 0x28 0)

theorem exec_streamFeed_eq (p : PartId) (r : RingId) (s : State) (e : BitVec 512) (h : s.turn p r 0x12 = some e) :
    exec (.streamFeed p r) s = ringCmd s p r 0x12 false (feedLayout e) (feedChecks s p) (streamFeedAct p r) := by
  rw [exec_streamFeed]
  unfold execStreamFeed
  rw [h]
  rfl

theorem onNamedStream_of_state {e : BitVec 512} {legal : List StreamState} {f : Nat → Stream → CmdOut}
    (hslot : s.slotOf p (entryObject e) = some slot) (hx : s.stream slot = some x) (hlegal : x.state ∈ legal) :
    onNamedStream s p e legal f = f slot x := by
  unfold onNamedStream
  rw [hslot]
  dsimp only
  rw [hx]
  exact if_pos (List.contains_iff_mem.2 hlegal)

theorem feedable_mem (h : x.state = .idle ∨ x.state = .running) : x.state ∈ [StreamState.idle, .running] := by
  simpa using h

variable {e : BitVec 512}

theorem streamFeedAct_inline (hslot : s.slotOf p (entryObject e) = some slot) (hx : s.stream slot = some x)
    (hstate : x.state = .idle ∨ x.state = .running) (hinline : feedIndirect e = false) :
    streamFeedAct p r (s.atRing p r) e = (s.atRing p r).feedGo p r slot x (feedDescs e) (bitPos 0x28 0) := by
  refine (onNamedStream_of_state (s := s.atRing p r) hslot hx (feedable_mem hstate)).trans ?_
  rw [if_neg (by rw [hinline]; exact Bool.false_ne_true)]

theorem State.dmaOk_atRing (s : State) (p r : Nat) (h : tblRising s.parts = true) : ((s.atRing p r).part p).dmaOk = (s.part p).dmaOk := by
  rw [s.part_atRing p r h]
  rfl

theorem State.readNumbers_atRing (s : State) (p r n : Nat) (l : List (Nat × Nat)) (h : tblRising s.parts = true) :
    (s.atRing p r).readNumbers p n l = s.readNumbers p n l :=
  State.readNumbers_congr (by rw [s.part_atRing p r h]) n l

/-- An inline feed that fits takes its space and reads. -/
theorem streamFeed_reads (h : Ready s p r 0x12 e false (feedLayout e) (feedChecks s p e)) (hinline : feedIndirect e = false)
    (hslot : s.slotOf p (entryObject e) = some slot) (hx : s.stream slot = some x) (hstate : x.state = .idle ∨ x.state = .running)
    (hroom : descBytes (feedDescs e) ≤ x.inBuf - x.inUsed) (hok : (s.part p).dmaOk = true) :
    let v := (s.atRing p r).feedTaken p r slot (feedDescs e)
    Holds p r (.streamFeed p r) (.reads (s.readNumbers p s.nextId (feedDescs e)) [] false) s v ∧
      (v.stream slot).map (·.inUsed) = some (x.inUsed + descBytes (feedDescs e)) := by
  obtain ⟨-, -, -, ⟨hparts, -⟩, hbells⟩ := id h
  have hat := s.rising_atRing p r hparts
  obtain ⟨u, hgo, hstep⟩ := State.feedGo_reads (s := s.atRing p r) (p := p) (r := r) (slot := slot) (badAt := bitPos 0x28 0) hat
    ((s.dmaOk_atRing p r hparts).trans hok) hroom
  rw [s.readNumbers_atRing p r _ _ hparts] at hgo
  have hkeeps : KeepsRings (s.atRing p r) ((s.atRing p r).onStream slot fun x => { x with inUsed := x.inUsed + descBytes (feedDescs e) }) :=
    .onStream slot _
  refine ⟨ringCmd_holds_of_step (exec_streamFeed_eq p r s e h.1) h ((streamFeedAct_inline hslot hx hstate hinline).trans hgo) hstep
    ((RingStep.feedTaken p r slot _ _ hat).bells (hkeeps.bells hbells)), ?_⟩
  unfold State.feedTaken
  rw [State.stream_onStream_same, show ((s.atRing p r).onRing p r _).stream slot = some x from hx]
  rfl

/-- An inline feed that does not fit waits for the space. -/
theorem streamFeed_waits (h : Ready s p r 0x12 e false (feedLayout e) (feedChecks s p e)) (hinline : feedIndirect e = false)
    (hslot : s.slotOf p (entryObject e) = some slot) (hx : s.stream slot = some x)
    (hfull : x.inBuf - x.inUsed < descBytes (feedDescs e)) (hfits : descBytes (feedDescs e) ≤ x.inBuf) (hrunning : x.state = .running) :
    Holds p r (.streamFeed p r) (.feedSpace slot (descBytes (feedDescs e))) s
      ((s.atRing p r).onRing p r fun g => { g with descs := feedDescs e }) := by
  obtain ⟨-, -, -, ⟨hparts, -⟩, hbells⟩ := id h
  have hring := RingStep.onRing p r (s.atRing p r) (fun g => { g with descs := feedDescs e }) (s.rising_atRing p r hparts)
  exact ringCmd_holds_of_step (exec_streamFeed_eq p r s e h.1) h
    ((streamFeedAct_inline hslot hx (.inr hrunning) hinline).trans (State.feedGo_waits hfull hfits hrunning)) (RingStep.rfl' p _ hring.rising)
    (hring.bells hbells)

/-- A feed with a list reads the list. -/
theorem streamFeed_lists (h : Ready s p r 0x12 e false (feedLayout e) (feedChecks s p e)) (hlist : feedIndirect e = true)
    (hslot : s.slotOf p (entryObject e) = some slot) (hx : s.stream slot = some x) (hstate : x.state = .idle ∨ x.state = .running)
    (hok : (s.part p).dmaOk = true) :
    Holds p r (.streamFeed p r)
      (.reads (s.readNumbers p s.nextId [(entryField e 0x20 0 64, 16 * entryField e 0x18 0 8)]) [] false) s (s.atRing p r) := by
  obtain ⟨-, -, -, ⟨hparts, -⟩, hbells⟩ := id h
  obtain ⟨hwait, hstep⟩ := (s.atRing p r).startCmdReads_ok p r [(entryField e 0x20 0 64, 16 * feedCount e)] (s.rising_atRing p r hparts)
    ((s.dmaOk_atRing p r hparts).trans hok)
  rw [s.readNumbers_atRing p r _ _ hparts] at hwait
  refine ringCmd_holds_of_step (exec_streamFeed_eq p r s e h.1) h ?_ hstep hbells
  refine (onNamedStream_of_state (s := s.atRing p r) hslot hx (feedable_mem hstate)).trans ?_
  rw [if_pos hlist]
  exact congrArg (CmdOut.hold · _) hwait

/-- STREAM_FEED_SPACE reads where the space is free. -/
theorem streamFeedSpace_reads {n : Nat} (hr : s.Rising) (hwait : (s.ring p r).wait = some (.feedSpace slot n)) (hx : s.stream slot = some x)
    (hroom : n ≤ x.inBuf - x.inUsed) (hok : (s.part p).dmaOk = true) :
    Holds p r (.streamFeedSpace p r) (.reads (s.readNumbers p s.nextId (s.ring p r).descs) [] false) s
      (s.onStream slot fun x => { x with inUsed := x.inUsed + n }) := by
  set m := s.onStream slot fun x => { x with inUsed := x.inUsed + n } with hm
  have hpart : m.part p = s.part p := by
    unfold State.part
    rw [hm, State.onStream_parts]
  have hparts : tblRising m.parts = true := by rw [hm, State.onStream_parts]; exact hr.1
  obtain ⟨hreads, hstep⟩ := m.startCmdReads_ok p r (s.ring p r).descs hparts (by rw [hpart]; exact hok)
  rw [State.readNumbers_congr (s := s) (by rw [hpart]), show m.nextId = s.nextId from State.onStream_nextId _ _ _] at hreads
  refine holds_of_rewait ?_ hstep
  rw [exec_streamFeedSpace]
  unfold execStreamFeedSpace
  dsimp only
  rw [hwait]
  dsimp only
  rw [hx]
  dsimp only
  rw [if_neg (by omega), ← hreads]

/-! ### COMMAND_READ_END -/

variable {got : List (Nat × List Byte)} {c : Fetched} {rest : List Fetched}

/-- The reads of a feed or of an image write have ended: the command goes on. -/
theorem exec_commandReadEnd_of (hwait : (s.ring p r).wait = some (.reads [] got false)) (hfetched : (s.ring p r).fetched = c :: rest)
    (hruns : s.interprets p = true) (hload : loadOpcodes.contains (entryOpcode c.entry) = false) :
    exec (.commandReadEnd p r) s = .next
      (if entryOpcode c.entry = 0x12 then s.feedEnd p r c.entry got false
       else if entryOpcode c.entry = 0x29 then s.imageWriteEnd p r c.entry got false
       else if entryOpcode c.entry = 0x33 then s.canvasEnd p r c.entry got false
       else s.gateEnd p r c.entry got false) := by
  have hgoes : (!s.interprets p || s.loadWaits (s.ring p r)) = false := by
    unfold State.loadWaits
    rw [hruns, hfetched]
    simpa using fun _ => hload
  rw [exec_commandReadEnd]
  unfold execCommandReadEnd
  dsimp only
  rw [if_neg (by rw [hgoes]; exact Bool.false_ne_true), hwait, hfetched]
  dsimp only
  rw [apply_ite Host.Outcome.next, apply_ite Host.Outcome.next, apply_ite Host.Outcome.next]

theorem exec_commandReadEnd_feed (hwait : (s.ring p r).wait = some (.reads [] got false)) (hfetched : (s.ring p r).fetched = c :: rest)
    (hruns : s.interprets p = true) (hop : entryOpcode c.entry = 0x12) :
    exec (.commandReadEnd p r) s = .next (s.feedEnd p r c.entry got false) := by
  rw [exec_commandReadEnd_of hwait hfetched hruns (by rw [hop]; rfl), if_pos hop]

theorem exec_commandReadEnd_image (hwait : (s.ring p r).wait = some (.reads [] got false)) (hfetched : (s.ring p r).fetched = c :: rest)
    (hruns : s.interprets p = true) (hop : entryOpcode c.entry = 0x29) :
    exec (.commandReadEnd p r) s = .next (s.imageWriteEnd p r c.entry got false) := by
  rw [exec_commandReadEnd_of hwait hfetched hruns (by rw [hop]; rfl), if_neg (by rw [hop]; decide), if_pos hop]

theorem State.feedEnd_list (hslot : s.slotOf p (entryObject e) = some slot) (hx : s.stream slot = some x) (hdescs : (s.ring p r).descs = [])
    (hl : listDescs (gotBytes got) (feedCount e) = some l) (hstate : x.state ≠ .failed) {w : Wait}
    (hgo : s.feedGo p r slot x l (bitPos 0x20 0) = .hold w u) : s.feedEnd p r e got false = u.rewait p r w := by
  unfold State.feedEnd
  dsimp only
  rw [hslot]
  dsimp only
  rw [hx]
  dsimp only
  rw [if_neg Bool.false_ne_true, if_pos (by rw [hdescs]; rfl), if_neg hstate, hl]
  dsimp only
  rw [hgo]

theorem State.feedEnd_bytes (hslot : s.slotOf p (entryObject e) = some slot) (hx : s.stream slot = some x) (hdescs : (s.ring p r).descs ≠ []) :
    s.feedEnd p r e got false =
      (s.onStream slot fun _ => x.feed e (s.ring p r).validNs s.now (descBytes (s.ring p r).descs) (gotBytes got) false).endWait p r
        (replyOk (descBytes (s.ring p r).descs)) := by
  unfold State.feedEnd
  dsimp only
  rw [hslot]
  dsimp only
  rw [hx]
  dsimp only
  rw [if_neg Bool.false_ne_true, if_neg (by simpa using hdescs), State.onStream_const hx]

/-- A list that has come goes on as inline descriptors do. -/
theorem commandReadEnd_list (hr : s.Rising) (hwait : (s.ring p r).wait = some (.reads [] got false))
    (hfetched : (s.ring p r).fetched = c :: rest) (hruns : s.interprets p = true) (hop : entryOpcode c.entry = 0x12)
    (hslot : s.slotOf p (entryObject c.entry) = some slot) (hx : s.stream slot = some x) (hdescs : (s.ring p r).descs = [])
    (hl : listDescs (gotBytes got) (feedCount c.entry) = some l) (hstate : x.state ≠ .failed) (hok : (s.part p).dmaOk = true) :
    (descBytes l ≤ x.inBuf - x.inUsed →
      Holds p r (.commandReadEnd p r) (.reads (s.readNumbers p s.nextId l) [] false) s
        (s.onStream slot fun x => { x with inUsed := x.inUsed + descBytes l })) ∧
    (x.inBuf - x.inUsed < descBytes l → descBytes l ≤ x.inBuf → x.state = .running →
      Holds p r (.commandReadEnd p r) (.feedSpace slot (descBytes l)) s s) := by
  have hexec := exec_commandReadEnd_feed hwait hfetched hruns hop
  constructor
  · intro hroom
    obtain ⟨u, hgo, hstep⟩ := State.feedGo_reads (r := r) (slot := slot) (badAt := bitPos 0x20 0) hr.1 hok hroom
    exact holds_of_rewait (hexec.trans (congrArg _ (State.feedEnd_list hslot hx hdescs hl hstate hgo)))
      ((RingStep.feedTaken p r slot s l hr.1).trans hstep)
  · intro hfull hfits hrunning
    exact holds_of_rewait (hexec.trans (congrArg _ (State.feedEnd_list hslot hx hdescs hl hstate (State.feedGo_waits hfull hfits hrunning))))
      (RingStep.onRing p r s _ hr.1)

/-- A feed's bytes enter its stream's queue. -/
theorem commandReadEnd_bytes (hwait : (s.ring p r).wait = some (.reads [] got false)) (hfetched : (s.ring p r).fetched = c :: rest)
    (hruns : s.interprets p = true) (hop : entryOpcode c.entry = 0x12) (hslot : s.slotOf p (entryObject c.entry) = some slot)
    (hx : s.stream slot = some x) (hdescs : (s.ring p r).descs ≠ []) :
    let n := descBytes (s.ring p r).descs
    let y := x.feed c.entry (s.ring p r).validNs s.now n (gotBytes got) false
    let m := s.onStream slot fun _ => y
    exec (.commandReadEnd p r) s = .next (m.endWait p r (replyOk n)) ∧ m.stream slot = some y :=
  ⟨(exec_commandReadEnd_feed hwait hfetched hruns hop).trans (congrArg _ (State.feedEnd_bytes hslot hx hdescs)),
    by rw [State.stream_onStream_same, hx]; rfl⟩

theorem State.image_onImage_same (s : State) (p k : Nat) (f : HostImage → HostImage) (h : tblRising s.parts = true) :
    (s.onImage p k f).image p k = (s.image p k).map f := by
  unfold State.image State.onImage
  rw [s.part_onPart_same p _ h]
  split
  · next i hi =>
    rw [hi]
    exact tblFind_put_same _ _ _
  · next hi => rw [hi]; rfl

/-- An image takes the pixels that have been read for it. -/
theorem commandReadEnd_image {i : HostImage} (hr : s.Rising) (hwait : (s.ring p r).wait = some (.reads [] got false))
    (hfetched : (s.ring p r).fetched = c :: rest) (hruns : s.interprets p = true) (hop : entryOpcode c.entry = 0x29)
    (hi : (s.composeFirst p).image p (entryObject c.entry) = some i) :
    let e := c.entry
    let new := (dwordsOf (gotBytes got)).map fun d => BitVec.ofNat 32 d
    let pix := putRect (i.pending.getD i.visible) i.width (entryField e 0x1C 0 16) (entryField e 0x1E 0 16) (entryField e 0x20 0 16) new
    let m := (s.composeFirst p).onImage p (entryObject e) fun i => { i with pending := some pix, completed := true }
    exec (.commandReadEnd p r) s = .next (m.endWait p r (replyOk (gotBytes got).length)) ∧
      m.image p (entryObject e) = some { i with pending := some pix, completed := true } := by
  intro e new pix m
  constructor
  · rw [exec_commandReadEnd_image hwait hfetched hruns hop]
    unfold State.imageWriteEnd
    dsimp only
    rw [hi]
    rfl
  · rw [State.image_onImage_same _ p _ _ hr.composeFirst.1, hi]
    rfl

end Feed

/-- Settles O8: a feed whose descriptors are known reads, or waits for space, from STREAM_FEED, STREAM_FEED_SPACE and COMMAND_READ_END alike. -/
theorem feedsAndCommandReads : Obligations.FeedsAndCommandReads := by
  refine ⟨⟨?inline, ?list, ?space⟩, ?ends⟩
  case inline =>
    intro p r s e slot x h hinline hslot hx hstate n u
    exact ⟨streamFeed_reads h hinline hslot hx hstate, streamFeed_waits h hinline hslot hx⟩
  case list => exact fun p r s e slot x => streamFeed_lists
  case space => exact fun p r s slot n x => streamFeedSpace_reads
  case ends =>
    intro p r s got c rest hr hwait hfetched hruns
    exact ⟨fun slot x l => commandReadEnd_list hr hwait hfetched hruns, fun slot x => commandReadEnd_bytes hwait hfetched hruns,
      fun i => commandReadEnd_image hr hwait hfetched hruns⟩

end Sys2Proof.Machine
end

section
/-! Calendars swap at their boundaries, and drops present at their instants (O31). -/

namespace Sys2Proof.Machine

open Sys2Proof

/-! ### A change of each drop of a list -/

theorem State.rising_foldl_onDrop (f : Drop → Drop) (l : List Nat) (s : State) (hs : tblRising s.drops = true) :
    tblRising (l.foldl (fun u g => u.onDrop g f) s).drops = true :=
  List.foldlRecOn l (motive := fun u : State => tblRising u.drops = true) _ hs fun u hu g _ => u.rising_onDrop g f hu

theorem State.drop_foldl_onDrop_other (f : Drop → Drop) (l : List Nat) (s : State) (g : Nat) (hg : g ∉ l) :
    (l.foldl (fun u k => u.onDrop k f) s).drop g = s.drop g := by
  induction l generalizing s with
  | nil => rfl
  | cons k l ih =>
    obtain ⟨hne, hrest⟩ := not_or.mp (fun h => hg (List.mem_cons.mpr h))
    exact (ih _ hrest).trans (s.drop_onDrop_other k g f hne)

/-- A list that names a drop once changes it once. -/
theorem State.drop_foldl_onDrop_mem (f : Drop → Drop) (l : List Nat) (s : State) (g : Nat) (hs : tblRising s.drops = true)
    (hl : l.Pairwise (· < ·)) (hg : g ∈ l) : (l.foldl (fun u k => u.onDrop k f) s).drop g = f (s.drop g) := by
  induction l generalizing s with
  | nil => cases hg
  | cons k l ih =>
    obtain ⟨habove, hrest⟩ := List.pairwise_cons.mp hl
    rcases List.mem_cons.mp hg with heq | hmem
    · subst heq
      have hnot : g ∉ l := fun hin => Nat.lt_irrefl g (habove g hin)
      exact (State.drop_foldl_onDrop_other f l _ g hnot).trans (s.drop_onDrop_same g f hs)
    · have hne : g ≠ k := fun h => Nat.lt_irrefl g (h ▸ habove g hmem)
      exact (ih _ (s.rising_onDrop k f hs) hrest hmem).trans (congrArg f (s.drop_onDrop_other k g f hne))

/-! ### Calendars (R173, R231, R233) -/

theorem exec_calendarSwap_due (i : SegId) (s : State) (hstarted : (s.seg i).started = true) (hoff : s.offsetNow i ≤ 120)
    (hdue : (s.seg i).calDue (s.seg i).cycleStartNs = true) :
    exec (.calendarSwap i) s = .next (s.onSeg i fun x => x.swapCalendar (s.seg i).cycleStartNs) := by
  rw [exec_calendarSwap]
  simp [execCalendarSwap, hstarted, hoff, hdue]

/-- Changes that stay staged have no boundary behind them. -/
theorem Segment.swapCalendar_staged {x : Segment} {t : Nat} {e : Nat × Staged} (he : e ∈ (x.swapCalendar t).staged) (hp : e.2.state = .pending) :
    t < e.2.due := by
  have hkept : (!e.2.dueBy t) = true := (List.mem_filter.mp he).2
  simpa [Staged.dueBy, hp] using hkept

theorem Segment.swapCalendar_vendor {x : Segment} {t : Nat} {v : VendorChange} (hv : v ∈ (x.swapCalendar t).vendor) : t < v.due := by
  simpa using (List.mem_filter.mp hv).2

theorem calendarSwap_clause (i : SegId) (s : State) (hr : s.Rising) (hstarted : (s.seg i).started = true) (hoff : s.offsetNow i ≤ 120)
    (hdue : (s.seg i).calDue (s.seg i).cycleStartNs = true) :
    ∃ t, exec (.calendarSwap i) s = .next t ∧ (t.seg i).calendar = ((s.seg i).calendarAt (s.seg i).cycleStartNs).1 ∧
      (∀ e ∈ (t.seg i).staged, e.2.state = .pending → (s.seg i).cycleStartNs < e.2.due) ∧
      (∀ v ∈ (t.seg i).vendor, (s.seg i).cycleStartNs < v.due) ∧ (∀ j, j ≠ i.val → t.seg j = s.seg j) ∧ t = { s with segs := t.segs } := by
  have hseg := s.seg_onSeg_same i (fun x => x.swapCalendar (s.seg i).cycleStartNs) hr.segs
  refine ⟨_, exec_calendarSwap_due i s hstarted hoff hdue, ?_⟩
  rw [hseg]
  exact ⟨rfl, fun e => Segment.swapCalendar_staged, fun v => Segment.swapCalendar_vendor, fun j hj => s.seg_onSeg_other i j _ hj, rfl⟩

/-! ### Presentation (R14, R97, R163) -/

/-- What the instant of a SYNC with sequence number seq, counted to `sync`, makes of a drop. -/
def Drop.swappedAt (sync : Option Nat) (seq : Byte) (d : Drop) : Drop :=
  { d with presentedSeq := seq, front := if d.backFor == sync && d.lateFor != sync then d.takeThird.back else d.front,
           backFor := none, third := [] }

/-- What an instant at unit time now makes of a drop whose hand-back instant may have come. -/
def Drop.returnedAt (now : Nat) (d : Drop) : Drop :=
  if d.state = .fallback ∧ (d.activeAt.map fun t => decide (t ≤ now)).getD false then
    { d with state := .active, activeAt := none, fallbackFrom := none }
  else d

theorem Drop.returnedAt_of_due {now a : Nat} {d : Drop} (hstate : d.state = .fallback) (hat : d.activeAt = some a) (ha : a ≤ now) :
    d.returnedAt now = { d with state := .active, activeAt := none, fallbackFrom := none } := by
  simp [Drop.returnedAt, hstate, hat, ha]

/-- A hand-back does not touch the picture. -/
theorem Drop.returnedAt_picture (now : Nat) (d : Drop) : (d.returnedAt now).presentedSeq = d.presentedSeq ∧
    (d.returnedAt now).backFor = d.backFor ∧ (d.returnedAt now).third = d.third ∧ (d.returnedAt now).front = d.front := by
  unfold Drop.returnedAt
  split <;> exact ⟨rfl, rfl, rfl, rfl⟩

theorem Drop.swappedAt_front_ready {T : Nat} {seq : Byte} {d : Drop} (hback : d.backFor = some T) (hlate : d.lateFor ≠ some T) :
    (d.swappedAt (some T) seq).front = if d.handedBack then d.third else d.back := by
  simp only [Drop.swappedAt, hback, beq_self_eq_true, Bool.true_and, bne_iff_ne, ne_eq, hlate, not_false_eq_true, if_true]
  unfold Drop.takeThird
  split <;> rfl

theorem Drop.swappedAt_front_again {T : Nat} {seq : Byte} {d : Drop} (hnot : d.backFor ≠ some T ∨ d.lateFor = some T) :
    (d.swappedAt (some T) seq).front = d.front := by
  rcases hnot with hback | hlate
  · simp [Drop.swappedAt, hback]
  · simp [Drop.swappedAt, hlate]

theorem State.drop_swapped (s : State) (i : Nat) (hd : tblRising s.drops = true) {g : Nat} (hg : g ∈ s.segDrops i) :
    (s.swapped i).drop g = (s.drop g).swappedAt (s.seg i).syncNs (s.seg i).seq :=
  State.drop_foldl_onDrop_mem (Drop.swappedAt _ _) _ s g hd (s.segDrops_sorted i hd) hg

theorem State.drop_handedBackNow (s : State) (i : Nat) (hd : tblRising s.drops = true) {g : Nat} (hg : g ∈ s.segDrops i) :
    (s.handedBackNow i).drop g = (s.drop g).returnedAt s.now :=
  State.drop_foldl_onDrop_mem (Drop.returnedAt s.now) _ s g hd (s.segDrops_sorted i hd) hg

theorem Stand.mem_segDrops {s t : State} (h : Stand s t) (hd : tblRising s.drops = true) (i g : Nat) : g ∈ t.segDrops i ↔ g ∈ s.segDrops i := by
  obtain ⟨hrising, hstand⟩ := h hd
  have hfound : (t.drop g).found = (s.drop g).found := congrArg (·.1) (hstand g)
  rw [t.mem_segDrops i g hrising, s.mem_segDrops i g hd, hfound]

/-- An instant without a SYNC only hands drops back. -/
theorem State.present_unshown (s : State) (i : Nat) (h : (s.seg i).syncNs = none) : s.present i = (s.handedBackNow i).updateTakeover := by
  rw [s.present_eq i, h]
  rfl

/-- At the instant that a SYNC counted to, buffers swap first. -/
theorem State.present_shown (s : State) (i T : Nat) (h : (s.seg i).syncNs = some T) (hT : T ≤ s.now) : s.present i =
    (((s.swapped i).onSeg i fun x => { x with syncNs := none }).handedBackNow i).updateTakeover := by
  rw [s.present_eq i, h]
  simp [hT]

theorem State.present_unshown_kept (s : State) (i : Nat) (h : (s.seg i).syncNs = none) :
    (s.present i).drops = (s.handedBackNow i).drops ∧ (s.present i).segs = s.segs ∧ (s.bellsPass = true → (s.present i).parts = s.parts) := by
  have hback := s.handedBackNow_drops i
  have htold := (s.handedBackNow i).unrung_updateTakeover
  rw [s.present_unshown i h]
  refine ⟨State.drops_of_unrung htold, (State.segs_of_unrung htold).trans hback.segs, fun hb => ?_⟩
  have hpairs : (s.handedBackNow i).pairs = s.pairs := State.pairs_of_dropless hback.rest
  have hbells : (s.handedBackNow i).bellsPass = true := by
    unfold State.bellsPass State.blockOk State.pair at hb ⊢
    rw [hpairs]
    exact hb
  rw [State.parts_of_evcless (State.evcless_updateTakeover _ hbells)]
  have hparts := congrArg State.parts hback.rest
  exact hparts

theorem presentationInstant_unshown (i : SegId) (s : State) (hr : s.Rising) (hsync : (s.seg i).syncNs = none) :
    ∃ t, exec (.presentationInstant i) s = .next t ∧
      (∀ g a, g ∈ s.segDrops i → (s.drop g).state = .fallback → (s.drop g).activeAt = some a → a ≤ s.now →
        (t.drop g).state = .active ∧ (t.drop g).activeAt = none) ∧
      (∀ g, g ∉ s.segDrops i → t.drop g = s.drop g) ∧ (s.bellsPass = true → t.parts = s.parts) ∧ t.segs = s.segs := by
  obtain ⟨hdrops, hsegs, hparts⟩ := s.present_unshown_kept i hsync
  refine ⟨s.present i, rfl, fun g a hg hstate hat ha => ?_, fun g hg => ?_, hparts, hsegs⟩
  · rw [State.drop_of_drops hdrops, s.drop_handedBackNow i hr.drops hg, Drop.returnedAt_of_due hstate hat ha]
    exact ⟨rfl, rfl⟩
  · rw [State.drop_of_drops hdrops]
    exact (s.handedBackNow_drops i).others g hg

/-- What a presentation instant at which a SYNC's count has ended makes of the segment and of the drops. -/
theorem State.present_shown_kept (s : State) (i T : Nat) (hr : s.Rising) (hsync : (s.seg i).syncNs = some T) (hT : T ≤ s.now) :
    ((s.present i).seg i).syncNs = none ∧ (∀ j, j ≠ i → (s.present i).seg j = s.seg j) ∧
      (∀ g ∈ s.segDrops i, (s.present i).drop g = ((s.drop g).swappedAt (some T) (s.seg i).seq).returnedAt s.now) ∧
      (∀ g, g ∉ s.segDrops i → (s.present i).drop g = s.drop g) := by
  have hswapped := s.swapped_drops i
  have hsegs : tblRising (s.swapped i).segs = true := by rw [hswapped.segs]; exact hr.segs
  have hnow : (s.swapped i).now = s.now := State.now_of_tb (State.tb_of_aside hswapped.aside)
  have hmem := hswapped.stand.mem_segDrops hr.drops i
  rw [s.present_shown i T hsync hT]
  generalize hu : (s.swapped i).onSeg i (fun x => { x with syncNs := none }) = u
  have hrising : tblRising u.drops = true := by rw [← hu]; exact (hswapped.stand hr.drops).1
  have hdrops : ∀ g, u.drop g = (s.swapped i).drop g := fun g => by rw [← hu]; rfl
  have hnowu : u.now = s.now := by rw [← hu]; exact hnow
  have hin : ∀ g, g ∈ u.segDrops i ↔ g ∈ s.segDrops i := fun g => by rw [← hu]; exact hmem g
  have hback := u.handedBackNow_drops i
  have htold := (u.handedBackNow i).unrung_updateTakeover
  have hseg : ∀ j, (u.handedBackNow i).updateTakeover.seg j = u.seg j := fun j =>
    State.seg_of_segs ((State.segs_of_unrung htold).trans hback.segs) j
  have hdrop := fun g => State.drop_of_drops (State.drops_of_unrung htold) g
  refine ⟨?_, fun j hj => ?_, fun g hg => ?_, fun g hg => ?_⟩
  · rw [hseg, ← hu, State.seg_onSeg_same _ i _ hsegs]
  · rw [hseg, ← hu, State.seg_onSeg_other _ i j _ hj, hswapped.seg]
  · rw [hdrop, u.drop_handedBackNow i hrising ((hin g).mpr hg), hdrops, s.drop_swapped i hr.drops hg, hnowu, hsync]
  · rw [hdrop, hback.others g fun h => hg ((hin g).mp h), hdrops]
    exact hswapped.others g hg

theorem presentationInstant_shown (i : SegId) (s : State) (T : Nat) (hr : s.Rising) (hsync : (s.seg i).syncNs = some T) (hT : T ≤ s.now) :
    ∃ t, exec (.presentationInstant i) s = .next t ∧ (t.seg i).syncNs = none ∧ (∀ j, j ≠ i.val → t.seg j = s.seg j) ∧
      (∀ g ∈ s.segDrops i,
        (t.drop g).presentedSeq = (s.seg i).seq ∧ (t.drop g).backFor = none ∧ (t.drop g).third = [] ∧
        ((s.drop g).backFor = some T → (s.drop g).lateFor ≠ some T →
          (t.drop g).front = if (s.drop g).handedBack then (s.drop g).third else (s.drop g).back) ∧
        ((s.drop g).backFor ≠ some T ∨ (s.drop g).lateFor = some T → (t.drop g).front = (s.drop g).front) ∧
        (∀ a, (s.drop g).state = .fallback → (s.drop g).activeAt = some a → a ≤ s.now → (t.drop g).state = .active)) ∧
      (∀ g, g ∉ s.segDrops i → t.drop g = s.drop g) := by
  obtain ⟨hseg, hothers, hmine, hdrops⟩ := s.present_shown_kept i T hr hsync hT
  refine ⟨s.present i, rfl, hseg, hothers, fun g hg => ?_, hdrops⟩
  obtain ⟨hseq, hback, hthird, hfront⟩ := ((s.drop g).swappedAt (some T) (s.seg i).seq).returnedAt_picture s.now
  rw [hmine g hg]
  refine ⟨hseq, hback, hthird, fun hfor hlate => hfront.trans (Drop.swappedAt_front_ready hfor hlate),
    fun hnot => hfront.trans (Drop.swappedAt_front_again hnot), fun a hstate hat ha => ?_⟩
  have hdue : ((s.drop g).swappedAt (some T) (s.seg i).seq).state = .fallback := hstate
  rw [Drop.returnedAt_of_due hdue hat ha]

/-- Settles O31: a swap takes the calendar decided for the boundary and leaves no due change; at an instant each drop of the segment changes once. -/
theorem boundariesSwapCalendarsAndPresent : Obligations.BoundariesSwapCalendarsAndPresent :=
  ⟨calendarSwap_clause, presentationInstant_unshown, presentationInstant_shown⟩

end Sys2Proof.Machine
end

section
/-! Fault records through doorbells and records: what is raised writes its own record and the guard's alone (R403, R445). -/

namespace Sys2Proof.Machine

open Sys2Proof

/-- From s to t every fault record but the guard's is as it was. -/
structure FaultsKept (s t : State) : Prop where
  kept : ∀ j, j ≠ 10 → t.faultRec j = s.faultRec j

namespace FaultsKept

variable {s t u : State}

theorem refl (s : State) : FaultsKept s s := ⟨fun _ _ => rfl⟩

theorem trans (h : FaultsKept s t) (k : FaultsKept t u) : FaultsKept s u where
  kept j hj := (k.kept j hj).trans (h.kept j hj)

/-- A change that is not one of fault records. -/
theorem aside (h : FaultsKept s t) (hu : u.flt.faults = t.flt.faults) : FaultsKept s u where
  kept j hj := (congrArg (fun f : Tbl FaultRec => tblGet ({} : FaultRec) f j) hu).trans (h.kept j hj)

theorem onFlt (h : FaultsKept s t) {f : Flt → Flt} (hf : (f t.flt).faults = t.flt.faults := by rfl) : FaultsKept s (t.onFlt f) := h.aside hf

theorem onPart (h : FaultsKept s t) {p : Nat} {f : Partition → Partition} : FaultsKept s (t.onPart p f) := h.aside rfl

theorem ite {c : Prop} [Decidable c] (ht : FaultsKept s t) (hu : FaultsKept s u) : FaultsKept s (if c then t else u) := by
  split
  · exact ht
  · exact hu

theorem foldl {α : Type} {f : State → α → State} {l : List α} (h : FaultsKept s t)
    (hf : ∀ u x, x ∈ l → FaultsKept s u → FaultsKept s (f u x)) : FaultsKept s (l.foldl f t) :=
  List.foldlRecOn l (motive := FaultsKept s) _ h fun u hu x hx => hf u x hx hu

theorem onDrop (h : FaultsKept s t) {g : Nat} {f : Drop → Drop} : FaultsKept s (t.onDrop g f) := h.aside rfl

theorem setFault_guard (h : FaultsKept s t) {x : FaultRec} : FaultsKept s (t.setFault 10 x) where
  kept j hj := (t.faultRec_setFault_other 10 j x hj).trans (h.kept j hj)

theorem emit (h : FaultsKept s t) {o : Output} : FaultsKept s (t.emit o) := h.aside (by rw [State.emit_flt])

theorem fairly (k : FaultsKept s u) : FaultsKept s (t.fairly u) := by
  rcases t.fairly_eq u with heq | ⟨l, heq⟩ <;> rw [heq]
  · exact k
  · exact k.aside rfl

theorem traceRec (h : FaultsKept s t) {l : LogRec} : FaultsKept s (t.traceRec l) := h.onFlt

theorem storeRec (h : FaultsKept s t) {l : LogRec} : FaultsKept s (t.storeRec l) := by
  unfold State.storeRec
  exact ite h h.onFlt

section
variable {ring : Ringer} (hring : ∀ u b, FaultsKept s u → FaultsKept s (ring u b)) (h : FaultsKept s t)
include hring h

theorem putLog {p : Nat} {l : LogRec} : FaultsKept s (t.putLog ring p l) := by
  unfold State.putLog State.writeLog
  exact ite (hring _ _ h.onPart.emit) h.onPart

theorem putGap {p : Nat} : FaultsKept s (t.putGap ring p) := by
  unfold State.putGap
  exact ite h (h.onPart.putLog hring)

theorem logTo {l : LogRec} {p : Nat} : FaultsKept s (t.logTo ring l p) := by
  have hgap := h.putGap (p := p) hring
  unfold State.logTo
  exact ite (hgap.putLog hring) hgap.onPart

theorem decideBy {l : LogRec} {ps : List Nat} : FaultsKept s (t.decideBy ring l ps) := fairly (h.foldl fun _ _ _ hu => hu.logTo hring)

theorem endIntervalBy {cls i : Nat} : FaultsKept s (t.endIntervalBy ring cls i) := by
  unfold State.endIntervalBy
  dsimp only
  split
  · exact h
  · exact ite h (ite h.onFlt (h.decideBy hring).onFlt)

theorem occurBy {type cls i : Nat} {detail : W32} {window : Nat} {ps : List Nat} :
    FaultsKept s (t.occurBy ring type cls i detail window ps) := by
  have htraced := fun l => (h.endIntervalBy (cls := cls) (i := i) hring).traceRec (l := l)
  unfold State.occurBy
  dsimp only
  split
  · exact (htraced _).onFlt
  · exact ((htraced _).decideBy hring).onFlt

end

/-- A fault that occurs writes its own record before it signals. -/
theorem stickBy {ring : Ringer} (hring : ∀ s u b, FaultsKept s u → FaultsKept s (ring u b)) (s : State) (i : Nat) (detail : W32) :
    FaultsKept (s.setFault i ((s.faultRec i).occurred s.now detail)) (s.stickBy ring i detail) := by
  unfold State.stickBy FaultRec.occurred
  dsimp only
  split
  · exact refl _
  · have hvendor := fun {v} (u : State) k (hu : FaultsKept v u) => hu.foldl (f := fun u c => ring u (.vendor c k)) (l := [0, 1]) fun _ _ _ => hring v _ _
    have hsignalled := fun {v} (u : State) ks ps (hu : FaultsKept v u) =>
      (hu.foldl (l := ks) fun u k _ => hvendor u k).foldl (f := fun u p => ring u (.shared (2816 + 32 * p + 19))) (l := ps) fun _ _ _ => hring v _ _
    exact ite (hring _ _ _ (hsignalled _ _ _ (refl _))) (hsignalled _ _ _ (refl _))

/-- A fault that is raised writes its own record, and the guard's where a doorbell is refused. -/
theorem raiseBy {ring : Ringer} (hring : ∀ s u b, FaultsKept s u → FaultsKept s (ring u b)) (s : State) (i : Nat) (detail : W32) :
    FaultsKept (s.setFault i ((s.faultRec i).occurred s.now detail)) (s.raiseBy ring i detail) := by
  have hoccurred := fun ps => (stickBy hring s i detail).occurBy (type := 1) (cls := 0) (i := i) (detail := detail) (window := 0) (ps := ps) (hring _)
  unfold State.raiseBy
  exact ite (hoccurred _).storeRec (hoccurred _)

theorem capture (h : FaultsKept s t) {split level : Bool} {k : AccKind} {space req addr : Nat} :
    FaultsKept s (t.capture 10 split level k space req addr).1 := by
  obtain ⟨c, heq, -⟩ := t.capture_pair 10 split level k space req addr
  rw [heq]
  exact h.aside rfl

theorem countBell (h : FaultsKept s t) {b : Bell} : FaultsKept s (t.countBell b) := h.capture

theorem bell (h : FaultsKept s t) {b : Bell} : FaultsKept s (t.bell b) := by
  unfold State.bell State.refuseBell
  refine ite ?_ (ite ?_ h.capture)
  · rw [t.strike_eq b]
    exact h.aside rfl
  · exact h.capture.setFault_guard.setFault_guard.trans (raiseBy (fun _ _ _ hu => hu.countBell) _ 0x00A _)

theorem raise (s : State) (i : Nat) (detail : W32) : FaultsKept (s.setFault i ((s.faultRec i).occurred s.now detail)) (s.raise i detail) :=
  raiseBy (fun _ _ _ hu => hu.bell) s i detail

theorem updateTakeover (h : FaultsKept s t) : FaultsKept s t.updateTakeover := by
  unfold State.updateTakeover
  refine h.foldl fun u c _ hu => ite hu ?_
  have hcust : ∀ f, FaultsKept s (u.onCust c f) := fun _ => hu.aside rfl
  exact ((hcust _).foldl fun _ _ _ h => h.bell).foldl fun _ _ _ h => h.bell

/-- The Sheepdog raises no fault of its own. -/
theorem sheepdog (h : FaultsKept s t) {p : Nat} : FaultsKept s (t.sheepdog p) := by
  have hchoice : FaultsKept s (if (t.part p).session = .closed then t else t.onPart p fun x => { x with fallback := x.sessFallback }) :=
    ite h h.onPart
  exact (hchoice.foldl fun _ _ _ hu => hu.onDrop).updateTakeover

end FaultsKept

/-- A fault that is raised is sticky. -/
theorem State.sticky_raise (s : State) (i : Nat) (detail : W32) (hi : i ≠ 10) : ((s.raise i detail).faultRec i).sticky = true := by
  have hsticky := (s.faultRec i).occurred_sticky s.now detail
  have hne : (s.faultRec i).occurred s.now detail ≠ {} := fun heq => by
    rw [heq] at hsticky
    cases hsticky
  have hset : (s.setFault i ((s.faultRec i).occurred s.now detail)).faultRec i = (s.faultRec i).occurred s.now detail := tblGet_set_ne _ _ _ _ hne
  rw [(FaultsKept.raise s i detail).kept i hi, hset]
  exact hsticky

end Sys2Proof.Machine
end

section
/-! Doorbells, ring 0, the heartbeat and its lapse (O40). -/

namespace Sys2Proof.Machine

open Sys2Proof

/-! ### Doorbells and the fetch retry (R142–R146) -/

/-- A ring's record that is not the default is what was written, whatever the table's form. -/
theorem State.ring_onRing_ne (s : State) (p r : Nat) (f : Ring → Ring) (hparts : tblRising s.parts = true) (hne : f (s.ring p r) ≠ {}) :
    (s.onRing p r f).ring p r = f (s.ring p r) := by
  unfold State.ring State.onRing
  rw [s.part_onPart_same p _ hparts]
  exact tblGet_set_ne _ _ _ _ hne

theorem Ring.ne_default_of_state {g : Ring} (h : g.state ≠ .absent) : g ≠ {} := fun heq => h (congrArg Ring.state heq)

section
variable {p : PartId} {r : RingId} {v : W32} {s : State} (hopen : s.hostOpen p = true) (hlink : s.linkHeld p false = false)
include hopen hlink

theorem sqTailDoorbell_taken (hparts : tblRising s.parts = true) (hstate : (s.ring p r).state ≠ .absent)
    (ht : field v.toNat 11 0 < (s.ring p r).size) :
    ∃ m t : State, exec (.sqTailDoorbell p r v) s = .next t ∧ t = m.fetch p r ∧ (m.ring p r).sqTail = field v.toNat 11 0 ∧
      (m.part p).dbErr = (s.part p).dbErr := by
  set g := s.ring p r with hg
  set marks := (ringSpan g.sqTail (field v.toNat 11 0) g.size).foldl (fun m k => tblPut m k s.nextId) g.announced with hmarks
  refine ⟨s.onRing p r fun g => { g with sqTail := field v.toNat 11 0, announced := marks }, _, ?_, rfl, ?_, ?_⟩
  · rw [exec_sqTailDoorbell]
    simp [execSqTailDoorbell, hlink, hopen, hstate, ht, ← hg, ← hmarks]
  · rw [s.ring_onRing_ne p r _ hparts (Ring.ne_default_of_state hstate)]
  · rw [State.onRing, s.part_onPart_same p _ hparts]

theorem sqTailDoorbell_refused (h : (s.ring p r).state = .absent ∨ (s.ring p r).size ≤ field v.toNat 11 0) :
    exec (.sqTailDoorbell p r v) s = .next (s.onPart p fun x => { x with dbErr := x.dbErr ||| BitVec.ofNat 32 (2 ^ r.val) }) := by
  have hbad : ((s.ring p r).state == .absent || decide ((s.ring p r).size ≤ field v.toNat 11 0)) = true := by simpa using h
  rw [exec_sqTailDoorbell]
  simp only [execSqTailDoorbell, hlink, hopen, hbad, Bool.not_true, Bool.false_eq_true, if_false, if_true]
  rfl

theorem cqHeadDoorbell_refused (h : (s.ring p r).state = .absent ∨ (s.ring p r).cqSize ≤ field v.toNat 11 0 ∨
    s.written p r < (field v.toNat 11 0 + (s.ring p r).cqSize - (s.ring p r).cqHead) % (s.ring p r).cqSize) :
    exec (.cqHeadDoorbell p r v) s = .next (s.onPart p fun x => { x with dbErr := x.dbErr ||| BitVec.ofNat 32 (2 ^ (16 + r.val)) }) := by
  have hbad : ((s.ring p r).state == .absent || decide ((s.ring p r).cqSize ≤ field v.toNat 11 0) ||
      decide (s.written p r < (field v.toNat 11 0 + (s.ring p r).cqSize - (s.ring p r).cqHead) % (s.ring p r).cqSize)) = true := by
    simpa [or_assoc] using h
  rw [exec_cqHeadDoorbell]
  simp only [execCqHeadDoorbell, hlink, hopen, hbad, Bool.not_true, Bool.false_eq_true, if_false, if_true]
  rfl

theorem cqHeadDoorbell_taken (hstate : (s.ring p r).state ≠ .absent) (hh : field v.toNat 11 0 < (s.ring p r).cqSize)
    (hn : (field v.toNat 11 0 + (s.ring p r).cqSize - (s.ring p r).cqHead) % (s.ring p r).cqSize ≤ s.written p r) :
    exec (.cqHeadDoorbell p r v) s = .next ((s.onRing p r fun g => { g with cqHead := field v.toNat 11 0, unreleased := g.unreleased -
      (field v.toNat 11 0 + (s.ring p r).cqSize - (s.ring p r).cqHead) % (s.ring p r).cqSize }).fetch p r) := by
  have hgood : ((s.ring p r).state == .absent || decide ((s.ring p r).cqSize ≤ field v.toNat 11 0) ||
      decide (s.written p r < (field v.toNat 11 0 + (s.ring p r).cqSize - (s.ring p r).cqHead) % (s.ring p r).cqSize)) = false := by
    simp [hstate, hh, hn]
  rw [exec_cqHeadDoorbell]
  simp only [execCqHeadDoorbell, hlink, hopen, hgood, Bool.not_true, Bool.false_eq_true, if_false]

/-! ### Ring 0 and the heartbeat (R161, R177) -/

theorem adminRingEnable_active (hparts : tblRising s.parts = true) (hoff : (s.part p).admEn = false) (hen : v.getLsbD 31 = true)
    (hlogs : logsOk (field v.toNat 3 0) (field v.toNat 11 8) = true) :
    ∃ t, exec (.adminRingEnable p v) s = .next t ∧ (t.ring p 0).state = .active ∧ (t.ring p 0).sqAddr = (s.part p).admSq ∧
      (t.ring p 0).cqAddr = (s.part p).admCq ∧ (t.ring p 0).sqLog2 = field v.toNat 3 0 ∧ (t.part p).admEn = true := by
  set u := (s.onPart p fun x => { x with admSqLog2 := field v.toNat 3 0, admCqLog2 := field v.toNat 11 8 }).onPart p fun x =>
    { x with admEn := true } with hu
  have hrising : tblRising u.parts = true := tblRising_set _ _ _ _ (tblRising_set _ _ _ _ hparts)
  have hen' : (u.part p).admEn = true := by
    rw [hu, State.part_onPart_same _ p _ (tblRising_set _ _ _ _ hparts)]
  refine ⟨u.onRing p 0 fun _ =>
    { state := .active, sqAddr := (s.part p).admSq, cqAddr := (s.part p).admCq, sqLog2 := field v.toNat 3 0, cqLog2 := field v.toNat 11 8 },
    ?_, ?_⟩
  · rw [exec_adminRingEnable]
    simp only [execAdminRingEnable, hlink, hopen, hoff, hen, hlogs, Bool.not_true, Bool.false_eq_true, if_false, if_true, hu]
  · rw [u.ring_onRing_ne p 0 _ hrising (Ring.ne_default_of_state (by simp))]
    refine ⟨rfl, rfl, rfl, rfl, ?_⟩
    rw [State.onRing, u.part_onPart_same p _ hrising]
    exact hen'

theorem heartbeat_restarts (hsession : (s.part p).session ≠ .closed) :
    exec (.heartbeat p) s = .next (s.onPart p fun x => { x with hbTick := s.tick }) := by
  rw [exec_heartbeat]
  simp only [execHeartbeat, hlink, hopen, beq_iff_eq, hsession, Bool.not_true, Bool.false_eq_true, if_false]
  rfl

end

theorem sqFetchRetry_due {p : PartId} {r : RingId} {s : State} {k : Nat} (hretry : (s.ring p r).retryTick = some k) (hk : k + 1000 ≤ s.tick) :
    exec (.sqFetchRetry p r) s = .next ((s.onRing p r fun g => { g with retryTick := none, retried := true }).fetch p r) := by
  have hpast : s.past k (ticksOfUs 10) = true := decide_eq_true hk
  rw [exec_sqFetchRetry]
  simp only [execSqFetchRetry, hretry, hpast, Bool.not_true, Bool.false_eq_true, if_false]

/-! ### The lapse (R161, R163) -/

/-- Drops whose record is not the default are listed. -/
theorem State.mem_liveDropsOf (s : State) (p g : Nat) (hd : tblRising s.drops = true) (howns : s.owns p g = true) (hne : s.drop g ≠ {}) :
    g ∈ s.liveDropsOf p := by
  refine List.mem_filter.mpr ⟨?_, howns⟩
  cases hfind : tblFind s.drops g with
  | none =>
    have hdefault : s.drop g = {} := by
      unfold State.drop tblGet
      rw [hfind]
      rfl
    exact absurd hdefault hne
  | some d => exact List.mem_map.mpr ⟨(g, d), (mem_iff_tblFind s.drops hd g d).mpr hfind, rfl⟩

theorem State.liveDropsOf_sorted (s : State) (p : Nat) (hd : tblRising s.drops = true) : (s.liveDropsOf p).Pairwise (· < ·) :=
  (tblRising_keys s.drops hd).sublist List.filter_sublist

/-- The Sheepdog takes an owned drop that is listed over. -/
theorem State.drop_sheepdog (s : State) (p g : Nat) (hd : tblRising s.drops = true) (howns : s.owns p g = true) (hne : s.drop g ≠ {}) :
    (s.sheepdog p).drop g = (s.drop g).takeOver s.now := by
  set u := if (s.part p).session = .closed then s else s.onPart p fun x => { x with fallback := x.sessFallback } with hu
  have hdrops : u.drops = s.drops := by rw [hu]; split <;> rfl
  have hmap : u.map = s.map := by rw [hu]; split <;> rfl
  have hrising : tblRising u.drops = true := by rw [hdrops]; exact hd
  have hdrop : u.drop g = s.drop g := State.drop_of_drops hdrops g
  have howns' : u.owns p g = true := by
    unfold State.owns State.owner at howns ⊢
    rw [hmap]
    exact howns
  have hlisted := u.mem_liveDropsOf p g hrising howns' (by rw [hdrop]; exact hne)
  have htaken := State.drop_foldl_onDrop_mem (·.takeOver s.now) _ u g hrising (u.liveDropsOf_sorted p hrising) hlisted
  have heq : s.sheepdog p = ((u.liveDropsOf p).foldl (fun u k => u.onDrop k (·.takeOver s.now)) u).updateTakeover := rfl
  rw [heq, State.drop_of_drops (State.drops_of_unrung (State.unrung_updateTakeover _)), htaken, hdrop]

theorem Drop.takeOver_active {d : Drop} (now : Nat) (h : d.state = .active) :
    (d.takeOver now).state = .fallback ∧ (d.takeOver now).fallbackFrom = some (now + 1000000) := by
  unfold Drop.takeOver
  rw [h]
  exact ⟨rfl, rfl⟩

/-- What a lapse has done before the Sheepdog acts: the session is LAPSED, and HEARTBEAT_LAPSE is raised. -/
def State.lapseRaised (s : State) (p : Nat) : State :=
  (((s.onPart p fun x => { x with session := .lapsed }).setLive (0x010 + 2 * p) true).raise (0x010 + 2 * p) 0)

theorem State.lapse_eq (s : State) (p : Nat) : s.lapse p = (s.lapseRaised p).sheepdog p := rfl

theorem State.lapse_session (s : State) (p : Nat) (hparts : tblRising s.parts = true) : ((s.lapse p).part p).session = .lapsed := by
  set u := s.onPart p fun x => { x with session := .lapsed } with hu
  have hrising : tblRising u.parts = true := tblRising_set _ _ _ _ hparts
  have hsession : (u.part p).session = .lapsed := by rw [hu, s.part_onPart_same p _ hparts]
  have hlive : Spares sessions u (u.setLive (0x010 + 2 * p) true) := .setLive u _ true (.inl (by omega))
  have hraised : Spares sessions u (s.lapseRaised p) := hlive.trans (.raise_aside deaf_sessions _ _ 0 (.inl (by omega)))
  have hlapsed : Spares sessions u (s.lapse p) := hraised.trans (.sheepdog deaf_sessions _ p fun _ _ => rfl)
  exact ((hlapsed.parts hrising).2 p).trans hsession

theorem State.lapse_sticky (s : State) (p : Nat) : ((s.lapse p).faultRec (0x010 + 2 * p)).sticky = true := by
  have hkept := ((FaultsKept.refl (s.lapseRaised p)).sheepdog (p := p)).kept (0x010 + 2 * p) (by omega)
  rw [s.lapse_eq p, hkept]
  exact State.sticky_raise _ _ 0 (by omega)

theorem State.lapseRaised_keeps (s : State) (p : Nat) : Keeps (fun d : Drop => d) ∅ (fun b : Bearing => b) s (s.lapseRaised p) :=
  ((Keeps.refl s).onPart.setLive).raise

theorem State.lapse_takes (s : State) (p g : Nat) (hd : tblRising s.drops = true) (howns : s.owns p g = true)
    (hactive : (s.drop g).state = .active) :
    ((s.lapse p).drop g).state = .fallback ∧ ((s.lapse p).drop g).fallbackFrom = some (s.now + 1000000) := by
  have hkeeps := s.lapseRaised_keeps p
  obtain ⟨hrising, hdrops⟩ := hkeeps.drops hd
  have hdrop : (s.lapseRaised p).drop g = s.drop g := hdrops g (by simp)
  have howns' : (s.lapseRaised p).owns p g = true := by
    unfold State.owns State.owner at howns ⊢
    rw [hkeeps.map]
    exact howns
  have hnow : (s.lapseRaised p).now = s.now := State.now_of_tb (congrArg (·.1) hkeeps.ground)
  have hne : s.drop g ≠ {} := fun heq => by
    rw [heq] at hactive
    cases hactive
  rw [s.lapse_eq p, State.drop_sheepdog _ p g hrising howns' (by rw [hdrop]; exact hne), hdrop, hnow]
  exact Drop.takeOver_active s.now hactive

theorem exec_heartbeatLapse_due {p : PartId} {s : State} (hdue : s.heartbeatDue p = true) (hup : s.boot.coreDown = []) :
    exec (.heartbeatLapse p) s = .next (s.lapse p) := by
  rw [exec_heartbeatLapse]
  simp [execHeartbeatLapse, hdue, hup]

/-- Settles O40: a clause for each doorbell, the retry, ring 0, the heartbeat, and what a lapse does in turn. -/
theorem doorbellsRingZeroAndHeartbeat : Obligations.DoorbellsRingZeroAndHeartbeat := by
  intro p r v s hr hopen hlink
  refine ⟨sqTailDoorbell_taken hopen hlink hr.parts, sqTailDoorbell_refused hopen hlink, cqHeadDoorbell_refused hopen hlink,
    cqHeadDoorbell_taken hopen hlink, fun k => sqFetchRetry_due, adminRingEnable_active hopen hlink hr.parts, heartbeat_restarts hopen hlink,
    fun hdue hup => ?_⟩
  exact ⟨_, exec_heartbeatLapse_due hdue hup, s.lapse_session p hr.parts, s.lapse_sticky p, fun g => s.lapse_takes p g hr.drops⟩

end Sys2Proof.Machine
end

section
/-! What doorbells leave of a partition's bridge, its failure journal (R200), and host writes outside every window (O36). -/

namespace Sys2Proof.Machine

open Sys2Proof

/-! ### Doorbells -/

/-- A partition's bridge. -/
def bridgeOf : Nat → Partition → Bridge := fun _ x => x.bridge

theorem deaf_bridgeOf : Deaf bridgeOf := fun _ _ => rfl

theorem State.parts_signalUnit (s : State) (p k : Nat) (hr : tblRising s.parts = true) :
    tblRising (s.signalUnit p k).parts = true ∧ ∀ q, (s.signalUnit p k).bridge q = s.bridge q :=
  (Spares.signalUnit deaf_bridgeOf s p k).parts hr

/-! ### The journal (R200) -/

/-- Entries that the host driver has not acknowledged, by 32-bit arithmetic (log entry 71). -/
def Bridge.waiting (b : Bridge) : Nat := (b.jrnNext - 1 - b.jrnAck).toNat

/-- A failure's entry takes the next SEQ, and is stored unless 256 wait. -/
def Bridge.enter (b : Bridge) (e : JrnEntry) : Bridge :=
  let e := { e with seq := b.jrnNext }
  { b with
    jrnNext := nextSeq b.jrnNext,
    journal := if 256 ≤ b.waiting then b.journal else tblPut b.journal (b.jrnNext.toNat % 256) e,
    jrnLost := if 256 ≤ b.waiting then satInc b.jrnLost else b.jrnLost,
    fenceSeqs := if e.dir then b.fenceSeqs else b.fenceSeqs ++ [e.seq] }

/-- Without a session the unit keeps up to 256 entries. -/
def Bridge.keep (b : Bridge) (e : JrnEntry) : Bridge :=
  if b.kept.length < 256 then { b with kept := b.kept ++ [e] } else { b with keptLost := b.keptLost + 1 }

theorem Bridge.keep_kept (b : Bridge) (e : JrnEntry) :
    (b.keep e).items = b.items ∧ (b.keep e).windows = b.windows ∧ (b.keep e).journal = b.journal ∧ (b.keep e).jrnNext = b.jrnNext ∧
      (b.kept.length < 256 → (b.keep e).kept = b.kept ++ [e] ∧ (b.keep e).keptLost = b.keptLost) ∧
      (256 ≤ b.kept.length → (b.keep e).kept = b.kept ∧ (b.keep e).keptLost = b.keptLost + 1) := by
  unfold Bridge.keep
  split
  · next hroom => exact ⟨rfl, rfl, rfl, rfl, fun _ => ⟨rfl, rfl⟩, fun hfull => absurd hroom (Nat.not_lt.mpr hfull)⟩
  · next hfull => exact ⟨rfl, rfl, rfl, rfl, fun hroom => absurd hroom hfull, fun _ => ⟨rfl, rfl⟩⟩

/-- An entry with the time of the failure. -/
def State.stamp (s : State) (e : JrnEntry) : JrnEntry := { e with time := BitVec.ofNat 32 s.now }

section
variable (s : State) (p : Nat) {e : JrnEntry} (hnowin : e.nowin = true)
include hnowin

/-- A failure outside every window in a session is entered, and the bridge's source signals. -/
theorem State.journal_session (hsession : (s.part p).session ≠ .closed) :
    s.journal p e = (s.onBridge p fun b => b.enter (s.stamp e)).signalUnit p 16 := by
  unfold State.journal
  dsimp only
  rw [if_pos hnowin, if_neg (by simpa using hsession)]
  rfl

theorem State.journal_sessionless (hsession : (s.part p).session = .closed) : s.journal p e = s.onBridge p fun b => b.keep (s.stamp e) := by
  unfold State.journal
  dsimp only
  rw [if_pos hnowin, if_pos (by simpa using hsession)]
  rfl

end

/-! ### Host writes outside every window (R184, R198) -/

/-- A half that lies in no window. -/
def outsidePart (half : Nat) (data : W16) : Part :=
  { half := half, fate := .noWindow, window := 0, seg := 0, drop := 0, swap := 0, word := half, region := none, data := data }

theorem State.decide1_outside (s : State) (p : Nat) (k : AccKind) (h : HalfReq) (hnone : (s.bridge p).windowAt h.half = none) :
    s.decide1 p k h = outsidePart h.half h.data := by
  unfold State.decide1
  rw [hnone]
  rfl

/-- The two halves of a DWord outside every window stand in order. -/
theorem orderParts_outside (n : Nat) (d d' : W16) :
    orderParts [outsidePart n d, outsidePart (n + 1) d'] = [outsidePart n d, outsidePart (n + 1) d'] := by
  simp [orderParts, outsidePart, List.insertionSort]

theorem runsOfParts_outside (n : Nat) (d d' : W16) (heven : n % 2 = 0) :
    runsOfParts [outsidePart n d, outsidePart (n + 1) d'] = [[outsidePart n d, outsidePart (n + 1) d']] := by
  refine runsOfParts_one (List.cons_ne_nil _ _) (List.isChain_pair.mpr ((Part.continuedBy_iff _ _).mpr ⟨rfl, ?_, rfl, rfl, rfl, nofun⟩))
  show (n + 1) / 64 = n / 64
  omega

/-- A write that is one run outside every window is journalled once. -/
theorem State.acceptWrite_outside (s : State) (p : Nat) {halves : List HalfReq} {x : Part} {l : List Part}
    (hparts : orderParts (halves.map (s.decide1 p .write)) = x :: l) (hfate : ∀ y ∈ x :: l, y.fate = .noWindow)
    (hrun : runsOfParts (x :: l) = [x :: l]) (hroom : s.postedFull p 1 = false) :
    s.acceptWrite p halves = some (s.journal p (x.journal causeNoWindow (l.length + 1) 0 false)) := by
  have hx : x.fate = .noWindow := hfate x List.mem_cons_self
  have hbound : ((x :: l).map fun y => if y.fate == .pass then { y with region := none } else y) = x :: l := by
    refine (List.map_congr_left fun y hy => ?_).trans (List.map_id _)
    simp [hfate y hy]
  have hrefused : ((x :: l).find? fun y => y.fate == .refused) = none := List.find?_eq_none.mpr fun y hy => by simp [hfate y hy]
  unfold State.acceptWrite
  simp only [hparts, hbound, hrun, hrefused]
  simp [hx, hroom, Fate.cause]

/-- What is journalled of a DWord in no window. -/
def outsideEntry (off : Nat) : JrnEntry :=
  { seq := 0, cause := 5, nowin := true, dir := false, seg := 0, drop := 0, window := 0, words := 1, nak := 0, addr := off / 2, time := 0 }

theorem hostWrite_outside {s : State} {p : PartId} {off : BitVec 34} (d : W32) (hopen : s.hostOpen p = true) (hoff : off.toNat < s.bar2Size p)
    (haligned : off.toNat % 4 = 0) (hlow : (s.bridge p).windowAt (off.toNat / 2) = none)
    (hhigh : (s.bridge p).windowAt (off.toNat / 2 + 1) = none) (hlink : s.linkHeld p false = false) :
    exec (.hostWrite p off [d] 15 0) s = .next (s.journal p (outsideEntry off.toNat)) := by
  have hparts : orderParts ((requestHalves off.toNat [d].length [d] 15 0).map (s.decide1 p .write)) =
      [outsidePart (off.toNat / 2) (d.extractLsb' 0 16), outsidePart (off.toNat / 2 + 1) (d.extractLsb' 16 16)] := by
    rw [List.length_singleton, requestHalves_dword off.toNat [d] 0 haligned, List.map_cons, List.map_singleton,
      s.decide1_outside p .write _ hlow, s.decide1_outside p .write _ hhigh]
    exact orderParts_outside _ _ _
  have haccept := s.acceptWrite_outside p hparts (by simp [outsidePart]) (runsOfParts_outside _ _ _ (by omega)) (State.room_of_link.1 hlink)
  exact exec_hostWrite_accepted hopen hoff hlink haccept

/-- Settles O36: the write is one run of two words, which the journal enters in a session and the unit keeps without one. -/
theorem writeOutsideWindowsIsJournalled : Obligations.WriteOutsideWindowsIsJournalled := by
  intro p s off d hrising hopen hoff haligned hlow hhigh hlink b entry waiting
  have hexec := hostWrite_outside d hopen hoff haligned hlow hhigh hlink
  by_cases hsession : (s.part p).session = .closed
  · rw [s.journal_sessionless p rfl hsession] at hexec
    obtain ⟨hitems, hwindows, hkept⟩ := b.keep_kept (s.stamp (outsideEntry off.toNat))
    refine ⟨_, hexec, ?_⟩
    rw [s.bridge_onBridge_same p _ hrising.1]
    exact ⟨hitems, hwindows, rfl, rfl, fun h => absurd hsession h, fun _ => hkept⟩
  · rw [s.journal_session p rfl hsession] at hexec
    obtain ⟨-, hbridge⟩ := State.parts_signalUnit _ p 16 (s.rising_onBridge p (fun b => b.enter (s.stamp (outsideEntry off.toNat))) hrising.1)
    refine ⟨_, hexec, ?_⟩
    rw [hbridge, s.bridge_onBridge_same p _ hrising.1]
    refine ⟨rfl, rfl, State.segs_of_unrung (State.unrung_signal _ _), State.drops_of_unrung (State.unrung_signal _ _),
      fun _ => ⟨rfl, rfl, fun hroom => ?_, fun hfull => ?_⟩, fun h => absurd h hsession⟩
    · exact ⟨if_neg (Nat.not_le.mpr hroom), if_neg (Nat.not_le.mpr hroom)⟩
    · exact ⟨if_pos hfull, if_pos hfull⟩

end Sys2Proof.Machine
end

section
/-! Operations that leave a bridge without items, and how many stale requests it has counted, as they are (R196), for O41. -/

namespace Sys2Proof.Machine

open Sys2Proof

/-- A bridge's items and its count of stale requests. -/
def Bridge.stock (b : Bridge) : List Item × W16 := (b.items, b.staleCnt)

/-- The same of a partition. -/
def stockOf : Nat → Partition → List Item × W16 := fun _ x => x.bridge.stock

theorem deaf_stockOf : Deaf stockOf := fun _ _ => rfl

theorem Spares.onBridge_stock (s : State) (p : Nat) {f : Bridge → Bridge} (hf : ∀ b, (f b).stock = b.stock) : Spares stockOf s (s.onBridge p f) :=
  onPart s p _ (hf _)

theorem Spares.onWin_stock (s : State) (p k : Nat) (f : Window → Window) : Spares stockOf s (s.onWin p k f) :=
  onBridge_stock s p fun _ => by split <;> rfl

theorem Spares.journal_stock (s : State) (p : Nat) (e : JrnEntry) : Spares stockOf s (s.journal p e) := by
  have hcounted : Spares stockOf s (if e.nowin then s else s.onWin p e.window fun w => { w with failCnt := satInc w.failCnt }) :=
    ite (refl s) (onWin_stock s p _ _)
  unfold State.journal
  refine ite (hcounted.trans (onBridge_stock _ p fun b => ?kept))
    ((hcounted.trans (onBridge_stock _ p ?entered)).trans (signalUnit deaf_stockOf _ p 16))
  case kept => split <;> rfl
  case entered => exact fun _ => rfl

/-! ### A bridge with one item -/

section
variable {s : State} {p : Nat} {it : Item} (hitems : (s.bridge p).items = [it])
include hitems

theorem State.item_single : s.item p it.id = some it := by
  unfold State.item
  rw [hitems]
  simp

theorem State.bridge_onItem_single (hrising : tblRising s.parts = true) (f : Item → Item) :
    (s.onItem p it.id f).bridge p = { s.bridge p with items := [f it] } := by
  rw [State.onItem, s.bridge_onBridge_same p _ hrising, hitems]
  simp

end

/-! ### A bridge without items -/

/-- The bridge of partition p holds no item, and has counted n stale requests. -/
structure ItemsGone (p : Nat) (n : W16) (s : State) : Prop where
  rising : tblRising s.parts = true
  stock : (s.bridge p).stock = ([], n)

namespace ItemsGone

variable {p : Nat} {n : W16} {s t : State}

theorem of_spares (h : ItemsGone p n s) (k : Spares stockOf s t) : ItemsGone p n t := by
  obtain ⟨hrising, hview⟩ := k.parts h.rising
  exact ⟨hrising, (hview p).trans h.stock⟩

/-- A change beside the partitions. -/
theorem aside (h : ItemsGone p n s) (hparts : t.parts = s.parts) : ItemsGone p n t := by
  have hbridge : t.bridge p = s.bridge p := congrArg (fun l : Tbl Partition => (tblGet ({} : Partition) l p).bridge) hparts
  exact ⟨hparts ▸ h.rising, hbridge ▸ h.stock⟩

theorem ite {c : Prop} [Decidable c] (hs : ItemsGone p n s) (ht : ItemsGone p n t) : ItemsGone p n (if c then s else t) := by
  split
  · exact hs
  · exact ht

theorem foldl {α : Type} {f : State → α → State} {l : List α} (h : ItemsGone p n s) (hf : ∀ u x, ItemsGone p n u → ItemsGone p n (f u x)) :
    ItemsGone p n (l.foldl f s) := List.foldlRecOn l f h fun u hu x _ => hf u x hu

/-- A change of the bridge that lists no item where none was listed, and counts m where n were counted. -/
theorem onBridge_to {m : W16} (h : ItemsGone p n s) {f : Bridge → Bridge} (hitems : ∀ b : Bridge, b.items = [] → (f b).items = [])
    (hstale : ∀ b : Bridge, b.staleCnt = n → (f b).staleCnt = m) : ItemsGone p m (s.onBridge p f) := by
  obtain ⟨hnone, hcount⟩ := Prod.mk.inj h.stock
  refine ⟨s.rising_onBridge p f h.rising, ?_⟩
  rw [s.bridge_onBridge_same p f h.rising]
  exact Prod.ext (hitems _ hnone) (hstale _ hcount)

theorem onBridge (h : ItemsGone p n s) {f : Bridge → Bridge} (hf : ∀ b, (f b).stock = b.stock := by exact fun _ => rfl) :
    ItemsGone p n (s.onBridge p f) := h.of_spares (.onBridge_stock s p hf)

theorem onSeg (h : ItemsGone p n s) {i : Nat} {f : Segment → Segment} : ItemsGone p n (s.onSeg i f) := h.aside rfl

theorem onWin (h : ItemsGone p n s) {k : Nat} {f : Window → Window} : ItemsGone p n (s.onWin p k f) := h.of_spares (.onWin_stock s p k f)

theorem onItem (h : ItemsGone p n s) {id : Nat} {f : Item → Item} : ItemsGone p n (s.onItem p id f) :=
  h.onBridge_to (fun _ hb => List.map_eq_nil_iff.mpr hb) fun _ hb => hb

theorem emit (h : ItemsGone p n s) {o : Output} : ItemsGone p n (s.emit o) := h.of_spares (.emit deaf_stockOf s o)

theorem journal (h : ItemsGone p n s) {e : JrnEntry} : ItemsGone p n (s.journal p e) := h.of_spares (.journal_stock s p e)

theorem startReads (h : ItemsGone p n s) {w : DmaFor} {l : List ((Nat × Nat) × Bool)} : ItemsGone p n (s.startReads p w l) :=
  h.foldl fun u _ hu => hu.of_spares (.startRequest deaf_stockOf u p w _ _ _ _)

/-! ### What leaves for hosts and guests -/

theorem sendCpl (h : ItemsGone p n s) {tag addr : Nat} {ep : Bool} {bytes : List Byte} : ItemsGone p n (s.sendCpl p tag addr ep bytes) :=
  h.foldl fun _ _ hu => hu.emit

theorem freeSem (h : ItemsGone p n s) : ItemsGone p n (s.freeSem p) := h.onBridge

theorem sendPost (h : ItemsGone p n s) {g : GuestPost} : ItemsGone p n (s.sendPost p g) := by
  have hwritten : ItemsGone p n (g.pieces.foldl (fun s x => s.writeHost p x.1 x.2) s) := h.foldl fun _ _ hu => hu.foldl fun _ _ hw => hw.emit
  have hsent := fun e => ite (c := (s.part p).dmaOk = true) hwritten (h.journal (e := e))
  exact ite (hsent _).freeSem (hsent _)

theorem flushPosted (h : ItemsGone p n s) : ItemsGone p n (s.flushPosted p) := h.onBridge.foldl fun _ _ hu => hu.sendPost

theorem sendWords (h : ItemsGone p n s) {i : Nat} {c2 : Bool} {ws : List ColWord} : ItemsGone p n (s.sendWords i c2 ws) := by
  have haligned := ite (c := (c2 && !(s.seg i).rate2 && ws.head? != some alignWord) = true) (h.emit (o := .colant i 2 [alignWord, alignWord])) h
  unfold State.sendWords
  exact (ite haligned haligned.onSeg).emit

theorem nakGuest (h : ItemsGone p n s) {i reason : Nat} {x : Tenure} : ItemsGone p n (s.nakGuest i x reason) := by
  have hbusy : ItemsGone p n (s.busySince i x) := by
    unfold State.busySince
    split
    · exact ite h h.emit
    · exact h
  unfold State.nakGuest State.answerGuest
  exact hbusy.sendWords.onSeg

/-! ### The semaphore (R210) -/

theorem beginGuestRead (h : ItemsGone p n s) {i : Nat} {c : GuestCmd} : ItemsGone p n (s.beginGuestRead p i c) := by
  unfold State.beginGuestRead State.startGuestRead State.holdGuest
  exact ite h.flushPosted.startReads.onSeg h.onSeg

theorem grantFrom (h : ItemsGone p n s) {l : List SemWaiter} : ItemsGone p n (s.grantFrom p l) := by
  induction l generalizing s with
  | nil => exact h.onBridge
  | cons x rest ih =>
    cases x with
    | atomic id =>
      have htaken : ItemsGone p n ((s.onBridge p fun b => { b with semWaiting := rest }).onBridge p fun b => { b with semOwner := .atomic }) :=
        h.onBridge.onBridge
      exact htaken.onItem
    | guest i =>
      unfold State.grantFrom State.guestTakes
      split
      · split
        · exact ite h.onBridge.onBridge.beginGuestRead (ih h.nakGuest)
        · exact ih h
      · exact ih h

theorem grantSem (h : ItemsGone p n s) : ItemsGone p n (s.grantSem p) := ite h.grantFrom h

/-! ### The ends of reads and AtomicOps (R198, R199, R211) -/

theorem recordReadErr (h : ItemsGone p n s) {f : FailRec} : ItemsGone p n (s.recordReadErr p f) :=
  h.onBridge fun _ => by split <;> rfl

theorem countFail (h : ItemsGone p n s) {f : FailRec} : ItemsGone p n (s.countFail p f) := ite h h.onWin

theorem completeRead (h : ItemsGone p n s) {r : ReadReq} : ItemsGone p n (s.completeRead p r) := by
  have hflushed := h.flushPosted
  unfold State.completeRead
  dsimp only
  split
  · exact hflushed.sendCpl
  · exact ite hflushed.recordReadErr.countFail.sendCpl hflushed.recordReadErr.countFail.emit

/-- The one item leaves. -/
theorem removeItem {it : Item} (hrising : tblRising s.parts = true) (hitems : (s.bridge p).items = [it]) :
    ItemsGone p (s.bridge p).staleCnt (s.removeItem p it.id) := by
  unfold State.removeItem
  refine foldl ?_ fun _ _ hu => hu.emit
  refine ⟨s.rising_onBridge p _ hrising, ?_⟩
  rw [s.bridge_onBridge_same p _ hrising]
  exact Prod.ext (by simp [Bridge.stock, hitems]) rfl

theorem endAtomic {it : Item} {a : AtomicRun} (hrising : tblRising s.parts = true) (hitems : (s.bridge p).items = [it]) :
    ItemsGone p (s.bridge p).staleCnt (s.endAtomic p it a) := by
  have hremoved := removeItem hrising hitems
  have hfreed := (ite (c := a.step = 0) (hremoved.onBridge (f := fun b => { b with semWaiting := b.semWaiting.filter (· != .atomic it.id) }))
    hremoved.freeSem).flushPosted
  unfold State.endAtomic
  refine grantSem ?_
  split
  · exact hfreed.emit
  · exact hfreed.recordReadErr.countFail.emit

/-- The one item ends where nothing of it is left to perform. -/
theorem settleItem {it : Item} (hrising : tblRising s.parts = true) (hitems : (s.bridge p).items = [it]) (hcmds : it.cmds = [])
    (hfail : ∀ a, it.atomic = some a → a.fail.isSome = true) : ItemsGone p (s.bridge p).staleCnt (s.settleItem p it.id) := by
  have hremoved := removeItem hrising hitems
  unfold State.settleItem
  simp only [State.item_single hitems, hcmds, List.isEmpty_nil, Bool.not_true, Bool.false_eq_true, if_false]
  cases hatomic : it.atomic with
  | some a =>
    have hfailed : a.fail.isNone = false := by simpa [Option.isSome_iff_ne_none] using hfail a hatomic
    simp only [hfail a hatomic, hfailed, Bool.true_or, Bool.and_false, Bool.false_eq_true, if_true, if_false]
    exact endAtomic hrising hitems
  | none =>
    cases it.read with
    | some r => exact hremoved.completeRead.grantSem
    | none => exact hremoved

/-- The same of an item that a change leaves with nothing to perform. -/
theorem settleItem_onItem {it : Item} {f : Item → Item} (hrising : tblRising s.parts = true) (hitems : (s.bridge p).items = [it])
    (hid : (f it).id = it.id) (hcmds : (f it).cmds = []) (hfail : ∀ a, (f it).atomic = some a → a.fail.isSome = true) :
    ItemsGone p (s.bridge p).staleCnt ((s.onItem p it.id f).settleItem p it.id) := by
  have hbridge := State.bridge_onItem_single hitems hrising f
  have hrising' : tblRising (s.onItem p it.id f).parts = true := s.rising_onBridge p _ hrising
  have hsettled := settleItem hrising' (congrArg Bridge.items hbridge) hcmds hfail
  rwa [hid, hbridge] at hsettled

/-- The one item ends where its one command fails. -/
theorem failHead {it : Item} (hrising : tblRising s.parts = true) (hitems : (s.bridge p).items = [it]) (hone : it.cmds.length = 1)
    (cause nak : Nat) : ItemsGone p (s.bridge p).staleCnt (s.failHead p it.id cause nak) := by
  obtain ⟨c, hcmds⟩ := List.length_eq_one_iff.mp hone
  unfold State.failHead
  simp only [State.item_single hitems, hcmds, ite_self]
  cases hatomic : it.atomic with
  | some a => exact settleItem_onItem hrising hitems rfl rfl (by rintro _ ⟨⟩; rfl)
  | none =>
    cases it.read with
    | some r => exact settleItem_onItem hrising hitems rfl rfl (by rintro _ h; simp [hatomic] at h)
    | none =>
      obtain ⟨hrising', hstock⟩ := (Spares.journal_stock s p (c.journal cause nak)).parts hrising
      obtain ⟨hitems', hstale⟩ := Prod.mk.inj (hstock p)
      exact hstale ▸ settleItem_onItem hrising' (hitems'.trans hitems) rfl rfl (by rintro _ h; simp [hatomic] at h)

end ItemsGone

end Sys2Proof.Machine
end

section
/-! Events of the bridge: the semaphore, read-ahead that expires, stale items and the journal's acknowledgement (O41). -/

namespace Sys2Proof.Machine

open Sys2Proof

theorem State.barWrite_open {s : State} {p : Nat} (ok : State → Res) (hopen : s.hostOpen p = true) (hlink : s.linkHeld p false = false) :
    s.barWrite p ok = ok s := by
  simp [State.barWrite, hopen, hlink]

/-! ### The semaphore (R210) -/

section
variable {s : State} {p : PartId} (hopen : s.hostOpen p = true) (hlink : s.linkHeld p false = false)
include hopen hlink

theorem exec_claim_free (howner : (s.bridge p).semOwner = .none) (hwaiting : (s.bridge p).semWaiting = []) :
    exec (.claim p) s = .next (s.onBridge p fun b => { b with semOwner := .host, semExpiry := some (s.tick + 100000) }) := by
  rw [exec_claim, execClaim, State.barWrite_open _ hopen hlink]
  exact if_pos ⟨howner, hwaiting⟩

theorem exec_claim_held (howner : (s.bridge p).semOwner ≠ .none) : exec (.claim p) s = .next s := by
  rw [exec_claim, execClaim, State.barWrite_open _ hopen hlink]
  exact if_neg fun ⟨hfree, _⟩ => howner hfree

theorem exec_release_host (howner : (s.bridge p).semOwner = .host) : exec (.release p) s = .next ((s.freeSem p).grantSem p) := by
  rw [exec_release, execRelease, State.barWrite_open _ hopen hlink, if_pos howner]

end

/-- The semaphore stays free where nothing waits for it. -/
theorem State.bridge_grantSem_unwaited (s : State) (p : Nat) (hrising : tblRising s.parts = true) (howner : (s.bridge p).semOwner = .none)
    (hwaiting : (s.bridge p).semWaiting = []) : (s.grantSem p).bridge p = s.bridge p := by
  have hgrant : s.grantSem p = s.onBridge p fun b => { b with semWaiting := [] } := by
    rw [State.grantSem, if_pos howner, hwaiting]
    rfl
  rw [hgrant, s.bridge_onBridge_same p _ hrising, ← hwaiting]

theorem State.bridge_freeSem (s : State) (p : Nat) (hrising : tblRising s.parts = true) :
    (s.freeSem p).bridge p = { s.bridge p with semOwner := .none, semExpiry := none } := s.bridge_onBridge_same p _ hrising

theorem State.bridge_released (s : State) (p : Nat) (hrising : tblRising s.parts = true) (hwaiting : (s.bridge p).semWaiting = []) :
    ((s.freeSem p).grantSem p).bridge p = { s.bridge p with semOwner := .none, semExpiry := none } := by
  have hrising' : tblRising (s.freeSem p).parts = true := s.rising_onBridge p _ hrising
  have hfreed := s.bridge_freeSem p hrising
  rw [State.bridge_grantSem_unwaited _ p hrising' (by rw [hfreed]) (by rw [hfreed, hwaiting]), hfreed]

/-- What an expired hold leaves, before what waits takes the semaphore. -/
def State.holdExpired (s : State) (p : Nat) : State := ((s.freeSem p).onBridge p fun b => { b with semExpired := true }).signalUnit p 16

theorem exec_semaphoreExpiry_due {s : State} {p : PartId} {k : Nat} (hexpiry : (s.bridge p).semExpiry = some k) (hdue : k ≤ s.tick) :
    exec (.semaphoreExpiry p) s = .next ((s.holdExpired p).grantSem p) := by
  rw [exec_semaphoreExpiry, execSemaphoreExpiry, hexpiry]
  exact if_neg (Nat.not_lt.mpr hdue)

theorem State.bridge_expired (s : State) (p : Nat) (hrising : tblRising s.parts = true) (hwaiting : (s.bridge p).semWaiting = []) :
    ((s.holdExpired p).grantSem p).bridge p = { s.bridge p with semOwner := .none, semExpiry := none, semExpired := true } := by
  have hfreed : tblRising (s.freeSem p).parts = true := s.rising_onBridge p _ hrising
  obtain ⟨hrising', hrung⟩ := State.parts_signalUnit _ p 16 ((s.freeSem p).rising_onBridge p (fun b => { b with semExpired := true }) hfreed)
  have hbridge : (s.holdExpired p).bridge p = { s.bridge p with semOwner := .none, semExpiry := none, semExpired := true } := by
    rw [State.holdExpired, hrung p, State.bridge_onBridge_same _ p _ hfreed, s.bridge_freeSem p hrising]
  rw [State.bridge_grantSem_unwaited (s.holdExpired p) p hrising' (by rw [hbridge]) (by rw [hbridge, hwaiting]), hbridge]

/-! ### Read-ahead that expires (R204, R205) -/

theorem State.ahead_of_win {s : State} {p k : Nat} {x : Window} {a : ReadAhead} (hwin : s.win p k = some x) (hahead : x.ahead = some a) :
    (s.win p k).bind (·.ahead) = some a := by
  rw [hwin]
  exact hahead

/-- A window's read-ahead goes; a destructive word of it that is lost is noted. -/
theorem State.win_invalidate_ahead {s : State} {p k : Nat} {x : Window} {a : ReadAhead} (hrising : tblRising s.parts = true)
    (hwin : s.win p k = some x) (hahead : x.ahead = some a) :
    (s.invalidate p k).win p k = some { x with ahead := none, discard := x.discard || (a.destructive && !a.words.isEmpty) } := by
  have hemptied := s.win_onWin_same p k (fun w => { w with ahead := none, discard := w.discard || (a.destructive && !a.words.isEmpty) }) hrising
  rw [hwin] at hemptied
  unfold State.invalidate
  rw [State.ahead_of_win hwin hahead]
  dsimp only
  split
  · obtain ⟨-, hrung⟩ := State.parts_signalUnit _ p 16 (s.rising_onBridge p _ hrising)
    exact (congrArg (fun b : Bridge => tblFind b.windows k) (hrung p)).trans hemptied
  · exact hemptied

theorem exec_prefetchExpiry_due {s : State} {p : PartId} {k : Fin 256} {x : Window} {a : ReadAhead} (hwin : s.win p k = some x)
    (hahead : x.ahead = some a) (hdue : a.tick + 10000 ≤ s.tick) : exec (.prefetchExpiry p k) s = .next (s.invalidate p k) := by
  rw [exec_prefetchExpiry, execPrefetchExpiry, State.ahead_of_win hwin hahead]
  exact congrArg Host.Outcome.next (if_pos ((s.past_iff _ _).mpr hdue))

/-! ### Stale items (R196, R220) -/

section
variable {s : State} {p : Nat}

theorem State.failStale_none (hnone : s.staleItem p = none) (fuel : Nat) : s.failStale fuel p = s := by
  cases fuel with
  | zero => rfl
  | succ k => rw [State.failStale, hnone]

theorem State.failStale_some {it : Item} (hstale : s.staleItem p = some it) (k : Nat) :
    s.failStale (k + 1) p = ((s.failHead p it.id causeStale 0).countStale p it).failStale k p := by
  rw [State.failStale, hstale]

/-- A request that has not counted yet counts; a bridge without items stays so. -/
theorem ItemsGone.countStale {n : W16} {it : Item} (h : ItemsGone p n s) (hseen : it.staleSeen = false) :
    ItemsGone p (satInc n) (s.countStale p it) := by
  rw [State.countStale, hseen, if_neg Bool.false_ne_true]
  exact h.onBridge_to (fun _ hb => List.map_eq_nil_iff.mpr hb) fun _ hb => congrArg satInc hb

theorem ItemsGone.staleItem {n : W16} (h : ItemsGone p n s) : s.staleItem p = none := by
  obtain ⟨hitems, -⟩ := Prod.mk.inj h.stock
  rw [State.staleItem, hitems]
  rfl

end

theorem exec_stale_none {s : State} {p : PartId} (hnone : s.staleItem p = none) : exec (.stale p) s = .next s := by
  rw [exec_stale, execStale, State.failStale_none hnone]

section
variable {s : State} {p : PartId} {it : Item} (hstale : s.staleItem p = some it) (hitems : (s.bridge p).items = [it]) (hone : it.cmds.length = 1)
include hitems hone

include hstale in
theorem exec_stale_single : exec (.stale p) s = .next (((s.failHead p it.id causeStale 0).countStale p it).failStale 1 p) := by
  rw [exec_stale, execStale, hitems, List.map_singleton, hone]
  exact congrArg Host.Outcome.next (State.failStale_some hstale 1)

/-- One stale item counts once. -/
theorem staleCnt_single (hrising : tblRising s.parts = true) (hseen : it.staleSeen = false) :
    ((((s.failHead p it.id causeStale 0).countStale p it).failStale 1 p).bridge p).staleCnt = satInc (s.bridge p).staleCnt := by
  have hgone := (ItemsGone.failHead hrising hitems hone causeStale 0).countStale hseen
  obtain ⟨-, hcounted⟩ := Prod.mk.inj hgone.stock
  rw [State.failStale_none hgone.staleItem, hcounted]

end

/-! ### The journal's acknowledgement (R200, R218) -/

theorem exec_brgJrnAckWrite_judged {s : State} {p : PartId} (v : W32) (hrising : tblRising s.parts = true) (hopen : s.hostOpen p = true)
    (hlink : s.linkHeld p false = false) : ∃ t, exec (.brgJrnAckWrite p v) s = .next t ∧ (t.bridge p).jrnAck =
      if (v - (s.bridge p).jrnAck).toNat ≤ ((s.bridge p).jrnNext - 1 - (s.bridge p).jrnAck).toNat then v else (s.bridge p).jrnAck := by
  rw [exec_brgJrnAckWrite, execBrgJrnAckWrite, State.barWrite_open _ hopen hlink]
  refine ⟨_, rfl, ?_⟩
  rw [s.bridge_onBridge_same p _ hrising]
  exact apply_ite Bridge.jrnAck _ _ _

/-- Settles O41: each event by what it does to the bridge; a bridge whose one item is stale has none left once that has failed. -/
theorem bridgeEventsHappen : Obligations.BridgeEventsHappen := by
  intro p s hrising hopen hlink
  refine ⟨exec_claim_free hopen hlink, exec_claim_held hopen hlink, fun howner hwaiting => ?release, fun k hexpiry hdue hwaiting => ?expiry,
    fun w a x hwin hahead hdue => ⟨exec_prefetchExpiry_due hwin hahead hdue, State.win_invalidate_ahead hrising.1 hwin hahead⟩,
    exec_stale_none, fun it hstale hitems hone => ⟨exec_stale_single hstale hitems hone, staleCnt_single hitems hone hrising.1⟩,
    fun v => exec_brgJrnAckWrite_judged v hrising.1 hopen hlink⟩
  case release =>
    have hbridge := s.bridge_released p hrising.1 hwaiting
    exact ⟨_, exec_release_host hopen hlink howner, congrArg Bridge.semOwner hbridge, congrArg Bridge.semExpiry hbridge⟩
  case expiry =>
    have hbridge := s.bridge_expired p hrising.1 hwaiting
    exact ⟨_, exec_semaphoreExpiry_due hexpiry hdue, congrArg Bridge.semOwner hbridge, congrArg Bridge.semExpired hbridge⟩

end Sys2Proof.Machine
end
